-- ==== Sys2Proof/Word.lean ====
section
/-! DEFINITION. The word types of the Torvez 8200: bytes, register words, instruction words and descriptors. -/

namespace Sys2Proof

/-- One byte of memory. -/
abbrev Byte := BitVec 8
/-- One 64-bit register or ring word. -/
abbrev W64 := BitVec 64
/-- One 32-bit word: a tile cell, a loop counter, an instruction index. -/
abbrev W32 := BitVec 32
/-- One 16-byte bay instruction (R96). -/
abbrev W128 := BitVec 128
/-- One 64-byte descriptor (R115). -/
abbrev W512 := BitVec 512

end Sys2Proof
end

