-- ==== Sys2Proof/Wire.lean ====
section
/-! DEFINITION. What crosses the device's edges: Ozrinen packets (R370), PCIe requests (R431) and self-test findings
(R459). They are operands of commands and contents of the link and port state. -/

namespace Sys2Proof

/-- One Ozrinen packet (R370). `poisonBits` and `maskBits` hold one Bool per payload byte; an empty `maskBits` means
that no mask block follows; `cr0` and `cr1` are the credits of the trailer; `fecFixed` is how many FEC codewords of
it the receiver corrected. -/
structure Packet where
  typ : BitVec 8
  path : Bool
  vc : Bool
  nak : Bool
  part : BitVec 4
  daddr : BitVec 12
  saddr : BitVec 12
  arg : W64
  seq : BitVec 16
  ack : BitVec 16
  pathid : BitVec 16
  tag : BitVec 16
  payload : List Byte
  poisonBits : List Bool
  maskBits : List Bool
  cr0 : Byte
  cr1 : Byte
  fecFixed : Nat
deriving DecidableEq, Repr

/-- A PCIe function: the port and the function's number on it, 0 for the PF (R432). -/
structure Func where
  port : Nat
  num : Nat
deriving DecidableEq, Repr

/-- The administrative function: the PF of port 0 (R432). -/
def Func.admin : Func := { port := 0, num := 0 }

/-- One memory-side request as it reaches a controller (R301). -/
inductive MemReq where
  | read (addr len : Nat) (src : Nat) (part : Option Nat) (tag : Nat)
  | write (addr : Nat) (data : List Byte) (poison : List Bool) (mask : List Bool) (src : Nat) (part : Option Nat)
  | atomic (code : Nat) (addr : Nat) (data : List Byte) (poison : List Bool) (mask : List Bool) (src : Nat)
      (part : Option Nat)
deriving DecidableEq, Repr

/-- What stage 2 finds in one bay (R459): unusable physical rows and lanes, cap banks that need a spare, and a finding of
another kind that maps the bay out, as a cause byte of R464 (0 when none). -/
structure BayFinding where
  bay : Nat
  rows : List Nat
  lanes : List (Nat × Nat)
  banks : List Nat
  cause : Nat
deriving DecidableEq, Repr

/-- What stage 2 finds in one pier (R459): failed station cores, and a cause that maps the pier out (0: none). -/
structure PierFinding where
  pier : Nat
  badCores : List Nat
  cause : Nat
deriving DecidableEq, Repr

/-- What training finds in one stack (R320): per pseudo-channel 0 no repair, 1 repaired, 2 unrepairable, and T. -/
structure StackFinding where
  stack : Nat
  lanes : List (Nat × Nat)
  temp : Nat
deriving DecidableEq, Repr

/-- The findings of one self-test. -/
structure Findings where
  bays : List BayFinding
  piers : List PierFinding
  hbms : List StackFinding
deriving DecidableEq, Repr

/-- A PCIe configuration request (R431, R452): a read or a write of a configuration register, or a write of the SR-IOV
control of a PF. -/
inductive CfgReq where
  | read (off : Nat)
  | write (off : Nat) (value : W32)
  | vfControl (enable : Bool) (numVfs : Nat)
deriving DecidableEq, Repr

end Sys2Proof
end

