-- ==== Sys2Proof/Syntax.lean ====
section
/-! DEFINITION. The commands of the block: one constructor per row of the opcode table, in its order, with the row's
operands. Indices of parts of the device are bounded by their number; an operand of type Nat is a measured quantity (a
time, a count of cycles, a length) that the environment supplies. -/

namespace Sys2Proof

/-- One command. Each constructor's comment gives the row's mnemonic and rule. -/
inductive Instr where
  /-- NOP (R98). -/
  | nop (b : Fin 64) (i : Fin 3)
  /-- END (R90). -/
  | endStream (b : Fin 64) (i : Fin 3)
  /-- DEPART (R89). -/
  | depart (b : Fin 64) (i : Fin 3)
  /-- DEPART_RELEASE (R89). -/
  | departRelease (b : Fin 64) (i : Fin 3)
  /-- BRANCH_JUMP (R99). -/
  | branchJump (b : Fin 64) (i : Fin 3)
  /-- BRANCH_LOOP (R99). -/
  | branchLoop (b : Fin 64) (i : Fin 3)
  /-- BRANCH_SET_COUNT (R99). -/
  | branchSetCount (b : Fin 64) (i : Fin 3)
  /-- BRANCH_STALL_END (R74). -/
  | branchStallEnd (b : Fin 64) (i : Fin 3)
  /-- CFG (R93). -/
  | cfg (b : Fin 64) (i : Fin 3)
  /-- COMMIT (R93). -/
  | commit (b : Fin 64) (i : Fin 3)
  /-- SYNC_SET (R84). -/
  | syncSet (b : Fin 64) (i : Fin 3)
  /-- SYNC_CLEAR (R84). -/
  | syncClear (b : Fin 64) (i : Fin 3)
  /-- SYNC_WAIT (R84). -/
  | syncWait (b : Fin 64) (i : Fin 3)
  /-- SYNC_WAITCLR (R85). -/
  | syncWaitClr (b : Fin 64) (i : Fin 3)
  /-- SYNC_WAIT_END (R85). -/
  | syncWaitEnd (b : Fin 64) (i : Fin 3)
  /-- SYNC_RSET (R84). -/
  | syncRset (b : Fin 64) (i : Fin 3)
  /-- RSET_ARRIVAL (R84). -/
  | rsetArrival (b : Fin 64) (token : Fin 64)
  /-- DLOAD (R99). -/
  | dload (b : Fin 64) (i : Fin 3)
  /-- MOVE (R101). -/
  | move (b : Fin 64) (i : Fin 3)
  /-- MLOAD (R182). -/
  | mload (b : Fin 64) (i : Fin 3)
  /-- STATIONARY_SWAP (R183). -/
  | stationarySwap (b : Fin 64) (stall : Nat)
  /-- MMUL (R174). -/
  | mmul (b : Fin 64) (i : Fin 3) (dry : Nat) (full : Nat) (wait : Nat)
  /-- DRAIN_WRITEOUT (R187). -/
  | drainWriteout (b : Fin 64)
  /-- VOP (R210). -/
  | vop (b : Fin 64) (i : Fin 3) (starve : Nat)
  /-- VFUNC (R216). -/
  | vfunc (b : Fin 64) (i : Fin 3) (starve : Nat)
  /-- VRED (R217). -/
  | vred (b : Fin 64) (i : Fin 3) (starve : Nat)
  /-- VSCAN (R220). -/
  | vscan (b : Fin 64) (i : Fin 3) (starve : Nat)
  /-- VPERM (R222). -/
  | vperm (b : Fin 64) (i : Fin 3) (starve : Nat)
  /-- RMSN (R244). -/
  | rmsn (b : Fin 64) (i : Fin 3) (starve : Nat) (gap : Nat)
  /-- SMAX (R248). -/
  | smax (b : Fin 64) (i : Fin 3) (starve : Nat) (gap : Nat)
  /-- TURN (R142). -/
  | turn (b : Fin 64) (i : Fin 3)
  /-- QUANT_NARROW (R156). -/
  | quantNarrow (b : Fin 64) (i : Fin 3)
  /-- QUANT_STASH (R167). -/
  | quantStash (b : Fin 64) (i : Fin 3)
  /-- QUANT_AMAX_ONLY (R153). -/
  | quantAmaxOnly (b : Fin 64) (i : Fin 3)
  /-- AMAX_RECORD_UPDATE (R160). -/
  | amaxRecordUpdate (b : Fin 64)
  /-- ROUTE_TOPK (R262). -/
  | routeTopk (b : Fin 64) (i : Fin 3)
  /-- ROUTE_GATHER (R269). -/
  | routeGather (b : Fin 64) (i : Fin 3)
  /-- ROUTE_COMBINE (R270). -/
  | routeCombine (b : Fin 64) (i : Fin 3)
  /-- COLL_ALL_REDUCE (R393). -/
  | collAllReduce (b : Fin 64) (i : Fin 3)
  /-- COLL_REDUCE_SCATTER (R393). -/
  | collReduceScatter (b : Fin 64) (i : Fin 3)
  /-- COLL_ALL_GATHER (R393). -/
  | collAllGather (b : Fin 64) (i : Fin 3)
  /-- COLL_BROADCAST (R393). -/
  | collBroadcast (b : Fin 64) (i : Fin 3)
  /-- COLL_SEND (R393). -/
  | collSend (b : Fin 64) (i : Fin 3)
  /-- COLL_RECEIVE (R393). -/
  | collReceive (b : Fin 64) (i : Fin 3)
  /-- COLL_ENGINE_START (R386). -/
  | collEngineStart (n : Nat)
  /-- COLL_COMPLETE (R389). -/
  | collComplete (n : Nat)
  /-- COLL_WATCHDOG (R399). -/
  | collWatchdog (n : Nat)
  /-- UPD (R107). -/
  | upd (b : Fin 64) (i : Fin 3)
  /-- UPD_PROLOGUE (R287). -/
  | updPrologue (b : Fin 64) (extra : Nat)
  /-- UPD_BODY (R281). -/
  | updRun (p : Fin 4) (stall : Nat)
  /-- UPD_EPILOGUE (R294). -/
  | updEpilogue (p : Fin 4)
  /-- SEAL_COMPUTE (R500). -/
  | sealCompute (b : Fin 64) (i : Fin 3)
  /-- SEAL_VERIFY (R358). -/
  | sealVerify (b : Fin 64) (i : Fin 3)
  /-- INSTRUCTION_COMPLETE (R81). -/
  | instructionComplete (b : Fin 64) (n : Nat)
  /-- OCCURRENCE_DEPARTURE_SLOT (R88). -/
  | departureSlot (q : Fin 16) (e : BitVec 14) (k : Nat)
  /-- OCCURRENCE_DELIVERED (R87). -/
  | occurrenceDelivered (q : Fin 16) (e : BitVec 14) (k : Nat)
  /-- PROMISE_EXPIRY (R499). -/
  | promiseExpiry (q : Fin 16) (e : BitVec 14) (k : Nat)
  /-- SLOT_BOUNDARY (R44). -/
  | slotBoundary
  /-- SLOT_LENGTH_CHANGE (R44). -/
  | slotLengthChange
  /-- SUBMIT_INSTALL (R443). -/
  | submitInstall (q : Fin 16) (w : W512)
  /-- ADMISSION_COMPLETE (R49). -/
  | admissionComplete (q : Fin 16)
  /-- SUBMIT_WITHDRAW (R443). -/
  | submitWithdraw (q : Fin 16) (w : W512)
  /-- SUBMIT_START (R443). -/
  | submitStart (q : Fin 16) (w : W512)
  /-- SUBMIT_MODEL (R446). -/
  | submitModel (q : Fin 16) (w : W512)
  /-- SUBMIT_RESET (R443). -/
  | submitReset (q : Fin 16) (w : W512)
  /-- PARTITION_RESET (R440). -/
  | partitionReset (q : Fin 16)
  /-- QUARTER_CLEAN_DONE (R435). -/
  | quarterCleanDone (q : Fin 16) (i : Fin 16)
  /-- TIMETABLE_TAKEOVER (R47). -/
  | timetableTakeover (q : Fin 16)
  /-- TIMETABLE_REMOVAL (R498). -/
  | timetableRemoval (q : Fin 16)
  /-- STEP_BOUNDARY (R68). -/
  | stepBoundary (q : Fin 16)
  /-- STEP_APPLY (R69). -/
  | stepApply
  /-- STEP_NOTICE (R397). -/
  | stepNotice (l : Fin 32) (p : Packet)
  /-- MAINTENANCE_SPAN_START (R321). -/
  | maintStart (q : Fin 16) (e : BitVec 14) (k : Nat)
  /-- MAINTENANCE_SPAN_END (R65). -/
  | maintEnd (q : Fin 16) (e : BitVec 14) (k : Nat)
  /-- HOLD_SEND (R61). -/
  | holdSend
  /-- HOLD_NOTICE (R397). -/
  | holdNotice (l : Fin 32) (p : Packet)
  /-- PAUSE_SLOT (R62). -/
  | pauseSlot
  /-- RESUME_SEND (R63). -/
  | resumeSend
  /-- RESUME_NOTICE (R397). -/
  | resumeNotice (l : Fin 32) (p : Packet)
  /-- RESUME_SLOT (R63). -/
  | resumeSlot
  /-- EPOCH_INSTANT (R40). -/
  | epochInstant
  /-- TIME_SOURCE_PRESENT (R41). -/
  | timeSourcePresent
  /-- TIME_LOCK (R41). -/
  | timeLock
  /-- TIME_SOURCE_LOST (R41). -/
  | timeSourceLost
  /-- TIME_SOURCE_REGAINED (R41). -/
  | timeSourceRegained (offset : Int)
  /-- HOLDOVER_EXPIRY (R41). -/
  | holdoverExpiry
  /-- TIME_EXCHANGE (R43). -/
  | timeExchange (l : Fin 32) (frac : Fin 16)
  /-- TIME_PACKET (R395). -/
  | timePacket (l : Fin 32) (p : Packet) (rx : W64)
  /-- CAP_PACKET (R369). -/
  | capPacket (l : Fin 32) (p : Packet)
  /-- LINK_TRAINED (R474). -/
  | linkTrained (l : Fin 32) (quads : BitVec 4)
  /-- QUAD_LOSS (R367). -/
  | quadLoss (l : Fin 32) (quad : Fin 4) (signal : Bool)
  /-- LINK_RETRAIN (R402). -/
  | linkRetrain (f : Func) (l : Fin 32)
  /-- PACKET_NAK (R373). -/
  | packetNak (l : Fin 32) (unc : Vector Nat 4)
  /-- PACKET_REPLAY (R373). -/
  | packetReplay (l : Fin 32) (ack : BitVec 16)
  /-- REPLAY_THRESHOLD (R374). Of quads with equally many uncorrectable codewords `quad` names the one that goes. -/
  | replayThreshold (l : Fin 32) (quad : Fin 4)
  /-- IDLE_PACKET (R371). -/
  | idlePacket (l : Fin 32) (p : Packet)
  /-- UNKNOWN_PACKET (R371). -/
  | unknownPacket (l : Fin 32) (p : Packet)
  /-- RD (R380). -/
  | rdPacket (l : Fin 32) (p : Packet)
  /-- WR (R380). -/
  | wrPacket (l : Fin 32) (p : Packet)
  /-- AT (R380). -/
  | atPacket (l : Fin 32) (p : Packet)
  /-- RDR (R371). -/
  | rdrPacket (l : Fin 32) (p : Packet)
  /-- WACK (R381). -/
  | wackPacket (l : Fin 32) (p : Packet)
  /-- COLL_PACKET (R400). -/
  | collPacket (l : Fin 32) (p : Packet)
  /-- CAUTION_NOTICE (R396). -/
  | cautionNotice (l : Fin 32) (p : Packet)
  /-- PEERLATE (R398). -/
  | peerLate (l : Fin 32) (p : Packet)
  /-- ABANDON (R399). -/
  | abandon (l : Fin 32) (p : Packet)
  /-- MEMORY_READ (R301). -/
  | memoryRead (a : BitVec 52) (n : Nat) (src : BitVec 16) (part : Option (Fin 16)) (tag : Nat) (die : Fin 5)
  /-- MEMORY_WRITE (R301). -/
  | memoryWrite (a : BitVec 52) (src : BitVec 16) (part : Option (Fin 16)) (data : List Byte) (poison : List Bool) (mask : List Bool)
  /-- CORRECTION_WRITEBACK (R347). -/
  | correctionWriteback (a : BitVec 52)
  /-- MERGE_EVICT (R318). -/
  | mergeEvict (k : Fin 12)
  /-- MS_MERGE (R316). -/
  | msMerge (a : BitVec 52) (src : BitVec 16) (part : Option (Fin 16)) (data : List Byte) (poison : List Bool) (mask : List Bool)
  /-- MS_ADD_FP32 (R317). -/
  | msAddFp32 (a : BitVec 52) (src : BitVec 16) (part : Option (Fin 16)) (data : List Byte) (poison : List Bool) (mask : List Bool)
  /-- MS_ADD_BF16 (R317). -/
  | msAddBf16 (a : BitVec 52) (src : BitVec 16) (part : Option (Fin 16)) (data : List Byte) (poison : List Bool) (mask : List Bool)
  /-- MS_ADD_INT32 (R317). -/
  | msAddInt32 (a : BitVec 52) (src : BitVec 16) (part : Option (Fin 16)) (data : List Byte) (poison : List Bool) (mask : List Bool)
  /-- MS_ADD_INT64 (R317). -/
  | msAddInt64 (a : BitVec 52) (src : BitVec 16) (part : Option (Fin 16)) (data : List Byte) (poison : List Bool) (mask : List Bool)
  /-- MS_MAX_FP32 (R317). -/
  | msMaxFp32 (a : BitVec 52) (src : BitVec 16) (part : Option (Fin 16)) (data : List Byte) (poison : List Bool) (mask : List Bool)
  /-- MS_MIN_FP32 (R317). -/
  | msMinFp32 (a : BitVec 52) (src : BitVec 16) (part : Option (Fin 16)) (data : List Byte) (poison : List Bool) (mask : List Bool)
  /-- MS_MAX_BF16 (R317). -/
  | msMaxBf16 (a : BitVec 52) (src : BitVec 16) (part : Option (Fin 16)) (data : List Byte) (poison : List Bool) (mask : List Bool)
  /-- MS_MIN_BF16 (R317). -/
  | msMinBf16 (a : BitVec 52) (src : BitVec 16) (part : Option (Fin 16)) (data : List Byte) (poison : List Bool) (mask : List Bool)
  /-- MS_MAX_INT32 (R317). -/
  | msMaxInt32 (a : BitVec 52) (src : BitVec 16) (part : Option (Fin 16)) (data : List Byte) (poison : List Bool) (mask : List Bool)
  /-- MS_MIN_INT32 (R317). -/
  | msMinInt32 (a : BitVec 52) (src : BitVec 16) (part : Option (Fin 16)) (data : List Byte) (poison : List Bool) (mask : List Bool)
  /-- MS_MAX_INT64 (R317). -/
  | msMaxInt64 (a : BitVec 52) (src : BitVec 16) (part : Option (Fin 16)) (data : List Byte) (poison : List Bool) (mask : List Bool)
  /-- MS_MIN_INT64 (R317). -/
  | msMinInt64 (a : BitVec 52) (src : BitVec 16) (part : Option (Fin 16)) (data : List Byte) (poison : List Bool) (mask : List Bool)
  /-- MS_RESERVED_OP (R316). -/
  | msReservedOp (code : BitVec 4) (a : BitVec 52) (src : BitVec 16) (part : Option (Fin 16))
  /-- REFRESH (R308). -/
  | refresh (k : Fin 12)
  /-- SCRUB_STEP (R360). -/
  | scrubStep (n : Fin 80)
  /-- SCRUB_LAP_OVERDUE (R361). -/
  | scrubLapOverdue (n : Fin 80)
  /-- STACK_TEMP_READING (R328). -/
  | stackTempReading (k : Fin 12) (temp : BitVec 8)
  /-- STACK_COOL_EXPIRY (R331). -/
  | stackCoolExpiry (k : Fin 12)
  /-- RETRAIN_DUE_AGE (R321). -/
  | retrainDueAge (k : Fin 12) (ch : Fin 16)
  /-- SCHEDULED_RETRAIN_END (R321). -/
  | scheduledRetrainEnd (k : Fin 12) (ch : Fin 16) (lost : BitVec 2) (converged : Bool)
  /-- EMERGENCY_RETRAIN_START (R323). -/
  | emergencyRetrainStart (k : Fin 12) (ch : Fin 16)
  /-- EMERGENCY_RETRAIN_END (R323). -/
  | emergencyRetrainEnd (k : Fin 12) (ch : Fin 16) (lost : BitVec 2) (converged : Bool)
  /-- CHANNEL_MAP_OUT (R326). -/
  | channelMapOut (k : Fin 12)
  /-- POISON_FILL_DONE (R326). -/
  | poisonFillDone (k : Fin 12)
  /-- REGION_ZERO_DONE (R345). -/
  | regionZeroDone (n : Fin 80) (i : Fin 128)
  /-- RETIRE_GO (R362). -/
  | retireGo (f : Func) (n : Fin 80) (index : BitVec 16) (bank : Bool)
  /-- CAP_BANK_COPY (R362). -/
  | capBankCopy (b : Fin 64) (i : Fin 32)
  /-- CAP_BANK_COPY_DONE (R362). -/
  | capBankCopyDone (b : Fin 64) (i : Fin 32)
  /-- INJECT_GO (R502). -/
  | injectGo (f : Func) (n : Fin 80) (offset : BitVec 37) (kind : BitVec 2) (store : Bool)
  /-- INJECT_APPLY (R502). -/
  | injectApply (n : Fin 80)
  /-- DRAIN_QUEUED_START (R407). -/
  | drainQueuedStart (p : Fin 4) (q : Fin 16)
  /-- DRAIN_COMPLETE (R413). -/
  | drainComplete (p : Fin 4) (q : Fin 16)
  /-- WAYBILL_SIGNED (R414). -/
  | waybillSigned
  /-- RESTORE_GO (R426). -/
  | restoreGo (f : Func) (p : Fin 4) (q : Fin 16) (order : BitVec 52)
  /-- RESTORE_COMPLETE (R428). -/
  | restoreComplete (p : Fin 4) (q : Fin 16)
  /-- QUOTE_GO (R465). -/
  | quoteGo (f : Func) (buf : BitVec 52)
  /-- QUOTE_DONE (R466). -/
  | quoteDone
  /-- REPAIR_RECORD_WRITE (R464). -/
  | repairRecordWrite
  /-- REPAIR_RECORD_DONE (R464). -/
  | repairRecordDone
  /-- STREAM_RUN (R77). -/
  | streamRun (f : Func) (b : Fin 64) (i : Fin 3) (start : W32)
  /-- STREAM_HALT (R77). -/
  | streamHalt (f : Func) (b : Fin 64) (i : Fin 3) (start : W32)
  /-- TOKEN_SET (R86). -/
  | tokenSet (f : Func) (b : Fin 64) (mask : W64)
  /-- TOKEN_CLEAR (R86). -/
  | tokenClear (f : Func) (b : Fin 64) (mask : W64)
  /-- PERM_OOR_CLEAR (R76). -/
  | permOorClear (f : Func) (b : Fin 64) (i : Fin 3)
  /-- HOST_CONFIG_WRITE (R94). -/
  | hostConfigWrite (f : Func) (b : Fin 64) (i : Fin 3) (g : Fin 8) (fi : Fin 3) (v : W64)
  /-- HOST_DESCRIPTOR_WRITE (R95). -/
  | hostDescriptorWrite (f : Func) (b : Fin 64) (i : Fin 3) (slot : Fin 256) (wi : Fin 8) (v : W64)
  /-- QCNT_CLEAR (R162). -/
  | qcntClear (f : Func) (b : Fin 64)
  /-- MX_COUNTER_CLEAR (R201). -/
  | mxCounterClear (f : Func) (b : Fin 64)
  /-- VEC_COUNTER_CLEAR (R230). -/
  | vecCounterClear (f : Func) (b : Fin 64)
  /-- PTS_COUNTER_CLEAR (R273). -/
  | ptsCounterClear (f : Func) (p : Fin 4)
  /-- UPD_COUNTER_CLEAR (R300). -/
  | updCounterClear (f : Func) (p : Fin 4)
  /-- HBM_COUNTER_CLEAR (R335). -/
  | hbmCounterClear (f : Func) (k : Fin 12)
  /-- ECC_COUNTER_CLEAR (R364). -/
  | eccCounterClear (f : Func) (n : Fin 80)
  /-- ECC_LOG_CLEAR (R364). -/
  | eccLogClear (f : Func) (n : Fin 80)
  /-- LNK_COUNTER_CLEAR (R402). -/
  | lnkCounterClear (f : Func) (l : Fin 32)
  /-- PWR_COUNTER_CLEAR (R496). -/
  | pwrCounterClear (f : Func)
  /-- WB_COUNTER_CLEAR (R430). -/
  | wbCounterClear (f : Func) (p : Fin 4)
  /-- HOLE_CLR (R37). -/
  | holeClr (f : Func)
  /-- TT_SYNC_WRITE (R72). -/
  | ttSyncWrite (f : Func) (v : W64)
  /-- PWR_CAP_WRITE (R67). -/
  | pwrCapWrite (f : Func) (v : W64)
  /-- HBM_REG_WRITE (R314). -/
  | hbmRegWrite (f : Func) (k : Fin 12) (q : Fin 16) (v : W64)
  /-- BOND_PART_WRITE (R434). -/
  | bondPartWrite (f : Func) (q : Fin 16) (wi : Fin 2) (v : W64)
  /-- BOND_SEG_WRITE (R436). -/
  | bondSegWrite (f : Func) (q : Fin 16) (i : Fin 32) (wi : Fin 2) (v : W64)
  /-- SEGMENT_ZERO_DONE (R436). -/
  | segmentZeroDone (q : Fin 16) (i : Fin 32)
  /-- BOND_PLAT_WRITE (R441). -/
  | bondPlatWrite (f : Func) (q : Fin 16) (wi : Fin 4) (v : W64)
  /-- BOND_HWIN_WRITE (R438). -/
  | bondHwinWrite (f : Func) (p : Fin 4) (i : Fin 64) (v : W64)
  /-- BOND_PORT_WRITE (R450). -/
  | bondPortWrite (f : Func) (p : Fin 4) (v : W64)
  /-- UPD_WB_WRITE (R430). -/
  | updWbWrite (f : Func) (p : Fin 4) (q : Fin 16) (v : W64)
  /-- REPAIR_CLEAR (R475). -/
  | repairClear (f : Func)
  /-- REGISTER_WRITE (R15). -/
  | registerWrite (f : Func) (o : W32) (v : W64)
  /-- BAR0_ACCESS (R433): a read, or a write of `data` with its EP (R349). -/
  | bar0Access (f : Func) (o : W32) (data : Option (W64 × Bool))
  /-- BAR2_ACCESS (R437). -/
  | bar2Access (f : Func) (o : W64) (n : Nat) (data : Option (List Byte)) (ep : Bool)
  /-- CONFIG_REQUEST (R452). -/
  | configRequest (f : Func) (c : CfgReq)
  /-- FUNCTION_LEVEL_RESET (R440). -/
  | functionLevelReset (f : Func)
  /-- PERST (R494). -/
  | perst (port : Fin 4) (low : Bool)
  /-- ENTDAA (R469). -/
  | entdaa (chainIn : Bool) (da : BitVec 7)
  /-- RSTDAA (R469). -/
  | rstdaa
  /-- SETNEWDA (R468). -/
  | setnewda (da : BitVec 7)
  /-- GETPID (R468). -/
  | getpid
  /-- GETBCR (R468). -/
  | getbcr
  /-- GETDCR (R468). -/
  | getdcr
  /-- GETSTATUS (R468). -/
  | getstatus
  /-- GETMWL (R468). -/
  | getmwl
  /-- GETMRL (R468). -/
  | getmrl
  /-- ENEC (R468). -/
  | enec (intr : Bool)
  /-- DISEC (R468). -/
  | disec (intr : Bool)
  /-- I3C_READ (R470). -/
  | i3cRead (a : W64) (words : Nat)
  /-- I3C_WRITE (R470). -/
  | i3cWrite (a : W64) (ws : List W64)
  /-- I3C_QUOTE (R470). -/
  | i3cQuote (nonce : List Byte)
  /-- FERASE (R470). -/
  | ferase (o : W32)
  /-- FPROG (R470). -/
  | fprog (o : W32) (data : List Byte)
  /-- I3C_PRIVATE_READ (R470). -/
  | i3cPrivateRead
  /-- VIN_RISE (R493). -/
  | vinRise
  /-- PWR_EN_RISE (R493). -/
  | pwrEnRise
  /-- POWER_GOOD (R493). -/
  | powerGood
  /-- PWR_EN_FALL (R495). -/
  | pwrEnFall
  /-- RESET_N (R494). -/
  | resetN (low : Bool)
  /-- ROM_DONE (R454). -/
  | romDone (sig0 : Bool) (sig1 : Bool)
  /-- IMAGES_DONE (R456). -/
  | imagesDone (puf : Bool)
  /-- SELFTEST_DONE (R459). -/
  | selftestDone (found : Findings)
  /-- PUBLISHED (R472). -/
  | published
  /-- VIN_SAMPLE (R477). -/
  | vinSample (mv : Nat)
  /-- VIN_CAUTION (R477). -/
  | vinCaution
  /-- VIN_RIDE_EXPIRY (R477). -/
  | vinRideExpiry
  /-- PROTECTIVE_STOP (R478). -/
  | protectiveStop
  /-- SHAPER_TICK (R479). -/
  | shaperTick (work : Nat) (gated : Nat)
  /-- VOLTAGE_STEP (R482). -/
  | voltageStep (rail : Fin 9) (pass : Nat) (safe : Nat)
  /-- DROOP_EVENT (R483). -/
  | droopEvent (p : Fin 4) (bays : BitVec 16)
  /-- DIE_TEMP_READING (R485). -/
  | dieTempReading (temp : Nat)
  /-- DIE_COOL_EXPIRY (R485). -/
  | dieCoolExpiry
  /-- VIN_STABLE_EXPIRY (R477). -/
  | vinStableExpiry
  /-- LREF_EDGE (R40). -/
  | lrefEdge
  /-- PCIE_RETRAIN (R474). -/
  | pcieRetrain (port : Fin 4) (width : Nat) (rate : Nat)
  /-- PCIE_COMPLETION (R349). -/
  | pcieCompletion (port : Fin 4) (tag : Nat) (ep : Bool) (data : List Byte)
  /-- RAILS_OFF (R495). -/
  | railsOff
deriving DecidableEq, Repr

end Sys2Proof
end

