-- ==== Sys2Proof/Machine/Bits.lean ====
section
/-! DEFINITION. Bit fields, sign extension, byte order, saturating counters and the sparse tables that the model's
state is made of. -/

namespace Sys2Proof.Machine

/-- The `len` bits of `w` from bit `lo` upward, as a number. -/
def fld (w lo len : Nat) : Nat := (w >>> lo) % 2 ^ len

/-- Bit `i` of `w`. -/
def bit (w i : Nat) : Bool := w.testBit i

/-- `w` with its `len` bits from bit `lo` replaced by those of `v`. -/
def setFld (w lo len v : Nat) : Nat :=
  w - (fld w lo len) <<< lo + (v % 2 ^ len) <<< lo

/-- A flag as a number. -/
def b2n (b : Bool) : Nat := if b then 1 else 0

/-- The `n`-bit two's-complement reading of `w`. -/
def sx (n w : Nat) : Int :=
  let v := w % 2 ^ n
  if v < 2 ^ (n - 1) then (v : Int) else (v : Int) - (2 ^ n : Nat)

/-- The `n`-bit two's-complement code of an integer. -/
def unsx (n : Nat) (i : Int) : Nat := (i % ((2 ^ n : Nat) : Int)).toNat

/-- A 32-bit counter that saturates at 0xFFFF_FFFF (R335, R364). -/
def satAdd (c : W32) (n : Nat) : W32 := BitVec.ofNat 32 (min (c.toNat + n) 0xFFFFFFFF)

/-- The number a little-endian list of bytes spells. -/
def ofBytes : List Nat → Nat
  | [] => 0
  | b :: bs => b % 256 + 256 * ofBytes bs

/-- The `n` little-endian bytes of a number. -/
def toBytes : Nat → Nat → List Nat
  | 0, _ => []
  | n + 1, v => v % 256 :: toBytes n (v / 256)

/-- `⌈a / b⌉`. -/
def ceilDiv (a b : Nat) : Nat := (a + b - 1) / b

/-- The numbers `0, 1, …, n - 1`. -/
def upTo (n : Nat) : List Nat := List.range n

/-- The numbers whose bits are set in a mask of `n` bits, ascending. -/
def maskBits (n m : Nat) : List Nat := (List.range n).filter (fun i => m.testBit i)

/-- Set bit `i` of a mask. -/
def setBit (m i : Nat) : Nat := m ||| 2 ^ i

/-- Clear bit `i` of a mask. -/
def clrBit (m i : Nat) : Nat := if m.testBit i then m - 2 ^ i else m

/-- How many of the low `n` bits of a mask are set. -/
def popCount (n m : Nat) : Nat := (maskBits n m).length

/-- XOR of the low `n` bits. -/
def parity (n m : Nat) : Bool := (popCount n m) % 2 == 1

/-- Insert a key and value into a list in ascending order of keys. -/
def tabInsert {α : Type} (k : Nat) (v : α) : List (Nat × α) → List (Nat × α)
  | [] => [(k, v)]
  | (j, w) :: rest => if k < j then (k, v) :: (j, w) :: rest else (j, w) :: tabInsert k v rest

/-- The value a sparse table holds at a key: the listed one, or the default. -/
def tabGet {α : Type} (d : α) (t : List (Nat × α)) (k : Nat) : α :=
  match t with
  | [] => d
  | (j, v) :: rest => if j = k then v else tabGet d rest k

/-- A sparse table with one key's value changed; a value equal to the default is not listed. -/
def tabSet {α : Type} [DecidableEq α] (d : α) (t : List (Nat × α)) (k : Nat) (v : α) : List (Nat × α) :=
  let t' := t.filter (fun e => e.1 != k)
  if v = d then t' else tabInsert k v t'

/-- A sparse table with every key for which `p` holds back at the default. -/
def tabDrop {α : Type} (t : List (Nat × α)) (p : Nat → Bool) : List (Nat × α) := t.filter (fun e => !(p e.1))

/-- Insert a key into an ascending list without repeats. -/
def setInsert (k : Nat) : List Nat → List Nat
  | [] => [k]
  | j :: rest => if k < j then k :: j :: rest else if k = j then j :: rest else j :: setInsert k rest

/-- A set of keys with `k` put in or taken out. -/
def setPut (s : List Nat) (k : Nat) (b : Bool) : List Nat :=
  if b then setInsert k s else s.filter (· != k)

/-- Read an entry of a fixed-size file by number; a number beyond the file reads the default. -/
def vget {α : Type} {n : Nat} (d : α) (v : Vector α n) (i : Nat) : α := v.toList.getD i d

/-- Change an entry of a fixed-size file by number; a number beyond the file changes nothing. -/
def vmod {α : Type} {n : Nat} (v : Vector α n) (i : Nat) (f : α → α) : Vector α n :=
  Vector.ofFn (fun j : Fin n => if j.val = i then f v[j] else v[j])

/-- Whether an optional number is absent or satisfies a test. -/
def optAll (o : Option Nat) (p : Nat → Bool) : Bool :=
  match o with
  | none => true
  | some n => p n

/-- Fold a state transformer over a list of items. -/
def foldAll {α σ : Type} (xs : List α) (f : α → σ → σ) (s : σ) : σ := xs.foldl (fun s x => f x s) s

/-- Little-endian 32-bit parts of an FP32 or integer value are kept as numbers; this makes a 32-bit word. -/
def w32 (n : Nat) : W32 := BitVec.ofNat 32 n

/-- A 64-bit word. -/
def w64 (n : Nat) : W64 := BitVec.ofNat 64 n

end Sys2Proof.Machine
end

