-- ==== Sys2Proof/Machine/Codes.lean ====
section
/-! DEFINITION. The check codes: the 13-bit byte words of SRAM and cap (R337 to R340), the sector code of HBM (R341 to
R344), CRC-32C (R355) and the packet check. -/

namespace Sys2Proof.Machine

/-- How a stored word or sector reads (R339, R340, R343). -/
inductive ReadState where
  | good
  | poisoned
  | corrected (sym : Nat)
  | uncorrectable
deriving DecidableEq, Repr

/-- The check-bit column of each data bit (R338). -/
def strongColumn (i : Nat) : Nat := [0b0011, 0b0101, 0b0110, 0b1001, 0b1010, 0b1100, 0b0111, 0b1011].getD i 0

/-- The four check bits c0 to c3 of a data byte. -/
def strongChecks (d : Nat) : Nat :=
  (maskBits 8 d).foldl (fun c i => c ^^^ strongColumn i) 0

/-- The 13-bit strong word of a data byte (R338). -/
def strongEncode (d : Nat) : Nat :=
  let c := strongChecks d
  d % 256 + c * 256 + (b2n (xor (parity 8 d) (parity 4 c))) * 4096

/-- The strong and the light poison words (R338, R340). -/
def strongPoison : Nat := 0x1F00
def lightPoison : Nat := 0x1100

/-- Read a strong word (R339). -/
def strongDecode (w : Nat) : Nat × ReadState :=
  let d := w % 256
  if popCount 13 (w ^^^ strongPoison) ≤ 1 then (0, .poisoned)
  else if w = strongEncode d then (d, .good)
  else
    let s := strongChecks d ^^^ fld w 8 4
    if parity 13 w then
      if s = 0 ∨ s = 1 ∨ s = 2 ∨ s = 4 ∨ s = 8 then (d, .corrected 0)
      else
        match (List.range 8).filter (fun i => strongColumn i = s) with
        | i :: _ => (d ^^^ 2 ^ i, .corrected 0)
        | [] => (0, .uncorrectable)
    else (0, .uncorrectable)

/-- The light word of a data byte (R340). -/
def lightEncode (d : Nat) : Nat := d % 256 + (b2n (parity 8 d)) * 256

/-- Read a light word (R340). -/
def lightDecode (w : Nat) : Nat × ReadState :=
  if bit w 12 then (0, .poisoned)
  else if parity 8 w == bit w 8 then (w % 256, .good)
  else (0, .uncorrectable)

/-- Multiplication by α in GF(2⁸) with polynomial 0x11D (R342). -/
def gfTimesAlpha (x : Nat) : Nat := if x ≥ 128 then (2 * x) ^^^ 0x11D else 2 * x

/-- Multiplication in GF(2⁸). -/
def gfMul (x y : Nat) : Nat :=
  ((List.range 8).foldl (fun (st : Nat × Nat) i =>
    (if bit y i then st.1 ^^^ st.2 else st.1, gfTimesAlpha st.2)) (0, x)).1

/-- α to a power. -/
def gfPow : Nat → Nat
  | 0 => 1
  | n + 1 => gfTimesAlpha (gfPow n)

/-- The generator's coefficients of x², x¹ and x⁰: (x - 1)(x - α)(x - α²). -/
def rsG2 : Nat := 1 ^^^ gfPow 1 ^^^ gfPow 2
def rsG1 : Nat := gfPow 1 ^^^ gfPow 2 ^^^ gfPow 3
def rsG0 : Nat := gfPow 3

/-- The three check symbols of a message, highest degree first (R342). -/
def rsCheck (msg : List Nat) : Nat × Nat × Nat :=
  msg.foldl (fun (r : Nat × Nat × Nat) m =>
    let f := m ^^^ r.1
    (r.2.1 ^^^ gfMul f rsG2, r.2.2 ^^^ gfMul f rsG1, gfMul f rsG0)) (0, 0, 0)

/-- A syndrome of a received word, highest degree first: its value at `a`. -/
def rsEval (a : Nat) (w : List Nat) : Nat := w.foldl (fun r m => gfMul r a ^^^ m) 0

/-- Check and correct a received word of 36 symbols: the word, and the position from the front of a corrected symbol. -/
def rsDecode (w : List Nat) : Option (List Nat × Option Nat) :=
  let s0 := rsEval 1 w
  let s1 := rsEval 2 w
  let s2 := rsEval 4 w
  if s0 = 0 ∧ s1 = 0 ∧ s2 = 0 then some (w, none)
  else
    match (List.range w.length).filter (fun i => s0 ≠ 0 ∧ gfMul s0 (gfPow i) = s1 ∧ gfMul s1 (gfPow i) = s2) with
    | i :: _ =>
      let p := w.length - 1 - i
      some (w.set p (w.getD p 0 ^^^ s0), some p)
    | [] => none

/-- CRC-16 with polynomial 0x1021 from 0xFFFF, not reflected (R342). -/
def crc16 (bs : List Nat) : Nat :=
  bs.foldl (fun r b =>
    (List.range 8).foldl (fun r i =>
      let top := xor (bit r 15) (bit b (7 - i))
      (2 * r % 0x10000) ^^^ (if top then 0x1021 else 0)) r) 0xFFFF

/-- The chain bytes and the form byte of a sector (R341, R343): each poisoned byte names the next one above it. -/
def sectorForm (data : List Nat) (poison : List Bool) : List Nat × Nat :=
  let ps := (List.range 32).filter (fun i => poison.getD i false)
  let next (i : Nat) : Nat := ((ps.filter (fun j => j > i)).head?).getD 0
  ((List.range 32).map (fun i => if poison.getD i false then 0xC0 ||| next i else data.getD i 0 % 256),
   match ps with
   | [] => 0x00
   | p :: _ => 0x80 ||| p)

/-- Follow the poison chain of a sector from position `p`; none when a chain byte is not valid (R343). -/
def chainFrom (data : List Nat) : Nat → Nat → Option (List Nat)
  | 0, _ => none
  | fuel + 1, p =>
    let c := data.getD p 0
    let n := c % 64
    if c / 64 ≠ 3 ∨ 32 ≤ n then none
    else if n = 0 then some [p]
    else if n ≤ p then none
    else (chainFrom data fuel n).map (p :: ·)

/-- Read the form byte and chain of a checked sector: its data with 0 in the poisoned places, and its poison bits. -/
def sectorUnform (data : List Nat) (f : Nat) : Option (List Nat × List Bool) :=
  if f = 0 then some (data, List.replicate 32 false)
  else if f / 32 ≠ 4 then none
  else
    (chainFrom data 33 (f % 32)).map (fun ps =>
      ((List.range 32).map (fun i => if ps.contains i then 0 else data.getD i 0),
       (List.range 32).map (fun i => ps.contains i)))

/-- The 32 side bits of a sector with stored data bytes `chain` and form byte `f`: the check symbols of x², x¹ and x⁰, or the
CRC-16 and a zero byte in a light region, and F in the top byte (R341, R342). -/
def sectorSide (light : Bool) (chain : List Nat) (f : Nat) : Nat :=
  if light then crc16 (chain ++ [f]) + f <<< 24
  else
    let (c2, c1, c0) := rsCheck (chain ++ [f])
    c2 + c1 <<< 8 + c0 <<< 16 + f <<< 24

/-- Read an HBM sector whose stored data bytes differ from the written ones by the masks in `errs` (R341 to R343, R502). -/
def sectorDecode (light : Bool) (data : List Nat) (poison : List Bool) (errs : List Nat) :
    (List Nat × List Bool) × ReadState :=
  let (chain, f) := sectorForm data poison
  let got := List.zipWith (fun c e => c ^^^ e) chain errs
  let side := sectorSide light chain f
  let form := fld side 24 8
  let bad := ((data, poison), ReadState.uncorrectable)
  if light then
    if fld side 0 16 = crc16 (got ++ [form]) then
      match sectorUnform got form with
      | some r => (r, .good)
      | none => bad
    else bad
  else
    match rsDecode (got ++ [form, fld side 0 8, fld side 8 8, fld side 16 8]) with
    | none => bad
    | some (w, p) =>
      match sectorUnform (w.take 32) (w.getD 32 0) with
      | none => bad
      | some r => (r, match p with | none => .good | some i => .corrected i)

/-- One byte of a reflected CRC-32C. -/
def crc32cByte (r b : Nat) : Nat :=
  (List.range 8).foldl (fun r _ => if r % 2 = 1 then (r / 2) ^^^ 0x82F63B78 else r / 2) (r ^^^ b % 256)

/-- CRC-32C: polynomial 0x1EDC6F41 reflected, initial value and final XOR of all ones (R355). -/
def crc32c (bs : List Nat) : Nat := bs.foldl crc32cByte 0xFFFFFFFF ^^^ 0xFFFFFFFF

end Sys2Proof.Machine
end

