-- ==== Sys2Proof/Config.lean ====
section
/-! DEFINITION. What an implementation fixes and the spec leaves open: free values and secrets, as constants without a
body, so that no proof can see what they are. Each names the log entry that explains it. -/

namespace Sys2Proof

/-- A free value: the `n`-th value that the spec leaves open, in the order the run meets them (DESIGN CHOICE, log entry 3). The step
supplies `n` from `Dev.free`. -/
opaque Config.freeValue : Nat → W64

/-- The coefficients c0 to c3 of a segment of a function-table revision, as FP32 codes (R234): revision, function number,
sign, binade, segment, index (DESIGN CHOICE, log entry 4). -/
opaque Config.fnCoef : Nat → Nat → Bool → Int → Nat → Nat → W32

/-- The signed exponent s of a segment (R234): revision, function number, sign, binade, segment (DESIGN CHOICE, log entry 4). -/
opaque Config.fnExp : Nat → Nat → Bool → Int → Nat → Int

/-- How many function-table revisions the flash image holds, 1 to 4 once clamped, and the revision numbers (R232; log
entry 4). -/
opaque Config.fnCount : Nat
opaque Config.fnRevision : Nat → Nat

/-- The SHA-512 digest of a function-table revision, as bytes (R231, R472; DESIGN CHOICE, log entry 4). -/
opaque Config.fnDigest : Nat → Nat → Byte

/-- Whether the n-th candidate of the identity derivation is prime (Miller-Rabin, R456; DESIGN CHOICE, log entry 5). -/
opaque Config.isPrime : Nat → Bool

/-- The bytes of the flash images at an offset of a bank, as shipped (DESIGN CHOICE, log entry 6). -/
opaque Config.flashByte : Nat → Byte

/-- The 32 KiB SRAM PUF response of this device after error correction, the candidate numbers NP and NQ of its helper data,
and the modulus that its device certificate names (R456, R458; DESIGN CHOICE, log entry 5). -/
opaque Config.pufByte : Nat → Byte
opaque Config.helperP : Nat
opaque Config.helperQ : Nat
opaque Config.certModulus : Nat

/-- The lengths and the bytes of the device certificate (0) and the CA certificate (1) (R458; DESIGN CHOICE, log entry 5). -/
opaque Config.certLength : Nat → Nat
opaque Config.certByte : Nat → Nat → Byte

/-- The digest of the boot ROM, its revision, and Crifoler's MIPI manufacturer ID (R467, R468, R473; DESIGN CHOICE, log entry 6). -/
opaque Config.romDigest : Nat → Byte
opaque Config.romRevision : Nat
opaque Config.manufacturerId : Nat

/-- The defaults that the configuration image gives: VFS of each port, PMD of each link, LAPMAX of each integrity block
(R455; DESIGN CHOICE, log entry 6). -/
opaque Config.imageVfs : Nat → Nat
opaque Config.imagePmd : Nat → Bool
opaque Config.imageLapmax : Nat → Nat

/-- The FP32 power figures of the configuration image: index 0 the base power, index c the power of one instance of
resource code c at full claim (R54, R473; DESIGN CHOICE, log entry 9). -/
opaque Config.powerFigure : Nat → W32

end Sys2Proof
end

