-- ==== Sys2Proof/Machine/Num.lean ====
section
/-! DEFINITION. Exact numbers: the values that element codes stand for, with exact sums and products. Rounding is in
Formats.lean. -/

namespace Sys2Proof.Machine

/-- The value of one element: not a number, an infinity, or ±man × 2^exp exactly. Zero is man = 0 and keeps its sign. -/
inductive Val where
  | nan
  | inf (neg : Bool)
  | fin (neg : Bool) (man : Nat) (exp : Int)
deriving DecidableEq, Repr

/-- A value as it travels inside a bay, with its poison bit (R349). -/
structure Num where
  val : Val
  poison : Bool
deriving DecidableEq, Repr

/-- Positive zero, good. -/
def Num.zero : Num := { val := .fin false 0 0, poison := false }

end Sys2Proof.Machine
end

