-- ==== Sys2Proof/Machine/Reg.lean ====
section
/-! DEFINITION. The device's registers by name, and the address map from control-space addresses to them (R33, R71,
R76, R162, R201, R230, R273, R300, R335, R364, R402, R430, R450, R475, R496). -/

namespace Sys2Proof.Machine

/-- Which memory an integrity block guards (R364): an HBM stack, a bay's cap tile and store, or a yard. -/
inductive IntegBlock where
  | stack (s : Nat)
  | bay (b : Nat)
  | yard (p : Nat)
deriving DecidableEq, Repr

/-- The registers of one integrity block (R364). -/
inductive IntegReg where
  | eccnt0 | eccnt1 | scrub | code0 | code1 | retire | inject | eclr
  | log (n w : Nat)
deriving DecidableEq, Repr

/-- Every register of the device. -/
inductive Reg where
  | holeStatus
  | ltime | sync | step | shift | pwrNeed | epoch
  | timeDelay (l : Nat)
  | sqCtl (b s : Nat) | sqBase (b s : Nat) | sqStatus (b s : Nat) | sqOcc (b s : Nat) | sqLc (b s n : Nat)
  | vecStatus (b s : Nat)
  | cfg (b s g f : Nat)
  | tokens (b : Nat) | tokSet (b : Nat) | tokClr (b : Nat) | tokVoid (b : Nat)
  | desc (b s slot w : Nat)
  | qCnt (b n : Nat) | qClr (b : Nat)
  | mxRepair (b : Nat) | mxCnt (b n : Nat) | mxClr (b : Nat)
  | vecRepair (b n : Nat) | vecCnt (b n : Nat) | vecClr (b : Nat)
  | ptsCnt (p n : Nat) | ptsClr (p : Nat)
  | updCtab (p : Nat) | updCnt (p n : Nat) | updClr (p : Nat)
  | updWb (p q : Nat) | updRst (p q : Nat) | wbCnt (p : Nat) | wbClr (p : Nat)
  | hbmStatus (s : Nat) | hbmLanes (s : Nat) | hbmRetrain (s : Nat) | hbmTherm (s : Nat) | hbmCnt (s n : Nat)
  | hbmClr (s : Nat) | hbmReg (s q : Nat)
  | integ (k : IntegBlock) (r : IntegReg)
  | lnkStatus (l : Nat) | lnkCtl (l : Nat) | lnkPmap (l : Nat) | lnkPmapEn (l : Nat) | lnkCnt (l n : Nat)
  | lnkClr (l : Nat)
  | fabAddr | cwd | route (a : Nat)
  | bondPart (q w : Nat) | bondSeg (q n w : Nat) | bondPlat (q r : Nat) | bondPort (v : Nat) | bondHwin (v i : Nat)
  | bondBoot | bondQuote | bondRepair | bondI3c
  | pwrCap | pwrSlew | pwrVfloor | pwrStatus | pwrCnt (n : Nat) | pwrClr
deriving DecidableEq, Repr

/-- How many fields configuration group `g` has (R92). -/
def cfgFields (g : Nat) : Nat :=
  match g with
  | 0 => 1 | 1 => 3 | 2 => 1 | 3 => 3 | 4 => 1 | 5 => 2 | 6 => 1 | 7 => 3
  | _ => 0

/-- The register at offset `o` of an integrity block, if any (R364). -/
def integRegAt (o : Nat) : Option IntegReg :=
  if o = 0x00 then some .eccnt0 else if o = 0x08 then some .eccnt1 else if o = 0x10 then some .scrub
  else if o = 0x18 then some .code0 else if o = 0x20 then some .code1 else if o = 0x28 then some .retire
  else if o = 0x30 then some .inject else if o = 0x38 then some .eclr
  else if 0x100 ≤ o ∧ o < 0x300 ∧ o % 8 = 0 then some (.log ((o - 0x100) / 16) ((o - 0x100) / 8 % 2))
  else none

/-- The register of a stream block at offset `o` (R76). -/
def streamRegAt (b s o : Nat) : Option Reg :=
  if o % 8 ≠ 0 then none
  else if o = 0x000 then some (.sqCtl b s) else if o = 0x008 then some (.sqBase b s)
  else if o = 0x010 then some (.sqStatus b s) else if o = 0x018 then some (.sqOcc b s)
  else if 0x020 ≤ o ∧ o < 0x040 then some (.sqLc b s ((o - 0x020) / 8))
  else if o = 0x040 then some (.vecStatus b s)
  else if 0x100 ≤ o ∧ o < 0x300 ∧ (o - 0x100) % 0x40 / 8 < cfgFields ((o - 0x100) / 0x40) then
    some (.cfg b s ((o - 0x100) / 0x40) ((o - 0x100) % 0x40 / 8))
  else none

/-- The register of bay `b`'s block at offset `o` (R76, R162, R201, R230, R364). -/
def bayRegAt (b o : Nat) : Option Reg :=
  if o % 8 ≠ 0 then none
  else if o = 0x2000 then some (.qCnt b 0) else if o = 0x2008 then some (.qCnt b 1)
  else if o = 0x2010 then some (.qClr b)
  else if o = 0x2100 then some (.mxRepair b) else if o = 0x2108 then some (.mxCnt b 0)
  else if o = 0x2110 then some (.mxCnt b 1) else if o = 0x2118 then some (.mxCnt b 2)
  else if o = 0x2120 then some (.mxClr b)
  else if o = 0x2200 then some (.vecRepair b 0) else if o = 0x2208 then some (.vecRepair b 1)
  else if o = 0x2210 then some (.vecCnt b 0) else if o = 0x2218 then some (.vecCnt b 1)
  else if o = 0x2220 then some (.vecClr b)
  else if 0x2400 ≤ o ∧ o < 0x2700 then (integRegAt (o - 0x2400)).map (fun r => .integ (.bay b) r)
  else if o = 0x3000 then some (.tokens b) else if o = 0x3008 then some (.tokSet b)
  else if o = 0x3010 then some (.tokClr b) else if o = 0x3018 then some (.tokVoid b)
  else if 0x4000 ≤ o ∧ o < 0x7000 then streamRegAt b ((o - 0x4000) / 0x1000) (o % 0x1000)
  else if 0x10000 ≤ o ∧ o < 0x1C000 then
    some (.desc b ((o - 0x10000) / 0x4000) (o % 0x4000 / 64) (o % 64 / 8))
  else none

/-- The register of stack `s`'s registers at offset `o` (R335). -/
def stackRegAt (s o : Nat) : Option Reg :=
  if o = 0x000 then some (.hbmStatus s) else if o = 0x008 then some (.hbmLanes s)
  else if o = 0x010 then some (.hbmRetrain s) else if o = 0x018 then some (.hbmTherm s)
  else if 0x020 ≤ o ∧ o < 0x038 ∧ o % 8 = 0 then some (.hbmCnt s ((o - 0x020) / 8))
  else if o = 0x038 then some (.hbmClr s)
  else if 0x100 ≤ o ∧ o < 0x180 ∧ o % 8 = 0 then some (.hbmReg s ((o - 0x100) / 8))
  else if 0x200 ≤ o ∧ o < 0x500 then (integRegAt (o - 0x200)).map (fun r => .integ (.stack s) r)
  else none

/-- The register of pier `p`'s block at offset `o` (R273, R300, R335, R364, R430). -/
def pierRegAt (p o : Nat) : Option Reg :=
  if o % 8 ≠ 0 then none
  else if o = 0x5000 then some (.updCtab p)
  else if 0x5008 ≤ o ∧ o < 0x5028 then some (.updCnt p ((o - 0x5008) / 8))
  else if o = 0x5028 then some (.updClr p)
  else if 0x5100 ≤ o ∧ o < 0x5180 then some (.updWb p ((o - 0x5100) / 8))
  else if 0x5180 ≤ o ∧ o < 0x5200 then some (.updRst p ((o - 0x5180) / 8))
  else if o = 0x5200 then some (.wbCnt p) else if o = 0x5208 then some (.wbClr p)
  else if 0x6000 ≤ o ∧ o < 0x6018 then some (.ptsCnt p ((o - 0x6000) / 8))
  else if o = 0x6018 then some (.ptsClr p)
  else if 0x7000 ≤ o ∧ o < 0x7300 then (integRegAt (o - 0x7000)).map (fun r => .integ (.yard p) r)
  else if 0x8000 ≤ o ∧ o < 0xB000 then stackRegAt (3 * p + (o - 0x8000) / 0x1000) (o % 0x1000)
  else none

/-- The register of viaduct `v`'s block at offset `o` (R71, R402, R450). -/
def viaductRegAt (v o : Nat) : Option Reg :=
  if o % 8 ≠ 0 then none
  else if 0x100 ≤ o ∧ o < 0x140 then some (.timeDelay (8 * v + (o - 0x100) / 8))
  else if 0x1000 ≤ o ∧ o < 0x1800 then
    let l := 8 * v + (o - 0x1000) / 0x100
    let r := o % 0x100
    if r = 0x00 then some (.lnkStatus l) else if r = 0x08 then some (.lnkCtl l)
    else if r = 0x10 then some (.lnkPmap l) else if r = 0x18 then some (.lnkPmapEn l)
    else if 0x20 ≤ r ∧ r < 0x38 then some (.lnkCnt l ((r - 0x20) / 8))
    else if r = 0x38 then some (.lnkClr l) else none
  else if o = 0x2000 then some (.bondPort v)
  else if 0x4000 ≤ o ∧ o < 0x4200 then some (.bondHwin v ((o - 0x4000) / 8))
  else none

/-- The register of the signal-box block at address `a` (R37, R71, R402, R450, R475, R496). -/
def boxRegAt (a : Nat) : Option Reg :=
  if a % 8 ≠ 0 then none
  else if a = 0x100040 then some .holeStatus
  else if a = 0x100100 then some .ltime else if a = 0x100108 then some .sync
  else if a = 0x100110 then some .step else if a = 0x100118 then some .shift
  else if a = 0x100120 then some .pwrNeed else if a = 0x100128 then some .epoch
  else if a = 0x100200 then some .fabAddr else if a = 0x100208 then some .cwd
  else if a = 0x100300 then some .bondBoot else if a = 0x100308 then some .bondQuote
  else if a = 0x100310 then some .bondRepair else if a = 0x100318 then some .bondI3c
  else if a = 0x100400 then some .pwrCap else if a = 0x100408 then some .pwrSlew
  else if a = 0x100410 then some .pwrVfloor else if a = 0x100418 then some .pwrStatus
  else if a = 0x100420 then some (.pwrCnt 0) else if a = 0x100428 then some (.pwrCnt 1)
  else if a = 0x100430 then some .pwrClr
  else if 0x108000 ≤ a ∧ a < 0x110000 then some (.route ((a - 0x108000) / 8))
  else if 0x110000 ≤ a ∧ a < 0x110200 then some (.bondPlat ((a - 0x110000) / 0x20) (a % 0x20 / 8))
  else if 0x110400 ≤ a ∧ a < 0x110500 then some (.bondPart ((a - 0x110400) / 0x10) (a % 0x10 / 8))
  else if 0x111000 ≤ a ∧ a < 0x113000 then
    some (.bondSeg ((a - 0x111000) / 0x200) (a % 0x200 / 0x10) (a % 0x10 / 8))
  else none

/-- The register at a control-space address, if that address names one (R33). -/
def regAt (a : Nat) : Option Reg :=
  if 0x100000 ≤ a ∧ a < 0x200000 then boxRegAt a
  else if 0x1000000 ≤ a ∧ a < 0x5000000 then viaductRegAt ((a - 0x1000000) / 0x1000000) (a % 0x1000000)
  else if 0x40000000 ≤ a ∧ a < 0x80000000 then pierRegAt ((a - 0x40000000) / 0x10000000) (a % 0x10000000)
  else if 0x80000000 ≤ a ∧ a < 0xC0000000 then bayRegAt ((a - 0x80000000) / 0x1000000) (a % 0x1000000)
  else none

end Sys2Proof.Machine
end

