-- ==== Sys2Proof/Machine/State.lean ====
section
/-! DEFINITION. Everything the Torvez 8200 holds between two commands, as plain data, and its value after reset. -/

namespace Sys2Proof.Machine

/-- Why the machine stops with a fault. None of the block's commands stops it: a hole reads as zero (R36) and a protective
stop is a state of the module (R478). -/
inductive Fault where
  /-- Raised by nothing; safe. -/
  | unreachable
deriving DecidableEq, Repr

/-- Why the machine refuses a command. -/
inductive Refusal where
  /-- Raised by the dispatch arm of a command that has no meaning yet; safe. -/
  | notModelled (mnemonic : String)
deriving DecidableEq, Repr

/-- Two 32-bit counters that share one register (R162, R201, R335, R364). -/
structure Pair32 where
  lo : W32
  hi : W32
deriving DecidableEq, Repr

def Pair32.zero : Pair32 := { lo := 0, hi := 0 }

/-! ### Records (R10 to R14) -/

/-- One event record (R11). -/
structure EvRec where
  cls : BitVec 8
  fault : Bool
  withdrawn : Bool
  poison : Bool
  lost : Bool
  source : BitVec 16
  part : BitVec 4
  stream : BitVec 2
  desc : BitVec 8
  seq : BitVec 16
  ltime : W64
  step : W64
  entry : W32
  iptr : W32
  addr : BitVec 52
  count : W64
  detail : BitVec 128
deriving DecidableEq, Repr

/-- An occurrence's name: partition, timetable generation, entry and step index. -/
structure OccKey where
  part : Nat
  gen : Nat
  entry : Nat
  k : Nat
deriving DecidableEq, Repr

/-- What an instruction or a job that cannot go on has waited for: the reads through peer and host windows whose answers have
arrived, by address and length (R381), and, unless it is 0, the line time at which a HARD regulator lets its requests through
(R313). -/
structure Await where
  got : List (Nat × Nat)
  due : Nat
deriving DecidableEq, Repr

def Await.none : Await := { got := [], due := 0 }

/-- Who makes an access or a write: its rank as an EV_SOURCE code (R37), its partition if it has one (R311), and the
PCIe function it acts as, if any (R432, R470). `flight` names the bay and the instruction in flight, or the job, that it works for, `await` what that has
waited for, and `serial` says that it asks for one thing after another, since what it asks for follows from what it has
read. -/
structure Req where
  src : Nat
  part : Option Nat
  func : Option Func
  occ : Option OccKey
  flight : Option (Nat × Nat) := none
  await : Await := Await.none
  serial : Bool := false
deriving DecidableEq, Repr

/-! ### Line time (R38 to R44) -/

/-- The states of the line-time unit (R41). -/
inductive Lock where
  | unlocked | acquiring | locked | holdover
deriving DecidableEq, Repr

/-- The line-time unit (R38 to R44, R71, R72). -/
structure TimeUnit where
  ltime : W64
  lock : Lock
  srcMode : Bool
  srcLink : BitVec 5
  slotLog2 : Nat
  root : Bool
  depth : BitVec 4
  offset : BitVec 16
  since : Option Nat
  epoch : W64
  epochSeen : Bool
  good : Nat
  edge : Nat
  newLog2 : Option Nat
deriving DecidableEq, Repr

/-- Reset of the line-time unit (R71). -/
def TimeUnit.reset : TimeUnit :=
  { ltime := 0, lock := .unlocked, srcMode := false, srcLink := 0, slotLog2 := 12, root := false, depth := 0,
    offset := 0, since := none, epoch := 0, epochSeen := false, good := 0, edge := 0, newLog2 := none }

/-! ### Timetables (R45 to R59, R498, R499) -/

/-- A timetable entry (R46). -/
structure TEntry where
  depart : Nat
  span : Nat
  stream : Nat
  early : Bool
  maint : Bool
  coll : Bool
  record : Bool
  quarter : Nat
  baymask : Nat
  array : Nat
  vector : Nat
  bstore : Nat
  capnear : Nat
  capfar : Nat
  fartile : Nat
  hbmshare : Nat
  hbmmask : Nat
  pathset : Nat
  mb : Nat
  updu : Nat
  ptsu : Nat
  tag : Nat
  rsvd : Bool
deriving DecidableEq, Repr

/-- A claim of a path set (R382). -/
structure PathClaim where
  link : Nat
  inbound : Bool
  share : Nat
deriving DecidableEq, Repr

/-- A path set as admission copied it (R382). -/
structure PathSet where
  index : Nat
  id : Nat
  algo : Nat
  carry : Nat
  n : Nat
  rank : Nat
  stat : Nat
  accdst : Bool
  members : List Nat
  claims : List PathClaim
deriving DecidableEq, Repr

/-- An installed or staged timetable (R45, R498). `shift0` is TT_SHIFT at its acceptance; `resume` is the slot of the timetable, without its shift, at
which it resumes after a TIME withdrawal (R58). -/
structure Timetable where
  gen : Nat
  addr : Nat
  root : Bool
  period : Nat
  base : Nat
  step0 : Nat
  steps : Nat
  shift0 : Nat
  entries : List TEntry
  paths : List PathSet
  notify : Nat
  noteBase : Nat
  resume : Option Nat
deriving DecidableEq, Repr

/-- A meter of a running occurrence (R56): resource code of R51, resource index, units left. -/
structure Meter where
  code : Nat
  index : Nat
  left : Nat
deriving DecidableEq, Repr

/-- One occurrence (R55, R87, R88). Bay masks are over the four bays of the entry's quarter. `depAt` is the line slot of its
departure boundary, noted when a HOLD ends that began after it (R70). `unlinked` says that a link took its promise: its path packets
go on without a claim (R385). `heard` is the last expected slot that a partner has sent for it, all ones as none, and the slot it was
heard in, both less the shift (R398, R399). -/
structure Occ where
  key : OccKey
  te : TEntry
  base : Nat
  period : Nat
  shift0 : Nat
  paths : Option PathSet
  ctoken : Option Nat
  bound : Nat
  closed : Nat
  reached : Bool
  delivered : Bool
  cancelled : Bool
  withdrawn : Bool
  expect : Option Nat
  start : Option Int
  depAt : Option Nat
  unlinked : Bool
  heard : Option (Option Nat × Nat)
  meters : List Meter
  emptied : Nat
deriving DecidableEq, Repr

/-- An INSTALL under admission (R443). -/
structure Install where
  header : Nat
  promises : Nat
  notify : Nat
  noteBase : Nat
  subid : Nat
  await : Await := Await.none
deriving DecidableEq, Repr

/-! ### Bays (R27, R73 to R114) -/

/-- Stream states (R75). -/
inductive SeqState where
  | idle | run | waitDepart | waitToken | waitUnit | held | faulted
deriving DecidableEq, Repr

/-- The configuration groups of one stream (R92). -/
structure Cfg where
  model : BitVec 52
  mode : BitVec 12
  codebook : BitVec 52
  cskip : BitVec 8
  vl : BitVec 7
  qhist : BitVec 52
  qlen : BitVec 5
  qamax : BitVec 52
  fnrev : BitVec 16
  rseed : W64
  rstream : W32
  sealchk : Bool
  experts : BitVec 10
  capacity : BitVec 24
  policy : BitVec 2
deriving DecidableEq, Repr

/-- The Reset column of R92. -/
def Cfg.reset : Cfg :=
  { model := 0, mode := 0x330, codebook := 0, cskip := 0, vl := 0x40, qhist := 0, qlen := 0x10, qamax := 0,
    fnrev := 0, rseed := 0, rstream := 0, sealchk := false, experts := 0, capacity := 0, policy := 0 }

/-- What a wait of a stream waits for: the tokens, whether it clears them (R84, R89), and for a DEPART its occurrence and
completion token. -/
structure Wait where
  mask : W64
  clear : Bool
  occ : Option OccKey
  ctoken : Nat
  word : W128
deriving DecidableEq, Repr

/-- A fetched 64-byte line of a program (R74). -/
structure FetchLine where
  addr : Nat
  bytes : List Byte
  poison : List Bool
deriving DecidableEq, Repr

/-- One bay stream (R73, R76). `base` is TT_SQ_BASE and `runBase` its value at the last RUN, from which the stream fetches;
`hostDesc` holds the host's pending writes of descriptor-table words, each with its poison; `descPoison` lists the poisoned bytes of its descriptor table as 64 × slot + byte. -/
structure Stream where
  base : BitVec 48
  runBase : BitVec 48
  startIptr : W32
  state : SeqState
  fclass : BitVec 8
  iptr : W32
  occ : Option OccKey
  lc : Vector W32 4
  permOor : Bool
  live : Cfg
  shadow : Cfg
  hostCfg : List (Nat × Nat × W64)
  desc : List (Nat × W512)
  hostDesc : List (Nat × Nat × W64 × Bool)
  descPoison : List Nat
  runPend : Bool
  haltPend : Bool
  afterHalt : Bool
  restart : Nat
  nextK : List (OccKey × Nat)
  wait : Option Wait
  resumeTo : SeqState
  stall : Bool
  clock : Option Nat
  fetch : List FetchLine
deriving DecidableEq, Repr

/-- A drain block (R185 to R188): its slot rows, moving rows, NCOL, its first slot row counted from reset, and for a closed
block the MMUL that closed it and how many slot rows have been written out. `taken` holds the results that the quantiser has taken
from it so far, moving row by moving row, with their poison, and `exp` the per-tensor exponent with which it began (R154, R187). -/
structure Block where
  stream : Nat
  rows : Nat
  m : Nat
  ncol : Nat
  base : Nat
  mode : BitVec 12
  flight : Nat
  written : Nat
  exp : Option Int
  taken : List (W32 × Bool)
deriving DecidableEq, Repr

/-- An instruction in flight (R80, R83): what it captured at issue. `begun` is false while it stands in its queue; `done`
says that its results are written; `amax` holds the amax update that it still has to send (R160): AMAX, DECODE, SAT, FLUSH,
NANC, INFC, and 1 when only AMAX and STEP are updated. `ctab` is the UPD_CTAB address of a UPD (R300); `ops` are the timing operands of
its command. `parked` says that it waits before it has its effect, for bytes from peers or hosts or for memory that serves no
request now (R321, R323, R381); `await` is what it has waited for. `book` holds the 32 bytes of a codebook captured at issue,
and which of them are poisoned (R83, R170, R171), `block` the drain block that an MMUL opened or continued at issue (R185). -/
structure Flight where
  id : Nat
  stream : Nat
  queue : Nat
  word : W128
  iptr : W32
  occ : Option OccKey
  part : Option Nat
  reads : Nat
  writes : Nat
  descs : List (Nat × W512)
  cfg : Cfg
  begun : Bool
  done : Bool
  step : W64
  amax : List Nat
  ctab : Nat
  ops : List Nat
  parked : Bool
  await : Await
  book : Option (List Byte × List Bool)
  block : Option Block
deriving DecidableEq, Repr

/-- The stationary operand of the array (R171, R182, R195). `weights` holds the scaled value of cell (k, n) at 128k + n,
a product table's activation in mode 1; `book` is the codebook of the product tables, so that table entry P[c] of a cell is
its activation times entry c; `index` holds the index of a cell in mode 2 and its poison. -/
structure Stationary where
  mode : BitVec 12
  weights : List (Nat × Num)
  book : List Num
  index : List (Nat × (Nat × Bool))
  poisoned : Bool
deriving DecidableEq, Repr

/-- One bay (R27). `tokWait` holds the host's token writes that arrived in a HOLD, a set (true) or a clear with its mask
(R62). -/
structure Bay where
  streams : Vector Stream 3
  tokens : W64
  void : W64
  voidClass : List (Nat × Nat)
  met : List Nat
  rsetIn : List Nat
  tokWait : List (Bool × W64)
  lastIssued : Nat
  flights : List Flight
  nextId : Nat
  tiles : List (Nat × W32)
  tilePoison : List Nat
  turntable : List (Nat × W32)
  turnPoison : List Nat
  array : Stationary
  staged : List (Nat × Stationary)
  loadMode : BitVec 12
  drain : List (Nat × W32)
  drainPoison : List Nat
  drainPtr : Nat
  openBlocks : Vector (Option Block) 3
  closed : List Block
  mxRepair : W64
  mxCnt : Vector Pair32 3
  vecRepair : Vector W64 2
  vecCnt : Vector Pair32 2
  qCnt : Vector Pair32 2
deriving DecidableEq, Repr

/-! ### Memory and integrity (R301 to R364) -/

/-- All of memory. `cells` lists the bytes that do not hold 0x00, `fills` the half-open ranges that a poison fill has left
poisoned (R326), `poison` the bytes whose poison bit differs from what `fills` says, `errs` the bits in which
the stored words differ from the codewords of their bytes (R502), and `backs` the bytes whose correction waits to be written back
(R347). Every list is ascending without repeats. -/
structure Memory where
  cells : List Host.Cell
  fills : List (Nat × Nat)
  poison : List Nat
  errs : List (Nat × Nat)
  backs : List Nat
deriving DecidableEq, Repr

/-- A log entry of an integrity block (R364). -/
structure LogEntry where
  valid : Bool
  addr : BitVec 52
  sym : BitVec 6
  count : BitVec 16
  last : W64
deriving DecidableEq, Repr

def LogEntry.empty : LogEntry := { valid := false, addr := 0, sym := 0, count := 0, last := 0 }

/-- An injection that waits for an idle cycle (R502). -/
structure Injection where
  addr : Nat
  kind : Nat
deriving DecidableEq, Repr

/-- One integrity block (R364) with its scrubber (R360, R361) and retirements (R362). -/
structure Integ where
  cnt0 : Pair32
  cnt1 : Pair32
  scrubEn : Bool
  lapMax : BitVec 8
  lastLap : W32
  code0 : W64
  code1 : W64
  retireIndex : BitVec 16
  retireBank : Bool
  injectReg : BitVec 40
  inject : Option Injection
  log : Vector LogEntry 32
  pages : List Nat
  pagePend : List Nat
  banks : List Nat
  bankPend : List Nat
  bankCopy : List Nat
  zeroing : List Nat
  scrubPos : Nat
  lapStart : Nat
  lapCorr : Nat
  lapUncorr : Nat
  lapSkip : Nat
  lapLate : Bool
deriving DecidableEq, Repr

/-- A partition's regulator on a stack (R313, R335): the bucket level is in units of 1/5 byte as of line time `at`. -/
structure Regulator where
  rate : BitVec 9
  burst : BitVec 7
  hard : Bool
  level : Nat
  time : Nat
deriving DecidableEq, Repr

/-- What the controller keeps for one channel (R320 to R325). -/
structure Channel where
  trainTemp : Nat
  trainTime : Nat
  started : Nat
  emergency : Bool
  trigger : Nat
  lastEnd : Option Nat
  corr : List Nat
  parity : List Nat
  reason : Nat
deriving DecidableEq, Repr

/-- Thermal states of a stack (R328). -/
inductive Therm where
  | normal | hot | critical
deriving DecidableEq, Repr

/-- One HBM stack and its controller (R308 to R336). `dies` lists what the memory dies or the interface will report at the next
burst of a sector: 1 a correction in a die, 2 an uncorrected die error, 3 a parity error that the retry mends, 4 one that it
does not (R322, R343; DESIGN CHOICE, log entry 63). -/
structure Stack where
  present : Bool
  inService : BitVec 16
  therm : Therm
  temp : BitVec 8
  training : BitVec 16
  failed : BitVec 16
  lanes : W64
  due : BitVec 16
  emerg : Bool
  drift : BitVec 8
  thresh : BitVec 16
  hotC : BitVec 8
  critC : BitVec 8
  cnt : Vector Pair32 3
  regs : Vector Regulator 16
  merge : List Nat
  chans : Vector Channel 16
  filling : Bool
  fillStart : Nat
  mapped : List Nat
  normalSince : Option Nat
  dies : List (Nat × Nat)
deriving DecidableEq, Repr

/-! ### Piers: points unit, update unit, hash engine -/

/-- A row record of a lazy shard (R276). -/
structure RowRec where
  row : Nat
  last : Nat
  cnt : Nat
deriving DecidableEq, Repr

/-- The update unit's running UPD and what its prologue found (R287 to R294): the shard's planes and blocks, its mask, the
line addresses, the flags and FP32 codes B1, A1, B2, A2, EPS, L2, eta, dw, gm, c1, c2, the lists of a lazy UPD, and whether a
brick that it loaded has failed its seal check. Phase 0 waits for its body, phase 1 for its epilogue. -/
structure UpdRun where
  bay : Nat
  flight : Nat
  phase : Nat
  planes : Nat
  blocks : Nat
  rows : Nat
  lmax : Nat
  mask : Nat
  up : Nat
  down : Nat
  flags : Nat
  coefs : List Nat
  listed : List Nat
  recs : List RowRec
  copied : List RowRec
  spoil : Bool
deriving DecidableEq, Repr

/-- A drain of the hash engine (R403 to R413): the occurrence and its entry, the table as captured, TT_STEP at departure,
PS_ID; then, per shard, the line copied with its LSTEP and address and the image digest, and the two records. `table` is empty until
the waybill table at `addr` has been captured. In phase 0 the first header is written, in 1 the records are copied, in 2 the next shard
is copied or, after the last, the manifest written, in 3 the LSTEP of the last shard is read again, in 4 the header with COMPLETE and
WB_LTIME `ltime` is written, which 5 has done. `await` is what its reads have waited for. -/
structure Drain where
  occ : OccKey
  te : TEntry
  addr : Nat
  table : List Nat
  step : Nat
  psid : Nat
  running : Bool
  phase : Nat
  lines : List (Nat × Nat × Nat)
  sizes : List Nat
  digests : List (List Nat)
  dpos : List Nat
  seeds : List Nat
  ltime : Nat
  await : Await
deriving DecidableEq, Repr

/-- A running restore (R425 to R428): its partition, order and map as captured, and the link its requests left on. Phase 0 reads
its order and its map and writes NONE, 1 awaits the head of the slot, 2 the images. `await` is what its reads have waited for. -/
structure Restore where
  part : Nat
  phase : Nat
  order : List Nat
  map : List (Nat × Nat)
  link : Option Nat
  await : Await
deriving DecidableEq, Repr

/-- One pier's shared units (R300, R273, R430). -/
structure Pier where
  present : Bool
  cores : BitVec 4
  ptsCnt : Vector Pair32 3
  ctab : BitVec 38
  updCnt : Vector Pair32 4
  upd : Option UpdRun
  wbTable : Vector (BitVec 44) 16
  wbEn : Vector Bool 16
  rstOrder : Vector (BitVec 44) 16
  rstState : Vector (BitVec 2) 16
  rstCause : Vector (BitVec 8) 16
  wbCnt : Pair32
  drains : List Drain
  restores : List Restore
deriving DecidableEq, Repr

/-! ### Links (R365 to R402) -/

/-- A request that left on a link or a port and awaits its response: its window address and length, whether the first half
of a long read has come, and who asked (R371, R381). `flight` names the bay and the instruction in flight it was made for, 64
plus the pier and the partition for a drain, 68 plus the pier and the partition for a restore, 72 for the signer, 78 and the
partition for an admission, and 79 and its number for a waiting job. -/
structure Outstanding where
  tag : Nat
  typ : Nat
  addr : Nat
  len : Nat
  half : Bool
  src : Nat
  flight : Option (Nat × Nat)
deriving DecidableEq, Repr

/-- Link states (R402). -/
inductive LinkState where
  | down | training | up
deriving DecidableEq, Repr

/-- One Ozrinen link (R365 to R374, R402). Credits are in 32-byte units. `blocked` are the packets that wait to be sent, in order of
arrival, and `turns` says which partition each virtual channel serves next, 16 for packets forwarded (R372); `unc` counts the
uncorrectable codewords of each quad since the link came up (R374). -/
structure Link where
  state : LinkState
  quads : BitVec 4
  myQuads : BitVec 4
  ver : BitVec 16
  far : BitVec 12
  farValid : Bool
  farLink : BitVec 5
  farQuads : BitVec 4
  capSeen : Bool
  farLo : BitVec 16
  farHi : BitVec 16
  en : Bool
  qmask : BitVec 4
  pmd : Bool
  pmap : W64
  pmapEn : BitVec 16
  cnt : Vector Pair32 3
  delay : W32
  asym : BitVec 16
  samples : BitVec 16
  offsets : List Int
  delays : List Int
  lastRx : W64
  lastTx : W64
  sendSeq : BitVec 16
  recvSeq : BitVec 16
  unacked : List Packet
  blocked : List Packet
  turns : Vector Nat 2
  unc : Vector Nat 4
  owed : Vector Nat 2
  sent : List Packet
  credits : Vector Nat 2
  replayed : Nat
  overSlots : Nat
  lastCaution : Option Nat
  nextTag : BitVec 16
  waiting : List Outstanding
deriving DecidableEq, Repr

/-- The fabric registers and the identities of notices seen (R376, R397, R402). -/
structure Fabric where
  addr : BitVec 12
  valid : Bool
  cwd : BitVec 16
  routes : List (Nat × Nat)
  srcLock : BitVec 2
  rootAddr : BitVec 12
deriving DecidableEq, Repr

/-- One hold identity (R61 to R64, R397). `late` says that its HOLD came after its pause slot had begun (R60, R64). -/
structure HoldId where
  init : Nat
  seq : Nat
  pause : Nat
  resume : Option Nat
  cause : Nat
  src : Nat
  late : Bool
deriving DecidableEq, Repr

/-- Why this device itself holds: stack critical, die hot, or supply (R60, R330, R477, R485). -/
inductive HoldCause where
  | stack (s : Nat)
  | thermal
  | supply
deriving DecidableEq, Repr

/-- HOLD of the domain (R61 to R64). `live` are the outstanding identities, `seen` the last 64 notices
(true: RESUME), `raised` waits for the next boundary, `own` are this device's own outstanding holds. -/
structure Hold where
  live : List HoldId
  seen : List (Bool × Nat × Nat)
  seq : BitVec 16
  raised : List HoldCause
  own : List (HoldCause × Nat)
  paused : Bool
  late : Bool
deriving DecidableEq, Repr

/-- A chunk that a collective expects from one member: its sender's rank, whether it carries final values, its byte range
in its stream, and the bytes that have arrived as offset and value, 256 more when poisoned (R391, R392, R400). -/
structure CollRecv where
  sender : Nat
  final : Bool
  chunk : Nat
  lo : Nat
  hi : Nat
  bytes : List (Nat × Nat)
  incl : Nat
  dropc : Nat
deriving DecidableEq, Repr

/-- A collective that bays have issued (R386 to R400): `issued` pairs bays with flights. `own` is this device's
contribution, FP32 codes by position for a reducing operation and else bytes; `todo` is what is still to come, `held` what
has come and waits, `fin` the final bytes by offset. `lastSlot` is the slot of the last arrival, less the shift (R399). `ending` holds
CAUSE and WHO of one that is abandoned and has not completed, and `await` what its reads have waited for. -/
structure Coll where
  occ : OccKey
  ps : PathSet
  seq : Nat
  op : Nat
  red : Nat
  peer : Nat
  issued : List (Nat × Nat)
  running : Bool
  spoil : Bool
  own : List Nat
  todo : List CollRecv
  held : List CollRecv
  fin : List (Nat × Nat)
  incl : Nat
  dropc : Nat
  dropped : Bool
  lastSlot : Nat
  ending : Option (Nat × Nat)
  await : Await
  step : W64
deriving DecidableEq, Repr

/-! ### Hosts and partitions (R431 to R450) -/

/-- A segment window (R436). -/
structure Seg where
  valid : Bool
  wr : Bool
  base : BitVec 31
  size : W32
deriving DecidableEq, Repr

def Seg.none : Seg := { valid := false, wr := false, base := 0, size := 0 }

/-- The device's copy of one ring's counts (R441, R448, R449). `known` is false from the time the ring is adopted until its
header has been read. -/
structure Ring where
  prod : W32
  cons : W32
  lost : Bool
  fresh : Bool
  known : Bool
deriving DecidableEq, Repr

def Ring.empty : Ring := { prod := 0, cons := 0, lost := false, fresh := false, known := true }

/-- One partition (R434 to R449, R498). -/
structure Part where
  quarters : BitVec 16
  hbms : BitVec 12
  en : Bool
  func : BitVec 5
  port : BitVec 2
  links : W32
  segs : Vector Seg 32
  rings : Vector (BitVec 46 × BitVec 4) 3
  platEn : Bool
  counts : Vector Ring 3
  installed : Option Timetable
  staged : Option Timetable
  install : Option Install
  withdraw : Bool
  resetPend : Option Nat
  replies : List (Nat × List Nat)
  occs : List Occ
  nextGen : Nat
  cleaning : BitVec 16
  cleanDone : BitVec 16
  zeroing : List Nat
  collSeq : List (Nat × Nat)
deriving DecidableEq, Repr

/-- One PCIe port (R431 to R438). -/
structure Port where
  vfs : BitVec 5
  vfEnable : Bool
  numVfs : BitVec 5
  width : Nat
  rate : Nat
  inReset : Bool
  hwin : List (Nat × Nat)
  waiting : List Outstanding
  nextTag : BitVec 10
deriving DecidableEq, Repr

/-! ### The signal box (R451 to R475) and power (R476 to R496) -/

/-- A job of the signal-box signer, in arrival order (R414, R465). Of a waybill `sent` says that WB_SIG has been written, and whether it
is still accepted. Of a quote `nonce` is the verifier's nonce with its poison, once read, and `sent` the job that writes the quote. -/
inductive SignJob where
  | waybill (pier : Nat) (part : Nat) (holder : Nat) (slot : Nat) (header : List Nat) (sent : Option Bool)
  | quote (buf : Option Nat) (nonce : Option (List Nat × List Bool)) (sent : Option Nat)
deriving DecidableEq, Repr

/-- What the next I3C private read returns (R470). -/
inductive I3cReply where
  | none
  | data (bytes : List Nat)
  | nack
deriving DecidableEq, Repr

/-- The signal box (R451 to R475). `tested` says that self-test has ended; `repInForce` is the body of the repair record in
force, bytes 1,024 to 16,383, empty when none is; `repSector` is the sector it stands in, 1 when none is. -/
structure Box where
  stage : BitVec 4
  tested : Bool
  error : BitVec 8
  dirCopy : Bool
  idState : BitVec 2
  pubMs : W32
  bootAt : W64
  quoteState : BitVec 2
  quoteBuf : BitVec 46
  repState : BitVec 2
  repPending : Bool
  repSeq : W32
  repWriting : Option (List Nat)
  repAgain : Bool
  repClear : Bool
  repInForce : List Nat
  repSector : Nat
  da : BitVec 7
  daValid : Bool
  chainIn : Bool
  chainOut : Bool
  ibiEn : Bool
  lastIbi : Option Nat
  ibis : List Nat
  reply : I3cReply
  holeCount : W32
  holePart : BitVec 4
  holeNoPart : Bool
  holeAddr : BitVec 24
deriving DecidableEq, Repr

/-- The bond table, the identity, the measurements and the flash (R454 to R474). `img` is the bond table's body as last
written, in 8-byte words; `meas` are the bytes of M0 to M7 as they stood at publication; `flash` lists the bytes that
have been written since manufacture; `bayCause` and `pierCause` hold the causes of R464. -/
structure Bond where
  gen : Nat
  ltime : Nat
  dirty : Bool
  img : List Nat
  devid : W64
  keyN : Nat
  keyD : Nat
  meas : List Nat
  bayCause : List (Nat × Nat)
  pierCause : List (Nat × Nat)
  bays : W64
  flash : List (Nat × Nat)
  held : List EvRec
  heldLost : Bool
  heldOpen : Bool
  signer : List SignJob
  pwrNeed : BitVec 16
  fnRevs : List Nat
deriving DecidableEq, Repr

/-- The power and thermal controller and the pins (R476 to R496). Times are line times; `draw`, `ballast` and `work` are in
0.1 W; rails 0 to 3 are the piers', 4 to 7 the viaducts' and 8 the signal box's; `limited` marks rails that safety holds
below the voltage floor; `droop` holds the droop cycles of bays in this slot. -/
structure Power where
  cap : BitVec 16
  slew : BitVec 12
  balen : Bool
  vfloor : BitVec 10
  vin : BitVec 16
  draw : Nat
  ballast : Nat
  work : Nat
  tdie : BitVec 8
  supply : BitVec 2
  cnt0 : Pair32
  cnt1 : Pair32
  standby : Bool
  pwrEn : Bool
  pwrGood : Bool
  resetN : Bool
  alertN : Bool
  thermtripN : Bool
  rails : Bool
  falling : Bool
  vinZone : Nat
  zoneSince : Nat
  lastVinCaution : Option Nat
  lastDrawCaution : Option Nat
  vinOkSince : Option Nat
  dieCoolSince : Option Nat
  volts : Vector Nat 9
  voltAt : Vector Nat 9
  limited : BitVec 9
  droop : List (Nat × Nat)
deriving DecidableEq, Repr

/-! ### The whole device -/

/-- A register write accepted for the next slot boundary. -/
structure PendWrite where
  reg : Reg
  val : W64
  req : Req
deriving DecidableEq, Repr

/-- Answers that the device has given to the outside world, newest first: MEMORY_READ results, PCIe completions and
requests, MSI-X signals. They are the model's own view of the pins (DESIGN CHOICE, log entry 7). -/
structure Answer where
  kind : Nat
  tag : Nat
  bytes : List Byte
  poison : List Bool
deriving DecidableEq, Repr

/-- A job that the device has taken on and that may have to wait: a request at the memory controllers, a host's or a peer's
request, the DELIVERY record of an occurrence (partition, entry, promised slot, line time, bitmap and note addresses; R445), the
reading of CONS of a ring, the inspection of a submission ring (R442), the adoption of a ring (R441), after a reset with
CONS set to PROD (R440), or the reading of a quote's nonce (R465). -/
inductive Work where
  | mem (m : MemReq)
  | host (f : Func) (o n : Nat) (data : Option (List Byte)) (ep : Bool)
  | peer (l : Nat) (p : Packet)
  | note (q entry promise now notify base : Nat)
  | cons (q r : Nat)
  | inspect (q : Nat)
  | adopt (q r : Nat) (drop : Bool)
  | nonce (q a : Nat)
deriving DecidableEq, Repr

/-- A job that waits, with the memory that its requests touch; jobs wait in arrival order (R302, R323). -/
structure Held where
  id : Nat
  work : Work
  await : Await
  spans : List (Nat × Nat)
deriving DecidableEq, Repr

/-- Every part of the device but the line-time unit and the queue. `held` are the jobs that wait. `stall`, `late` and `owed`
are empty between commands: the requests of the command that cannot be answered yet, the line time at which a HARD regulator
lets its last request through (R313), and records that await their ring writes. -/
structure Dev where
  mem : Memory
  bays : Vector Bay 64
  piers : Vector Pier 4
  hbms : Vector Stack 12
  integs : Vector Integ 80
  links : Vector Link 32
  ports : Vector Port 4
  parts : Vector Part 16
  fab : Fabric
  hold : Hold
  colls : List Coll
  box : Box
  bond : Bond
  pwr : Power
  step : W64
  stepPend : List (Nat × Nat)
  stepSent : Nat
  shift : W64
  maint : Option Nat
  timeOut : Bool
  evSeq : List (Nat × BitVec 16)
  records : List EvRec
  pend : List PendWrite
  held : List Held
  nextJob : Nat
  stall : List (Nat × Nat)
  late : Nat
  owed : List (Option Nat × EvRec)
  answers : List Answer
  free : Nat
deriving DecidableEq, Repr

/-- The machine's state: the line-time unit, the rest of the device, and the commands that wait, first in, first out. -/
structure State where
  time : TimeUnit
  dev : Dev
  pending : List Instr
deriving DecidableEq, Repr

/-! ### Reset (R17, R451)

Every field at the value the spec states for reset; a value marked with a log entry is the model's. -/

def Stream.reset : Stream :=
  { base := 0, runBase := 0, startIptr := 0, state := .idle, fclass := 0, iptr := 0, occ := none, lc := Vector.replicate 4 0,
    permOor := false, live := Cfg.reset, shadow := Cfg.reset, hostCfg := [], desc := [], hostDesc := [],
    descPoison := [], runPend := false, haltPend := false, afterHalt := false, restart := 0, nextK := [], wait := none,
    resumeTo := .idle, stall := false, clock := none, fetch := [] }

def Stationary.reset : Stationary :=
  { mode := 0x330, weights := [], book := [], index := [], poisoned := false }

def Bay.reset : Bay :=
  { streams := Vector.replicate 3 Stream.reset, tokens := 0, void := 0, voidClass := [], met := [], rsetIn := [], tokWait := [],
    lastIssued := 2, flights := [], nextId := 0, tiles := [], tilePoison := [], turntable := [], turnPoison := [],
    array := Stationary.reset, staged := [], loadMode := 0x330, drain := [], drainPoison := [], drainPtr := 0,
    openBlocks := Vector.replicate 3 none, closed := [], mxRepair := 0x7F7F,
    mxCnt := Vector.replicate 3 Pair32.zero, vecRepair := Vector.replicate 2 0x3F3F3F3F3F3F3F3F,
    vecCnt := Vector.replicate 2 Pair32.zero, qCnt := Vector.replicate 2 Pair32.zero }

def Integ.reset : Integ :=
  { cnt0 := Pair32.zero, cnt1 := Pair32.zero, scrubEn := true, lapMax := 0x18, lastLap := 0, code0 := 0, code1 := 0,
    retireIndex := 0, retireBank := false, injectReg := 0, inject := none, log := Vector.replicate 32 LogEntry.empty,
    pages := [], pagePend := [], banks := [], bankPend := [], bankCopy := [], zeroing := [], scrubPos := 0,
    lapStart := 0, lapCorr := 0, lapUncorr := 0, lapSkip := 0, lapLate := false }

def Regulator.reset : Regulator := { rate := 0x010, burst := 0x10, hard := false, level := 16 * 1024 * 5, time := 0 }

def Channel.reset : Channel :=
  { trainTemp := 0, trainTime := 0, started := 0, emergency := false, trigger := 0, lastEnd := none, corr := [],
    parity := [], reason := 0 }

def Stack.reset : Stack :=
  { present := true, inService := 0xFFFF, therm := .normal, temp := 0, training := 0, failed := 0, lanes := 0, due := 0,
    emerg := true, drift := 0x0F, thresh := 0x0040, hotC := 0x55, critC := 0x5F, cnt := Vector.replicate 3 Pair32.zero,
    regs := Vector.replicate 16 Regulator.reset, merge := [], chans := Vector.replicate 16 Channel.reset, 
    filling := false, fillStart := 0, mapped := [], normalSince := none, dies := [] }

def Pier.reset : Pier :=
  { present := true, cores := 0xF, ptsCnt := Vector.replicate 3 Pair32.zero, ctab := 0,
    updCnt := Vector.replicate 4 Pair32.zero, upd := none, wbTable := Vector.replicate 16 0,
    wbEn := Vector.replicate 16 false, rstOrder := Vector.replicate 16 0, rstState := Vector.replicate 16 0,
    rstCause := Vector.replicate 16 0, wbCnt := Pair32.zero, drains := [], restores := [] }

def Link.reset : Link :=
  { state := .down, quads := 0, myQuads := 0, ver := 0, far := 0, farValid := false, farLink := 0, farQuads := 0, capSeen := false,
    farLo := 0, farHi := 0, en := true,
    qmask := 0xF, pmd := false, pmap := 0, pmapEn := 0, cnt := Vector.replicate 3 Pair32.zero, delay := 0, asym := 0,
    samples := 0, offsets := [], delays := [], lastRx := 0, lastTx := 0, sendSeq := 0, recvSeq := 0, unacked := [],
    blocked := [], turns := Vector.replicate 2 0, unc := Vector.replicate 4 0, owed := Vector.replicate 2 0, sent := [], credits := Vector.replicate 2 2048, replayed := 0,
    overSlots := 0, lastCaution := none, nextTag := 0, waiting := [] }

def Part.reset : Part :=
  { quarters := 0, hbms := 0, en := false, func := 0, port := 0, links := 0, segs := Vector.replicate 32 Seg.none,
    rings := Vector.replicate 3 (0, 0), platEn := false, counts := Vector.replicate 3 Ring.empty, installed := none,
    staged := none, install := none, withdraw := false, resetPend := none, replies := [], occs := [], nextGen := 0,
    cleaning := 0, cleanDone := 0, zeroing := [], collSeq := [] }

def Port.reset : Port :=
  { vfs := 0, vfEnable := false, numVfs := 0, width := 16, rate := 32, inReset := false, hwin := [], waiting := [],
    nextTag := 0 }

def Fabric.reset : Fabric := { addr := 0, valid := false, cwd := 0x0400, routes := [], srcLock := 0, rootAddr := 0 }

def Hold.reset : Hold := { live := [], seen := [], seq := 0, raised := [], own := [], paused := false, late := false }

def Box.reset : Box :=
  { stage := 0, tested := false, error := 0, dirCopy := false, idState := 2, pubMs := 0, bootAt := 0, quoteState := 0, quoteBuf := 0,
    repState := 1, repPending := false, repSeq := 0, repWriting := none, repAgain := false, repClear := false,
    repInForce := [], repSector := 0, da := 0, daValid := false, chainIn := false, chainOut := false, ibiEn := false,
    lastIbi := none, ibis := [], reply := .none, holeCount := 0, holePart := 0, holeNoPart := false, holeAddr := 0 }

def Bond.reset : Bond :=
  { gen := 1, ltime := 0, dirty := false, img := [], devid := 0, keyN := 0, keyD := 0, meas := [],
    bayCause := [], pierCause := [], bays := 0xFFFFFFFFFFFFFFFF, flash := [], held := [],
    heldLost := false, heldOpen := false, signer := [], pwrNeed := 0, fnRevs := [] }

def Power.reset : Power :=
  { cap := 0x0D48, slew := 0x032, balen := true, vfloor := 0, vin := 0xD2F0, draw := 0, ballast := 0, work := 0,
    tdie := 0, supply := 0, cnt0 := Pair32.zero, cnt1 := Pair32.zero, standby := true, pwrEn := true, pwrGood := true,
    resetN := true, alertN := true, thermtripN := true, rails := true, falling := false, vinZone := 0, zoneSince := 0,
    lastVinCaution := none, lastDrawCaution := none, vinOkSince := none, dieCoolSince := none,
    volts := Vector.replicate 9 900, voltAt := Vector.replicate 9 0, limited := 0, droop := [] }

def Memory.reset : Memory := { cells := [], fills := [], poison := [], errs := [], backs := [] }

def Dev.reset : Dev :=
  { mem := Memory.reset, bays := Vector.replicate 64 Bay.reset, piers := Vector.replicate 4 Pier.reset,
    hbms := Vector.replicate 12 Stack.reset, integs := Vector.replicate 80 Integ.reset,
    links := Vector.replicate 32 Link.reset, ports := Vector.replicate 4 Port.reset,
    parts := Vector.replicate 16 Part.reset, fab := Fabric.reset, hold := Hold.reset, colls := [], box := Box.reset,
    bond := Bond.reset, pwr := Power.reset, step := 0, stepPend := [], stepSent := 0, shift := 0, maint := none,
    timeOut := false, evSeq := [], records := [], pend := [], held := [],
    nextJob := 0, stall := [], late := 0, owed := [], answers := [], free := 0 }

/-- The machine right after reset (R17): power good, every register at the value of its Reset column, boot in stage 0,
memory with nothing listed, no command waiting. -/
def State.reset : State := { time := TimeUnit.reset, dev := Dev.reset, pending := [] }

end Sys2Proof.Machine
end

