-- ==== Sys2Proof/Machine/Memory.lean ====
section
/-! DEFINITION. Memory as plain data: reading and writing one byte with its poison bit, the canonical form, and the
device address map (R24, R26, R32, R33, R35). -/

namespace Sys2Proof.Machine

/-- Strictly ascending keys. -/
def ascending : List Nat → Bool
  | [] => true
  | [_] => true
  | a :: b :: rest => decide (a < b) && ascending (b :: rest)

/-- Ascending, disjoint, non-empty half-open ranges. -/
def rangesWf : List (Nat × Nat) → Bool
  | [] => true
  | [r] => decide (r.1 < r.2)
  | r :: s :: rest => decide (r.1 < r.2) && decide (r.2 ≤ s.1) && rangesWf (s :: rest)

/-- The canonical form of memory: ascending lists without repeats, no listed byte equal to 0x00, no listed mask 0. -/
def Memory.wf (m : Memory) : Bool :=
  ascending (m.cells.map (·.1)) && m.cells.all (fun c => c.2 != 0) && ascending m.poison && rangesWf m.fills &&
  ascending (m.errs.map (·.1)) && m.errs.all (fun e => e.2 != 0) && ascending m.backs

/-- Memory with nothing listed: every byte reads 0x00, good (DESIGN CHOICE, log entry 2). -/
def Memory.empty : Memory := { cells := [], fills := [], poison := [], errs := [], backs := [] }

/-- The byte written last at an address; an address nothing has written reads 0x00 (DESIGN CHOICE, log entry 2). -/
def Memory.byte (m : Memory) (a : Nat) : Byte := tabGet 0 m.cells a

/-- Whether a poison fill covers a byte. -/
def Memory.filled (m : Memory) (a : Nat) : Bool := m.fills.any (fun r => decide (r.1 ≤ a) && decide (a < r.2))

/-- Whether a byte is poisoned. -/
def Memory.isPoison (m : Memory) (a : Nat) : Bool := m.poison.contains a != m.filled a

/-- Write one byte with its poison bit. The write replaces an injected error and drops a pending write-back (R347,
R502); a poisoned byte holds 0x00 (R338). -/
def Memory.put (m : Memory) (a : Nat) (v : Byte) (p : Bool) : Memory :=
  { cells := tabSet 0 m.cells a (if p then 0 else v)
    fills := m.fills
    poison := setPut m.poison a (p != m.filled a)
    errs := tabSet 0 m.errs a 0
    backs := setPut m.backs a false }

/-- Invert stored data bits of one byte without touching its check bits (R502). -/
def Memory.flip (m : Memory) (a : Nat) (mask : Nat) : Memory :=
  { m with errs := tabSet 0 m.errs a (tabGet 0 m.errs a ^^^ mask) }

/-- Note that a byte corrected to `v` waits to be written back: the stored word still stands, and `e` is how it differs from
the word of `v` (R347). -/
def Memory.noteBack (m : Memory) (a : Nat) (v : Byte) (e : Nat) : Memory :=
  let m' := m.put a v false
  { m' with errs := tabSet 0 m'.errs a e, backs := setPut m'.backs a true }

/-- A correction written back: the stored word is good again (R347). -/
def Memory.fix (m : Memory) (a : Nat) : Memory :=
  { m with errs := tabSet 0 m.errs a 0, backs := setPut m.backs a false }

/-- Write a list of bytes from an address upward; `mask` selects the bytes written, and beyond its end all are. -/
def Memory.putAll (m : Memory) (a : Nat) : List Byte → List Bool → List Bool → Memory
  | [], _, _ => m
  | v :: vs, ps, ms =>
    let m' := if ms.headD true then m.put a v (ps.headD false) else m
    m'.putAll (a + 1) vs ps.tail ms.tail

/-- Take a range out of a list of ranges. -/
def rangesCut (lo hi : Nat) : List (Nat × Nat) → List (Nat × Nat)
  | [] => []
  | r :: rest =>
    (if r.1 < min r.2 lo then [(r.1, min r.2 lo)] else []) ++ (if max r.1 hi < r.2 then [(max r.1 hi, r.2)] else []) ++
      rangesCut lo hi rest

/-- Put a range, disjoint from the others, into its place. -/
def rangesPut (lo hi : Nat) : List (Nat × Nat) → List (Nat × Nat)
  | [] => [(lo, hi)]
  | r :: rest => if lo < r.1 then (lo, hi) :: r :: rest else r :: rangesPut lo hi rest

/-- A whole range written with 0x00, good or poisoned (R326, R345, R435, R436). -/
def Memory.fillRange (m : Memory) (lo n : Nat) (bad : Bool) : Memory :=
  let out (a : Nat) : Bool := decide (a < lo) || decide (lo + n ≤ a)
  let cut := rangesCut lo (lo + n) m.fills
  { cells := m.cells.filter (fun c => out c.1)
    fills := if bad && decide (0 < n) then rangesPut lo (lo + n) cut else cut
    poison := m.poison.filter out
    errs := m.errs.filter (fun e => out e.1)
    backs := m.backs.filter out }

/-- The bytes from an address upward as written last, with their poison bits. -/
def Memory.bytes (m : Memory) (a n : Nat) : List Byte × List Bool :=
  ((List.range n).map (fun i => m.byte (a + i)), (List.range n).map (fun i => m.isPoison (a + i)))

/-- The little-endian number at an address, as written last. -/
def Memory.word (m : Memory) (a n : Nat) : Nat := ofBytes ((m.bytes a n).1.map (·.toNat))

/-- Whether any of `n` bytes is poisoned. -/
def Memory.anyPoison (m : Memory) (a n : Nat) : Bool := (m.bytes a n).2.any id

/-- Where a device address lies (R32), with the offset inside the unit named. -/
inductive Region where
  | control (o : Nat)
  | bay (b o : Nat)
  | yard (p o : Nat)
  | cap (b o : Nat)
  | hbm (s o : Nat)
  | host (v o : Nat)
  | peer (l o : Nat)
  | hole
deriving DecidableEq, Repr

/-- The region of an address by the address map alone, ignoring which units are present (R24, R26, R32). -/
def regionOf (a : Nat) : Region :=
  if a < 0x100000000 then .control a
  else if a < 0x140000000 then
    let o := a - 0x100000000
    if o % 0x1000000 < 0x800000 then .bay (o / 0x1000000) (o % 0x1000000) else .hole
  else if a < 0x180000000 then
    let o := a - 0x140000000
    if o % 0x10000000 < 0xC000000 then .yard (o / 0x10000000) (o % 0x10000000) else .hole
  else if 0x1000000000 ≤ a ∧ a < 0x2000000000 then
    let o := a - 0x1000000000
    let p := o / 0x400000000
    let r := o % 0x400000000
    if r < 0x300000000 then .cap (16 * p + r / 0x30000000) (r % 0x30000000) else .hole
  else if 0x10000000000 ≤ a ∧ a < 0x30000000000 then
    let o := a - 0x10000000000
    if o / 0x2000000000 < 12 then .hbm (o / 0x2000000000) (o % 0x2000000000) else .hole
  else if 0x100000000000 ≤ a ∧ a < 0x140000000000 then
    let o := a - 0x100000000000
    .host (o / 0x10000000000) (o % 0x10000000000)
  else if 0x4000000000000 ≤ a ∧ a < 0x4400000000000 then
    let o := a - 0x4000000000000
    .peer (o / 0x20000000000) (o % 0x20000000000)
  else .hole

/-- The peer device address of an offset in a peer window (R35). -/
def peerAddr (o : Nat) : Option Nat :=
  if o < 0x18000000000 then some (0x10000000000 + o)
  else if o < 0x19000000000 then some (0x1000000000 + (o - 0x18000000000))
  else if o < 0x19040000000 then some (0x100000000 + (o - 0x19000000000))
  else if o < 0x19080000000 then some (0x140000000 + (o - 0x19040000000))
  else none

/-- The first address of a bay store, a yard, a cap tile and a stack range (R24, R26, R32). -/
def bayBase (b : Nat) : Nat := 0x100000000 + b * 0x1000000
def yardBase (p : Nat) : Nat := 0x140000000 + p * 0x10000000
def capBase (b : Nat) : Nat := 0x1000000000 + b / 16 * 0x400000000 + b % 16 * 0x30000000
def hbmBase (s : Nat) : Nat := 0x10000000000 + s * 0x2000000000

end Sys2Proof.Machine
end

