-- ==== Sys2Proof/Machine/Records.lean ====
section
/-! DEFINITION. Accessors of the device's parts, line time, and the building of event records (R10 to R14, R441). -/

namespace Sys2Proof.Machine

/-! ### Changing one part of the device -/

def Dev.modBay (d : Dev) (b : Nat) (f : Bay → Bay) : Dev := { d with bays := vmod d.bays b f }
def Dev.modPier (d : Dev) (p : Nat) (f : Pier → Pier) : Dev := { d with piers := vmod d.piers p f }
def Dev.modStack (d : Dev) (s : Nat) (f : Stack → Stack) : Dev := { d with hbms := vmod d.hbms s f }
def Dev.modInteg (d : Dev) (i : Nat) (f : Integ → Integ) : Dev := { d with integs := vmod d.integs i f }
def Dev.modLink (d : Dev) (l : Nat) (f : Link → Link) : Dev := { d with links := vmod d.links l f }
def Dev.modPort (d : Dev) (v : Nat) (f : Port → Port) : Dev := { d with ports := vmod d.ports v f }
def Dev.modPart (d : Dev) (q : Nat) (f : Part → Part) : Dev := { d with parts := vmod d.parts q f }
def Dev.modStream (d : Dev) (b s : Nat) (f : Stream → Stream) : Dev :=
  d.modBay b (fun y => { y with streams := vmod y.streams s f })
def Dev.modBox (d : Dev) (f : Box → Box) : Dev := { d with box := f d.box }
def Dev.modPwr (d : Dev) (f : Power → Power) : Dev := { d with pwr := f d.pwr }
def Dev.modMem (d : Dev) (f : Memory → Memory) : Dev := { d with mem := f d.mem }

/-! ### Reading one part of the device -/

def Dev.bay (d : Dev) (b : Nat) : Bay := vget Bay.reset d.bays b
def Dev.pier (d : Dev) (p : Nat) : Pier := vget Pier.reset d.piers p
def Dev.stack (d : Dev) (s : Nat) : Stack := vget Stack.reset d.hbms s
def Dev.integ (d : Dev) (i : Nat) : Integ := vget Integ.reset d.integs i
def Dev.link (d : Dev) (l : Nat) : Link := vget Link.reset d.links l
def Dev.portOf (d : Dev) (v : Nat) : Port := vget Port.reset d.ports v
def Dev.part (d : Dev) (q : Nat) : Part := vget Part.reset d.parts q
def Bay.stream (y : Bay) (s : Nat) : Stream := vget Stream.reset y.streams s
def Dev.stream (d : Dev) (b s : Nat) : Stream := (d.bay b).stream s

/-- The number of an integrity block (R364): bays 0 to 63, stacks from 64, yards from 76. -/
def IntegBlock.index : IntegBlock → Nat
  | .bay b => b
  | .stack s => 64 + s
  | .yard p => 76 + p

/-- Add to the low or the high counter of a pair. -/
def Pair32.addLo (c : Pair32) (n : Nat) : Pair32 := { c with lo := satAdd c.lo n }
def Pair32.addHi (c : Pair32) (n : Nat) : Pair32 := { c with hi := satAdd c.hi n }

/-- The 64-bit register of two counters. -/
def Pair32.word (c : Pair32) : W64 := c.hi ++ c.lo

/-! ### Line time -/

/-- Line time as a number. -/
def TimeUnit.now (t : TimeUnit) : Nat := t.ltime.toNat
/-- The slot length in lt (R44). -/
def TimeUnit.slotLen (t : TimeUnit) : Nat := 2 ^ t.slotLog2
/-- The current line slot (R44). -/
def TimeUnit.slot (t : TimeUnit) : Nat := t.now / t.slotLen
/-- HOLD's lead in slots: max(1, 8,192 / L) (R61, R63). -/
def TimeUnit.lead (t : TimeUnit) : Nat := max 1 (8192 / t.slotLen)

/-! ### EV_SOURCE codes (R12) -/

/-- A unit on a bay: its pier in bits [15:14], its kind, its local index. -/
def baySrc (kind b : Nat) : Nat := b / 16 * 0x4000 + kind * 0x100 + b % 16
/-- A cap-tile controller or a bay store: the index is the device-wide bay number. -/
def bayMemSrc (kind b : Nat) : Nat := b / 16 * 0x4000 + kind * 0x100 + b
/-- A unit of a pier, indexed by the pier. -/
def pierSrc (kind p : Nat) : Nat := p * 0x4000 + kind * 0x100 + p
/-- An HBM controller. -/
def stackSrc (s : Nat) : Nat := s / 3 * 0x4000 + 0x1000 + s
/-- A unit on a viaduct or in the signal box. -/
def plainSrc (kind i : Nat) : Nat := kind * 0x100 + i
/-- A station core. -/
def coreSrc (c : Nat) : Nat := c / 4 * 0x4000 + 0x3300 + c

/-- The EV_SOURCE of an integrity block's controller; a bay block reports as its cap-tile controller (R12). -/
def IntegBlock.src : IntegBlock → Nat
  | .bay b => bayMemSrc 0x11 b
  | .stack s => stackSrc s
  | .yard p => pierSrc 0x12 p

/-! ### Building records (R11) -/

/-- A record with nothing but its class and source: no stream, entry or instruction applies. -/
def record (cls src : Nat) : EvRec :=
  { cls := BitVec.ofNat 8 cls, fault := false, withdrawn := false, poison := false, lost := false,
    source := BitVec.ofNat 16 src, part := 0, stream := 3, desc := 0, seq := 0, ltime := 0, step := 0,
    entry := 0xFFFFFFFF, iptr := 0xFFFFFFFF, addr := 0, count := 0, detail := 0 }

/-- EV_DETAIL from (byte, length, value) triples; bytes not named are zero. -/
def detail (xs : List (Nat × Nat × Nat)) : BitVec 128 :=
  BitVec.ofNat 128 (xs.foldl (fun n x => n + (x.2.2 % 256 ^ x.2.1) * 256 ^ (x.1 - 48)) 0)

/-- The 64 bytes of a record (R11). -/
def EvRec.bytes (r : EvRec) : List Nat :=
  [r.cls.toNat,
   b2n r.fault + 2 * b2n r.withdrawn + 4 * b2n r.poison + 8 * b2n r.lost] ++
  toBytes 2 r.source.toNat ++
  [r.part.toNat + 16 * r.stream.toNat, r.desc.toNat] ++
  toBytes 2 r.seq.toNat ++ toBytes 8 r.ltime.toNat ++ toBytes 8 r.step.toNat ++
  toBytes 4 r.entry.toNat ++ toBytes 4 r.iptr.toNat ++ toBytes 8 r.addr.toNat ++ toBytes 8 r.count.toNat ++
  toBytes 16 r.detail.toNat

/-! ### Rings (R441, R448) -/

/-- Base address and number of entries of ring `r` of a partition (R441, R450). -/
def Part.ringBase (p : Part) (r : Nat) : Nat := (vget (0, 0) p.rings r).1.toNat * 64
def Part.ringSize (p : Part) (r : Nat) : Nat := 2 ^ ((vget (0, 0) p.rings r).2.toNat + 4)

/-- Entries of a ring written and not yet passed by CONS. -/
def Ring.used (c : Ring) : Nat := (c.prod - c.cons).toNat

/-- The device's copy of one ring's counts. -/
def Part.ring (p : Part) (r : Nat) : Ring := vget Ring.empty p.counts r
def Part.modRing (p : Part) (r : Nat) (f : Ring → Ring) : Part := { p with counts := vmod p.counts r f }

end Sys2Proof.Machine
end

