-- ==== Sys2Proof/Machine/Channel.lean ====
section
/-! DEFINITION. A link's packets: their layout on the wire, credits, the order in which what waits is sent, and replays (R366, R370 to
R374, R379). -/

namespace Sys2Proof.Machine

def Link.isUp (k : Link) : Bool := k.state == .up

/-- Width of a link in lanes (R366, R402). -/
def Link.lanes (k : Link) : Nat := if k.isUp then 4 * popCount 4 k.quads.toNat else 0

/-! ### Layout (R370, R379) -/

/-- A packet with nothing but its type and addressing (R370). -/
def packet (typ : Nat) (vc : Bool) (part daddr saddr arg tag : Nat) : Packet :=
  { typ := BitVec.ofNat 8 typ, path := false, vc := vc, nak := false, part := BitVec.ofNat 4 part,
    daddr := BitVec.ofNat 12 daddr, saddr := BitVec.ofNat 12 saddr, arg := w64 arg, seq := 0, ack := 0, pathid := 0,
    tag := BitVec.ofNat 16 tag, payload := [], poisonBits := [], maskBits := [], cr0 := 0, cr1 := 0, fecFixed := 0 }

/-- The credits a packet takes: its payload in 32-byte units (R370, R372). -/
def pktUnits (p : Packet) : Nat := p.payload.length / 32

/-- Which virtual channel a packet takes, if it takes one: TIME, NOTICE, CAP and IDLE take none (R371, R372). -/
def pktCredited (p : Packet) : Bool := decide (0x10 ≤ p.typ.toNat)

/-- The 24 bytes of a packet's header (R370). -/
def pktHeader (p : Packet) : List Nat :=
  [p.typ.toNat,
   b2n (!p.poisonBits.isEmpty) + 2 * b2n (!p.maskBits.isEmpty) + 4 * b2n p.path + 8 * b2n p.vc + 16 * b2n p.nak,
   pktUnits p, p.part.toNat] ++
  toBytes 2 p.daddr.toNat ++ toBytes 2 p.saddr.toNat ++ toBytes 8 p.arg.toNat ++ toBytes 2 p.seq.toNat ++ toBytes 2 p.ack.toNat ++
  toBytes 2 p.pathid.toNat ++ toBytes 2 p.tag.toNat

/-- A poison or byte-mask block: bit i describes payload byte i; nothing where none follows (R370). -/
def pktBlock (n : Nat) (bits : List Bool) : List Nat :=
  if bits.isEmpty then []
  else (upTo (n / 8)).map (fun j => (upTo 8).foldl (fun m i => if bits.getD (8 * j + i) false then setBit m i else m) 0)

/-- What a packet's CRC covers: the header, the blocks and the payload (R370). -/
def pktBody (p : Packet) : List Nat :=
  pktHeader p ++ pktBlock p.payload.length p.poisonBits ++ pktBlock p.payload.length p.maskBits ++ p.payload.map (·.toNat)

/-- The 8 bytes of a packet's trailer: its CRC-32C and the credits that it returns (R355, R370). -/
def pktTrailer (p : Packet) : List Nat := toBytes 4 (crc32c (pktBody p)) ++ [p.cr0.toNat, p.cr1.toNat, 0, 0]

/-- A packet as it crosses the link (R370). -/
def pktImage (p : Packet) : List Nat := pktBody p ++ pktTrailer p

/-- How many bytes cross the link for a packet (R370). -/
def wireBytes (p : Packet) : Nat :=
  let n := p.payload.length
  24 + (if p.poisonBits.isEmpty then 0 else n / 8) + (if p.maskBits.isEmpty then 0 else n / 8) + n + 8

/-- Cut `n` bytes at peer address `a` into pieces that, in whole 32-byte units, hold at most `most` bytes, and that cross no
4 KiB boundary (R379). -/
def cutPieces (most : Nat) : Nat → Nat → Nat → List (Nat × Nat)
  | 0, _, _ => []
  | fuel + 1, a, n =>
    if n = 0 then []
    else
      let k := min n (min (most - a % 32) (4096 - a % 4096))
      (a, k) :: cutPieces most fuel (a + k) (n - k)

/-- Bytes padded with zeros to a whole number of 32-byte units. -/
def padUnits {α : Type} (z : α) (bs : List α) : List α := bs ++ List.replicate ((32 - bs.length % 32) % 32) z

/-! ### Sending (R372, R373) -/

/-- Send a packet on a link: it takes the next sequence number and carries the acknowledgement and the credits owed, and is kept until
it is acknowledged (R370, R373). -/
def Link.transmit (k : Link) (p : Packet) : Link :=
  let p' := { p with seq := k.sendSeq + 1, ack := k.recvSeq, cr0 := BitVec.ofNat 8 (min 255 (vget 0 k.owed 0)),
                     cr1 := BitVec.ofNat 8 (min 255 (vget 0 k.owed 1)) }
  { k with
    sendSeq := k.sendSeq + 1, sent := p' :: k.sent, unacked := k.unacked ++ [p'],
    credits := if pktCredited p then vmod k.credits (b2n p.vc) (fun n => n - pktUnits p) else k.credits,
    owed := k.owed.map (fun n => n - min 255 n) }

/-- Wire bytes of some packets. -/
def wireSum (ps : List Packet) : Nat := (ps.map wireBytes).foldl (· + ·) 0

/-- Whether a packet that flows by credits may be sent: its channel has the credits, and with it at most 256 KiB stand
unacknowledged (R372, R373). -/
def Link.room (k : Link) (p : Packet) : Bool :=
  decide (pktUnits p ≤ vget 0 k.credits (b2n p.vc)) && decide (wireSum k.unacked + wireBytes p ≤ 0x40000)

/-- The partition whose turn a packet takes; a packet forwarded for another device takes a turn of its own, 16 (R372). -/
def pktTurn (me : BitVec 12) (p : Packet) : Nat := if p.saddr = me then p.part.toNat else 16

/-- The packet of class 4 that a virtual channel sends next: the oldest of the first partition in turn that has one (R372). -/
def Link.nextOf (k : Link) (me : BitVec 12) (vc : Bool) (free : List (Packet × Nat)) : Option (Packet × Nat) :=
  let xs := free.filter (fun x => x.1.vc == vc)
  ((upTo 17).findSome? (fun j => xs.find? (fun x => pktTurn me x.1 == (vget 0 k.turns (b2n vc) + j) % 17)))

/-- The packet that a link sends next among those that wait, with its place, and whether it goes under a path meter above zero:
path packets whose meter is above zero, then VC1, then VC0 (R372). A packet at the head of its class and channel that has no room
waits, and those of its channel behind it wait with it; path packets stay while the domain holds (R62; DESIGN CHOICE, log entry
59). -/
def Link.next (k : Link) (me : BitVec 12) (paused : Bool) (claimed : Packet → Bool) : Option ((Packet × Nat) × Bool) :=
  let free := k.blocked.zipIdx.filter (fun x => !(paused && x.1.path))
  let first := free.find? (fun x => x.1.path && claimed x.1)
  let ready (x : Option (Packet × Nat)) : Option ((Packet × Nat) × Bool) := (x.filter (fun x => k.room x.1)).map (fun x => (x, false))
  match first with
  | some x => if k.room x.1 then some (x, true) else if x.1.vc then none else ready (k.nextOf me true free)
  | none => (ready (k.nextOf me true free)).or (ready (k.nextOf me false free))

/-- Take a waiting packet out of its place and send it; its partition's turn is over (R372). -/
def Link.sendAt (k : Link) (me : BitVec 12) (x : Packet × Nat) (claimed : Bool) : Link :=
  ({ k with blocked := k.blocked.eraseIdx x.2,
            turns := if claimed then k.turns else vmod k.turns (b2n x.1.vc) (fun _ => (pktTurn me x.1 + 1) % 17) } : Link).transmit x.1

/-- Replay packets, before anything that waits (R372, R373). -/
def Link.replay (k : Link) (again : List Packet) : Link :=
  { k with sent := again.reverse ++ k.sent, cnt := vmod k.cnt 1 (fun c => c.addLo again.length), replayed := k.replayed + wireSum again }

/-- A packet taken in order: it acknowledges, returns credits, and its buffer is owed back (R370, R372, R373). -/
def Link.accept (k : Link) (p : Packet) : Link :=
  { k with
    recvSeq := p.seq
    unacked := match k.unacked.findIdx? (fun u => u.seq == p.ack) with
      | some i => k.unacked.drop (i + 1)
      | none => k.unacked
    credits := vmod (vmod k.credits 0 (· + p.cr0.toNat)) 1 (· + p.cr1.toNat)
    owed := if pktCredited p then vmod k.owed (b2n p.vc) (· + pktUnits p) else k.owed
    cnt := vmod k.cnt 0 (fun c => c.addLo p.fecFixed) }

end Sys2Proof.Machine
end

