-- ==== Sys2Proof/Machine/Access.lean ====
section
/-! DEFINITION. What a request does at the memory it reaches: where an address leads, hole counting, meters and regulators,
checked reads and writes, and the packets and PCIe requests that a window access becomes (R34 to R37, R56, R301 to R313, R321 to
R326, R339 to R348, R359, R362, R379). The records that a request gives rise to are owed: Rings.lean writes them. -/

namespace Sys2Proof.Machine

/-! ### Windows (R436) -/

def Seg.start (g : Seg) : Nat := g.base.toNat * 0x200000
def Seg.stop (g : Seg) : Nat := g.start + g.size.toNat * 0x200000

/-- Whether a segment window lets an access at address `a` through; a store needs WR = 1 (R436). -/
def Seg.admits (g : Seg) (wr : Bool) (a : Nat) : Bool :=
  g.valid && (!wr || g.wr) && decide (g.start ≤ a) && decide (a < g.stop)

/-- How far the windows reach without a gap from address `a`, following at most `fuel` windows. -/
def Part.reach (p : Part) (wr : Bool) : Nat → Nat → Nat
  | 0, a => a
  | fuel + 1, a =>
    match p.segs.toList.find? (fun g => g.admits wr a) with
    | some g => p.reach wr fuel g.stop
    | none => a

/-- Whether `len` bytes at `a` lie inside the partition's windows (R436). -/
def Part.inside (p : Part) (wr : Bool) (a len : Nat) : Bool := decide (a + len ≤ p.reach wr 33 a)

/-! ### Where an address leads -/

/-- Channels in service of a stack, ascending (R309). -/
def Stack.service (k : Stack) : List Nat := maskBits 16 k.inService.toNat
def Stack.c (k : Stack) : Nat := if k.present then k.service.length else 0

/-- The channel that serves an offset (R309). -/
def Stack.chanOf (k : Stack) (o : Nat) : Nat := k.service.getD (o / 256 % k.c) 0

/-- Whether bay `b` is present (R459). -/
def Dev.bayPresent (d : Dev) (b : Nat) : Bool := d.bond.bays.toNat.testBit b

/-- Word `i` of a port's slice table (R438). -/
def Port.slice (v : Port) (i : Nat) : Nat := tabGet 0 v.hwin i

/-- The region of an address on this device as it now stands: ranges of absent units, offsets beyond the populated part
of a stack, unmapped slices and unmapped peer offsets are holes (R36, R309, R327, R438, R459). An unmapped offset of a peer
window has no peer address that a packet could carry (R35): it is a hole of this device, and no packet is sent (DESIGN CHOICE,
log entry 118). -/
def Dev.regionAt (d : Dev) (a : Nat) : Region :=
  match regionOf a with
  | .bay b o => if d.bayPresent b then .bay b o else .hole
  | .yard p o => if (d.pier p).present then .yard p o else .hole
  | .cap b o => if d.bayPresent b then .cap b o else .hole
  | .hbm s o => if o < (d.stack s).c * 0x200000000 then .hbm s o else .hole
  | .host v o => if bit ((d.portOf v).slice (o / 0x400000000)) 0 then .host v o else .hole
  | .peer l o => if (peerAddr o).isSome then .peer l o else .hole
  | r => r

/-! ### Holes (R36, R37) -/

/-- Count one hole access and note its requester and address (R37). -/
def Dev.countHole (q : Req) (a : Nat) (d : Dev) : Dev :=
  d.modBox (fun x =>
    { x with
      holeCount := satAdd x.holeCount 1
      holePart := BitVec.ofNat 4 (q.part.getD 0)
      holeNoPart := q.part.isNone
      holeAddr := BitVec.ofNat 24 (a / 2 ^ 28) })

/-! ### Occurrences' meters (R56, R312) -/

def OccKey.same (a b : OccKey) : Bool := a == b

/-- The occurrence of a key, if the partition holds a record of it. -/
def Dev.occ (d : Dev) (k : OccKey) : Option Occ := (d.part k.part).occs.find? (fun o => o.key == k)

/-- Change the record of an occurrence. -/
def Dev.modOcc (d : Dev) (k : OccKey) (f : Occ → Occ) : Dev :=
  d.modPart k.part (fun p => { p with occs := p.occs.map (fun o => if o.key = k then f o else o) })

/-- What the meter of a resource holds. -/
def Occ.meter (o : Occ) (code index : Nat) : Nat :=
  ((o.meters.find? (fun m => m.code = code ∧ m.index = index)).map (·.left)).getD 0

/-- Draw from a meter; a meter that empties sets its bit of the PHASE_RECORD mask (R56, R70). -/
def Occ.draw (o : Occ) (code index n : Nat) : Occ :=
  { o with
    meters := o.meters.map (fun m => if m.code = code ∧ m.index = index then { m with left := m.left - n } else m)
    emptied := if o.meter code index ≤ n then setBit o.emptied (code - 1) else o.emptied }

/-- Draw from a meter of an occurrence. Meters are frozen while the domain holds (R62). -/
def Dev.draw (k : OccKey) (code index n : Nat) (d : Dev) : Dev :=
  if d.hold.paused then d else d.modOcc k (fun o => if o.meter code index = 0 then o else o.draw code index n)

/-- The bucket of a regulator at line time `t`, in units of 1/5 byte: 6 × RATE per cycle, at most BURST KiB (R313). -/
def Regulator.now (g : Regulator) (t : Nat) : Nat :=
  min (g.burst.toNat * 1024 * 5) (g.level + (t - g.time) * 4 * 6 * g.rate.toNat)

/-- The line time, now or later, at which the bucket holds `n` units, if it ever does (R313). -/
def Regulator.holds (g : Regulator) (n t : Nat) : Option Nat :=
  if n ≤ g.now t then some (max t g.time)
  else if g.rate = 0 ∨ g.burst.toNat * 1024 * 5 < n then none
  else some (g.time + ceilDiv (n - g.level) (24 * g.rate.toNat))

/-- Charge `n` bytes of the part of an HBM request of `q` that one channel serves, on stack `s`, to its occurrence's meter or,
unclaimed, to its partition's regulator. With HARD = 1 an out-of-profile request waits until it comes into profile: `late` notes
until when, and a job that has waited so long is served (R312, R313). `a` and `len` are the request's. -/
def Dev.chargeOne (t : TimeUnit) (q : Req) (s a len n : Nat) (d : Dev) : Dev :=
  let claim := q.occ.filter (fun k => match d.occ k with | some o => decide (0 < o.meter 5 s) | none => false)
  match claim, q.part with
  | some k, _ => d.draw k 5 s (5 * n)
  | none, none => d
  | none, some p =>
    let g := vget Regulator.reset (d.stack s).regs p
    let put (u : Nat) (d : Dev) : Dev := d.modStack s (fun k =>
      { k with regs := vmod k.regs p (fun g => { g with level := g.now u - 5 * n, time := u }) })
    if !g.hard then
      if 5 * n ≤ g.now t.now then put t.now d else d.modStack s (fun k => { k with cnt := vmod k.cnt 2 (fun c => c.addHi 1) })
    else if q.await.due ≠ 0 then d
    else
      match g.holds (5 * n) t.now with
      | some u => { put u d with late := if t.now < u then max d.late u else d.late }
      | none => { d with stall := d.stall ++ [(a, len)] }

/-- The 256-byte granules that `n` bytes at `a` touch: one channel, and one retired page, holds each whole (R309, R362). -/
def hbmGranules (a n : Nat) : List Nat := (List.range ((a + n + 255) / 256 - a / 256)).map (a / 256 + ·)

/-- The 32-byte sectors that `n` bytes at `a` touch. -/
def sectorsOf (a n : Nat) : List Nat := (List.range ((a + n + 31) / 32 - a / 32)).map (fun i => (a / 32 + i) * 32)

/-- Charge an HBM request granule by granule, as the channels serve it; `cost` is the charge of a sector (R312, R313). -/
def Dev.chargeHbm (t : TimeUnit) (q : Req) (s a n : Nat) (cost : Nat → Nat) (d : Dev) : Dev :=
  (hbmGranules a n).foldl (fun d g =>
    d.chargeOne t q s a n ((((sectorsOf a n).filter (fun x => x / 256 == g)).map cost).foldl (· + ·) 0)) d

/-- Charge one whole 64-byte block to a cap or bay-store meter (R308). -/
def Dev.chargeBlock (q : Req) (code index : Nat) (d : Dev) : Dev :=
  match q.occ with
  | some k => d.draw k code index 64
  | none => d

/-! ### Memory that serves no request now (R321, R323, R326, R345, R362, R436) -/

/-- Whether a request must wait at an address: its channel retrains, its stack is being filled with poison, its region is being
zeroed, or its cap bank is being copied. -/
def Dev.waitsAt (d : Dev) (a : Nat) : Bool :=
  match d.regionAt a with
  | .hbm s o =>
    let k := d.stack s
    k.filling || k.training.toNat.testBit (k.chanOf o) || (d.integ (64 + s)).zeroing.contains (o / 0x40000000)
  | .cap b o =>
    let g := d.integ b
    g.zeroing.contains (o / 0x4000000) || g.bankCopy.contains (o / 64 % 32)
  | _ => false

/-- Whether `n` bytes at `a` meet memory that a waiting job will touch: what waits is neither overtaken nor missed (R302, R323). -/
def Dev.behind (d : Dev) (a n : Nat) : Bool :=
  d.held.any (fun h => h.spans.any (fun r => decide (a < r.1 + r.2) && decide (r.1 < a + n)))

/-- Whether `n` bytes at `a` meet a window that is being zeroed (R436). -/
def Dev.zeroingAt (d : Dev) (a n : Nat) : Bool :=
  d.parts.toList.any (fun p => p.zeroing.any (fun i =>
    let g := vget Seg.none p.segs i
    decide (a < g.stop) && decide (g.start < a + n)))

/-- Whether a request for `n` bytes at `a` must wait. -/
def Dev.mustWait (d : Dev) (a n : Nat) : Bool :=
  match d.regionAt a with
  | .hbm _ _ => d.behind a n || d.zeroingAt a n || (hbmGranules a n).any (fun g => d.waitsAt (max a (256 * g)))
  | .cap _ _ =>
    d.behind a n || d.zeroingAt a n || (List.range ((a + n + 63) / 64 - a / 64)).any (fun i => d.waitsAt (max a (64 * (a / 64 + i))))
  | .bay _ _ => d.behind a n || d.zeroingAt a n
  | .yard _ _ => d.behind a n || d.zeroingAt a n
  | _ => false

/-- Note that a request of the command cannot be answered yet. -/
def Dev.stalls (a n : Nat) (d : Dev) : Dev := { d with stall := d.stall ++ [(a, n)] }

/-! ### The error log (R347, R348, R359) -/

/-- Owe a record of partition `q`, or a device record. -/
def Dev.owe (q : Option Nat) (r : EvRec) (d : Dev) : Dev := { d with owed := d.owed ++ [(q, r)] }

/-- The least log entry by COUNT, then by LAST. -/
def logVictim (log : List LogEntry) : Nat :=
  ((List.range log.length).foldl (fun (best : Nat × Nat × Nat) i =>
    let e := log.getD i LogEntry.empty
    let key := (e.count.toNat, e.last.toNat)
    if best.1 = log.length ∨ key.1 < best.2.1 ∨ (key.1 = best.2.1 ∧ key.2 < best.2.2) then (i, key.1, key.2) else best)
    (log.length, 0, 0)).1

/-- The integrity block and the reporting source of a region (R332, R364). -/
def regionBlock (r : Region) : Option (IntegBlock × Nat) :=
  match r with
  | .bay b _ => some (.bay b, bayMemSrc 0x13 b)
  | .cap b _ => some (.bay b, bayMemSrc 0x11 b)
  | .yard p _ => some (.yard p, pierSrc 0x12 p)
  | .hbm s _ => some (.stack s, stackSrc s)
  | _ => none

/-- The unit that reports an error at an address: a bay store and a cap tile each report their own (R332). -/
def errorSrc (k : IntegBlock) (a : Nat) : Nat := match regionBlock (regionOf a) with | some (_, src) => src | none => k.src

/-- Log one correction in a block or sector and write CE_LOGGED when an entry is created or its COUNT reaches 256
(R359, R363). -/
def Dev.logCorrection (t : TimeUnit) (q : Option Nat) (k : IntegBlock) (addr sym : Nat) (scrub : Bool) (chan : Nat)
    (d : Dev) : Dev :=
  let g := d.integ k.index
  let entries := g.log.toList
  let ce (count : Nat) (d : Dev) : Dev :=
    d.owe q { record 0x03 (errorSrc k addr) with
      addr := BitVec.ofNat 52 addr, count := w64 count
      detail := detail [(48, 1, sym), (49, 1, b2n scrub), (50, 1, chan)] }
  match (List.range 32).find? (fun i =>
      let e := entries.getD i LogEntry.empty
      e.valid && e.addr.toNat == addr) with
  | some i =>
    let n := min ((entries.getD i LogEntry.empty).count.toNat + 1) 0xFFFF
    let d1 := d.modInteg k.index (fun g => { g with log := vmod g.log i (fun e =>
      { e with sym := BitVec.ofNat 6 sym, count := BitVec.ofNat 16 n, last := t.ltime }) })
    if n = 256 then ce 256 d1 else d1
  | none =>
    let fresh : LogEntry :=
      { valid := true, addr := BitVec.ofNat 52 addr, sym := BitVec.ofNat 6 sym, count := 1, last := t.ltime }
    match (List.range 32).find? (fun i => !(entries.getD i LogEntry.empty).valid) with
    | some i => ce 1 (d.modInteg k.index (fun g => { g with log := vmod g.log i (fun _ => fresh) }))
    | none =>
      ce 1 (d.modInteg k.index (fun g =>
        { g with log := vmod g.log (logVictim entries) (fun _ => fresh), cnt1 := g.cnt1.addHi 1 }))

/-- Count and log one correction (R347). -/
def Dev.corrected (t : TimeUnit) (q : Option Nat) (k : IntegBlock) (addr sym : Nat) (scrub : Bool) (chan : Nat)
    (d : Dev) : Dev :=
  (d.modInteg k.index (fun g =>
    { g with cnt0 := g.cnt0.addLo 1, lapCorr := if scrub then g.lapCorr + 1 else g.lapCorr })).logCorrection t q k addr sym
    scrub chan

/-- One uncorrectable error: the first byte poisoned, how many bytes are, and bytes 48 to 50 of its record (R363). -/
structure MemErr where
  addr : Nat
  bytes : Nat
  kind : Nat
  code : Nat
  chan : Nat
deriving DecidableEq, Repr

/-- Count the uncorrectable errors of one request and owe its one UE_POISONED record, which the first error fills (R348,
R363). -/
def Dev.uncorrected (q : Option Nat) (k : IntegBlock) (src : Nat) (es : List MemErr) (d : Dev) : Dev :=
  match es with
  | [] => d
  | e :: _ =>
    (d.modInteg k.index (fun g =>
      { g with cnt0 := g.cnt0.addHi es.length, lapUncorr := if e.kind = 1 then g.lapUncorr + es.length else g.lapUncorr })).owe q
      { record 0x04 src with
        poison := true, addr := BitVec.ofNat 52 e.addr, count := w64 ((es.map (·.bytes)).foldl (· + ·) 0)
        detail := detail [(48, 1, e.kind), (49, 1, e.code), (50, 1, e.chan)] }

/-! ### Checked reads of one request -/

/-- Whether a cap or HBM byte lies in a light region (R345). -/
def Dev.isLight (d : Dev) (r : Region) : Bool :=
  match r with
  | .cap b o => (d.integ b).code0.toNat.testBit (o / 0x4000000)
  | .hbm s o =>
    let g := d.integ (64 + s)
    let i := o / 0x40000000
    if i < 64 then g.code0.toNat.testBit i else g.code1.toNat.testBit (i - 64)
  | _ => false

/-- Whether a byte lies in a retired page (R362). -/
def Dev.isRetired (d : Dev) (r : Region) : Bool :=
  match r with
  | .cap b o => (d.integ b).pages.contains (o / 0x200000)
  | .hbm s o => (d.integ (64 + s)).pages.contains (o / 0x200000)
  | _ => false

/-- Whether a byte lies in a failed channel (R325). -/
def Dev.isFailed (d : Dev) (r : Region) : Bool :=
  match r with
  | .hbm s o => (d.stack s).failed.toNat.testBit ((d.stack s).chanOf o)
  | _ => false

/-- Check the stored words of SRAM or cap bytes that hold injected errors, one by one: corrected, poisoned or left
(R339, R340, R347, R348). Answers the bytes found uncorrectable. -/
def Dev.checkBytes (t : TimeUnit) (q : Option Nat) (k : IntegBlock) (light scrub : Bool) :
    List Nat → Dev → List Nat × Dev
  | [], d => ([], d)
  | a :: rest, d =>
    let m := d.mem
    let e := tabGet 0 m.errs a
    let word := if light then (if m.isPoison a then lightPoison else lightEncode (m.byte a).toNat) ^^^ e
      else (if m.isPoison a then strongPoison else strongEncode (m.byte a).toNat) ^^^ e
    let r := if light then lightDecode word else strongDecode word
    match r.2 with
    | .corrected _ =>
      let d1 := (d.modMem (·.noteBack a (BitVec.ofNat 8 r.1) (word ^^^ strongEncode r.1))).corrected t q k (a / 64 * 64) (a % 64) scrub
        0xFF
      d1.checkBytes t q k light scrub rest
    | .uncorrectable =>
      let r := (d.modMem (fun m => m.put a 0 true)).checkBytes t q k light scrub rest
      (a :: r.1, r.2)
    | _ => d.checkBytes t q k light scrub rest

/-- What an uncorrected SRAM or cap word reads as when its errors leave it valid (R339, R340, R502). -/
def Dev.rawByte (d : Dev) (light : Bool) (a : Nat) : Byte × Bool :=
  let m := d.mem
  let e := tabGet 0 m.errs a
  if e = 0 then (m.byte a, m.isPoison a)
  else
    let word := if light then (if m.isPoison a then lightPoison else lightEncode (m.byte a).toNat) ^^^ e
      else (if m.isPoison a then strongPoison else strongEncode (m.byte a).toNat) ^^^ e
    let r := if light then lightDecode word else strongDecode word
    match r.2 with
    | .poisoned => (0, true)
    | .uncorrectable => (0, true)
    | _ => (BitVec.ofNat 8 r.1, false)

/-- Note a sector as most recently used in the stack's merge buffer of 256 sectors (R318). -/
def Stack.touch (k : Stack) (a : Nat) : Stack := { k with merge := (a :: k.merge.filter (· != a)).take 256 }

/-- What the dies or the interface report with a burst of the sector at `x`, which the report leaves: the device after it, and
the code of an uncorrectable error, if it is one (R322, R343, R364). -/
def Dev.dieReport (t : TimeUnit) (s x : Nat) (light : Bool) (d : Dev) : Option Nat × Dev :=
  let die := tabGet 0 (d.stack s).dies x
  let ch := (d.stack s).chanOf (x - hbmBase s)
  let d0 := d.modStack s (fun k => { k with dies := tabSet 0 k.dies x 0 })
  let parity (n : Nat) : Dev := d0.modStack s (fun k =>
    { k with chans := vmod k.chans ch (fun c => { c with parity := List.replicate n t.now ++ c.parity }) })
  match die with
  | 0 => (none, d)
  | 1 => (none, d0.modInteg (64 + s) (fun g => { g with cnt1 := g.cnt1.addLo 1 }))
  | 2 => (some 2, d0)
  | 3 => (none, parity 1)
  | _ => (some (b2n light), parity 2)

/-- Read and check one HBM sector (R342 to R348). A corrected sector is held in the merge buffer as written, so its error is gone;
it also counts toward R322. `lost` is how many of its bytes an uncorrectable error poisons, and `kind` byte 48. -/
def Dev.checkSector (t : TimeUnit) (q : Option Nat) (s : Nat) (scrub : Bool) (kind lost x : Nat) (d : Dev) : Option MemErr × Dev :=
  let light := d.isLight (d.regionAt x)
  let ch := (d.stack s).chanOf (x - hbmBase s)
  let bad (code : Nat) (d : Dev) : Option MemErr × Dev :=
    (some { addr := x, bytes := lost, kind := kind, code := code, chan := ch },
     d.modMem (fun m => m.putAll x (List.replicate 32 0) (List.replicate 32 true) []))
  match d.dieReport t s x light with
  | (some code, d1) => bad code d1
  | (none, d1) =>
    let m := d1.mem
    let es := (List.range 32).map (fun i => tabGet 0 m.errs (x + i))
    if es.all (· == 0) then (none, d1)
    else
      let (bs, ps) := m.bytes x 32
      let (r, st) := sectorDecode light (bs.map (·.toNat)) ps es
      let whole : Dev := d1.modMem (fun m => m.putAll x (r.1.map (BitVec.ofNat 8)) r.2 [])
      match st with
      | .corrected i => (none, (whole.corrected t q (.stack s) x i scrub ch).modStack s (fun k =>
          { k.touch x with chans := vmod k.chans ch (fun c => { c with corr := t.now :: c.corr }) }))
      | .uncorrectable => bad (b2n light) d1
      | _ => (none, whole)

/-- Check HBM sectors in turn; answers the errors found. -/
def Dev.checkSectors (t : TimeUnit) (q : Option Nat) (s : Nat) (scrub : Bool) (kind : Nat) (lost : Nat → Nat) :
    List Nat → Dev → List MemErr × Dev
  | [], d => ([], d)
  | x :: rest, d =>
    let (e, d1) := d.checkSector t q s scrub kind (lost x) x
    let r := d1.checkSectors t q s scrub kind lost rest
    (e.toList ++ r.1, r.2)

/-- How many bytes of the sector at `x` a write of `n` bytes at `a` under `mask` covers. -/
def coveredBytes (a n : Nat) (mask : List Bool) (x : Nat) : Nat :=
  ((List.range 32).filter (fun i => decide (a ≤ x + i) && decide (x + i < a + n) && mask.getD (x + i - a) true)).length

/-- The sectors of which a write covers some bytes but not all. -/
def partialSectors (a n : Nat) (mask : List Bool) : List Nat :=
  (sectorsOf a n).filter (fun x => let c := coveredBytes a n mask x; decide (0 < c) && decide (c < 32))

/-- Check every stored word that a request touches (R347, R348): the errors found, for its one record, and the device after
corrections and poisonings. In cap and SRAM only the bytes that `need` selects are read and checked; an HBM sector is checked
whole (R503). -/
def Dev.checkWords (t : TimeUnit) (q : Option Nat) (a n : Nat) (need : Nat → Bool) (scrub : Bool) (kind : Nat) (d : Dev) :
    List MemErr × Dev :=
  let r := d.regionAt a
  match r, regionBlock r with
  | .hbm s _, _ => d.checkSectors t q s scrub kind (fun _ => 32) (sectorsOf a n)
  | _, some (k, _) =>
    let light := d.isLight r
    let cells := ((List.range n).map (a + ·)).filter (fun x => need x && tabGet 0 d.mem.errs x != 0)
    let (bad, d1) := d.checkBytes t q k light scrub cells
    (bad.map (fun x => { addr := x, bytes := 1, kind := kind, code := b2n light, chan := 0xFF }), d1)
  | _, none => ([], d)

/-- Check what a request touches, and count and owe what it finds (R348). -/
def Dev.checkRange (t : TimeUnit) (q : Option Nat) (a n : Nat) (need : Nat → Bool) (scrub : Bool) (kind : Nat) (d : Dev) : Dev :=
  match regionBlock (d.regionAt a) with
  | none => d
  | some (k, src) =>
    let (es, d1) := d.checkWords t q a n need scrub kind
    d1.uncorrected q k src es

/-- The bytes of a request as its controller returns them. -/
def Dev.answerBytes (d : Dev) (a n : Nat) : List Byte × List Bool :=
  let r := d.regionAt a
  match r with
  | .bay _ _ => let x := (List.range n).map (fun i => d.rawByte false (a + i)); (x.map (·.1), x.map (·.2))
  | .yard _ _ => let x := (List.range n).map (fun i => d.rawByte false (a + i)); (x.map (·.1), x.map (·.2))
  | .cap _ _ => let x := (List.range n).map (fun i => d.rawByte (d.isLight r) (a + i)); (x.map (·.1), x.map (·.2))
  | .hole => (List.replicate n 0, List.replicate n false)
  | .control _ => (List.replicate n 0, List.replicate n false)
  | _ => d.mem.bytes a n

/-! ### Packets and PCIe requests that window accesses become -/

/-- The tag of the next request of link `l`: the link's number in its low bits, so that a tag names one request of the
device whichever link its response arrives on (R370). -/
def Link.tag (k : Link) (l : Nat) : Nat := (32 * k.nextTag.toNat + l) % 65536

/-- Note a request that awaits its response, and take its tag (R381). -/
def Link.await (k : Link) (w : Outstanding) : Link := { k with nextTag := k.nextTag + 1, waiting := k.waiting ++ [w] }

/-- The occurrence whose claim on link `l` a path packet draws from: it has the path, and its meter is above zero (R384). -/
def Dev.claimOf (d : Dev) (l : Nat) (p : Packet) : Option OccKey :=
  if !p.path then none
  else
    (d.parts.toList.flatMap (·.occs)).findSome? (fun o =>
      if !o.delivered && !o.cancelled && (match o.paths with | some ps => ps.id == p.pathid.toNat | none => false) &&
        o.meter 0x0A (2 * l) != 0 then some o.key else none)

/-- Charge a path packet that leaves on link `l` to the meter that it draws from (R375, R384). -/
def Dev.chargePath (l : Nat) (p : Packet) (d : Dev) : Dev :=
  match d.claimOf l p with
  | none => d
  | some k => d.draw k 0x0A (2 * l) (1024 * ceilDiv (wireBytes p * 16) 17)

/-- Send what waits on a link that is UP, in the order of the classes, at most `fuel` packets (R372, R373). -/
def Dev.sendWaiting (l : Nat) : Nat → Dev → Dev
  | 0, d => d
  | fuel + 1, d =>
    let k := d.link l
    if !k.isUp then d
    else
      match k.next d.fab.addr d.hold.paused (fun p => (d.claimOf l p).isSome) with
      | none => d
      | some (x, claimed) =>
        ((if claimed then d.chargePath l x.1 else d).modLink l (fun k => k.sendAt d.fab.addr x claimed)).sendWaiting l fuel

/-- A link serves the packets that wait on it. -/
def Dev.service (l : Nat) (d : Dev) : Dev := d.sendWaiting l (d.link l).blocked.length

/-- Send a packet on link `l`: TIME, NOTICE, CAP and IDLE at once, any other behind what waits (R372). -/
def Dev.sendOn (l : Nat) (p : Packet) (d : Dev) : Dev :=
  if pktCredited p then (d.modLink l (fun k => { k with blocked := k.blocked ++ [p] })).service l
  else d.modLink l (·.transmit p)

/-- Send an RD for one piece of a peer read and note that its answer is awaited (R379, R381). `win` is the window address of
peer address `base`. -/
def Dev.sendRd (q : Req) (l : Nat) (win base : Nat) (pc : Nat × Nat) (d : Dev) : Dev :=
  let k := d.link l
  let lo := pc.1 / 32 * 32
  let units := (pc.1 + pc.2 + 31 - lo) / 32
  let p := packet 0x10 false (q.part.getD 0) k.far.toNat d.fab.addr.toNat (lo + (units - 1) * 2 ^ 52) (k.tag l)
  (d.modLink l (·.await { tag := k.tag l, typ := 0x10, addr := win + lo - base, len := units * 32, half := false,
                          src := q.src, flight := q.flight })).sendOn l p

/-- Send a WR or AT for one piece of a peer write (R379, R381). -/
def Dev.sendWr (q : Req) (l typ code : Nat) (data : List Byte) (poison mask : List Bool) (base : Nat) (pc : Nat × Nat)
    (d : Dev) : Dev :=
  let k := d.link l
  let off := pc.1 - base
  let lead := pc.1 % 32
  let body := padUnits 0 (List.replicate lead 0 ++ (data.drop off).take pc.2)
  let pois := padUnits false (List.replicate lead false ++ (List.range pc.2).map (fun i => poison.getD (off + i) false))
  let msk := padUnits false (List.replicate lead false ++ (List.range pc.2).map (fun i => mask.getD (off + i) true))
  let p := { packet typ false (q.part.getD 0) k.far.toNat d.fab.addr.toNat (pc.1 - lead + code * 2 ^ 52) (k.tag l)
             with payload := body, poisonBits := if pois.any id then pois else [],
                  maskBits := if msk.all id then [] else msk }
  (d.modLink l (·.await { tag := k.tag l, typ := typ, addr := pc.1, len := pc.2, half := false, src := q.src,
                          flight := q.flight })).sendOn l p

/-- The PCIe address that a host-window offset reaches (R438). -/
def Port.hostAddr (v : Port) (o : Nat) : Nat := v.slice (o / 0x400000000) / 4096 * 4096 + o % 0x400000000

/-- Note a PCIe request or completion that a port has sent: kind 3 a read, 4 a write, 5 a completion. -/
def Dev.answer (kind tag : Nat) (bs : List Byte) (ps : List Bool) (d : Dev) : Dev :=
  { d with answers := { kind := kind, tag := tag, bytes := bs, poison := ps } :: d.answers }

/-! ### Reads and writes of one request -/

/-- Whether the fabric lets this device send requests (R376). -/
def Dev.fabricOk (d : Dev) : Bool := d.fab.valid

/-- Cut bytes from address `a` upward into the runs that a mask selects and that a PCIe write request holds: at most 512 bytes,
crossing no 4 KiB boundary (R137, R431). Answers offsets and lengths. -/
def hostRuns (a : Nat) (mask : List Bool) : Nat → Nat → List (Nat × Nat)
  | 0, _ => []
  | fuel + 1, i =>
    let rest := hostRuns a mask fuel (i + 1)
    if !(mask.getD i true) then rest
    else
      match rest with
      | (j, k) :: more => if j = i + 1 ∧ k < 512 ∧ (a + j) % 4096 ≠ 0 then (i, k + 1) :: more else (i, 1) :: rest
      | [] => [(i, 1)]

/-! ### Reads and writes of one request -/

/-- The granules of a request that a failed channel or a retired page holds (R325, R362). -/
def Dev.deadGranules (d : Dev) (a n : Nat) : List Nat :=
  (hbmGranules a n).filter (fun g => let r := d.regionAt (max a (256 * g)); d.isFailed r || d.isRetired r)

/-- A read through a window whose answer has not come: it is asked for, or, after an earlier one of a serial requester, not yet
(R379, R381, R438). -/
def Dev.ask (q : Req) (a n : Nat) (send : Dev → Dev) (d : Dev) : Dev :=
  if q.await.got.contains (a, n) then d
  else if q.serial ∧ !d.stall.isEmpty then d
  else (send d).stalls a n

/-- One read request of at most 4 KiB inside one region: its bytes with their poison bits, and the device after it; `need`
is its byte mask (R36, R301, R312, R325, R347, R348, R362, R379, R503). What it finds is owed. Control space is served where
registers are (R33): here it is a hole. -/
def Dev.loadReq (t : TimeUnit) (q : Req) (a n : Nat) (need : Nat → Bool) (d : Dev) : (List Byte × List Bool) × Dev :=
  let r := d.regionAt a
  if d.mustWait a n then (d.answerBytes a n, d.stalls a n)
  else
    match r with
    | .hole => (d.answerBytes a n, d.countHole q a)
    | .control _ => (d.answerBytes a n, d.countHole q a)
    | .host v o =>
      (d.mem.bytes a n, d.ask q a n (fun d => (d.answer 3 ((d.portOf v).hostAddr o) [] []).modPort v (fun k =>
        { k with nextTag := k.nextTag + 1,
                 waiting := k.waiting ++ [{ tag := k.nextTag.toNat, typ := 3, addr := a, len := n, half := false,
                                            src := q.src, flight := q.flight }] })))
    | .peer l o =>
      if d.fabricOk then
        (d.mem.bytes a n, d.ask q a n (fun d =>
          (cutPieces 1024 (n / 32 + 4) ((peerAddr o).getD 0) n).foldl (fun d pc => d.sendRd q l a ((peerAddr o).getD 0) pc) d))
      else ((List.replicate n 0, List.replicate n false), d)
    | _ =>
      let d0 := match r with
        | .hbm s _ => d.chargeHbm t q s a n (fun _ => 32)
        | .cap b _ => d.chargeBlock q 4 b
        | .bay b _ => d.chargeBlock q 3 b
        | _ => d
      match regionBlock r with
      | none => (d0.answerBytes a n, d0)
      | some (k, src) =>
        let dead := d0.deadGranules a n
        let gone (i : Nat) : Bool := dead.contains ((a + i) / 256)
        let (es, d1) :=
          if dead.isEmpty then d0.checkWords t q.part a n need false 0
          else ((hbmGranules a n).filter (fun g => !dead.contains g)).foldl (fun (acc : List MemErr × Dev) g =>
            let lo := max a (256 * g)
            let (es, d) := acc.2.checkWords t q.part lo (min (a + n) (256 * g + 256) - lo) need false 0
            (acc.1 ++ es, d)) ([], d0)
        let bad := (List.range n).filter gone
        let deads := match bad with
          | [] => []
          | i :: _ =>
            let r' := d1.regionAt (a + i)
            let chan := match r' with | .hbm s o => (d1.stack s).chanOf o | _ => 0xFF
            [({ addr := a + i, bytes := bad.length, kind := if d1.isFailed r' then 3 else 4, code := b2n (d1.isLight r')
                chan := chan } : MemErr)]
        let d2 := match r with
          | .hbm s _ => d1.modStack s (fun k =>
            ((sectorsOf a n).filter (fun x => !dead.contains (x / 256))).foldl (fun k x => k.touch x) k)
          | _ => d1
        let ans := d2.answerBytes a n
        let d3 := d2.uncorrected q.part k src (es ++ deads)
        (if dead.isEmpty then ans
         else ((List.range n).map (fun i => if gone i then 0 else ans.1.getD i 0),
               (List.range n).map (fun i => gone i || ans.2.getD i false)), d3)

/-- The byte at an address as a controller returns it, after the requests that read it have been made. -/
def Dev.peek (d : Dev) (a : Nat) : Byte × Bool :=
  let r := d.regionAt a
  match r with
  | .hole => (0, false)
  | .control _ => (0, false)
  | _ =>
    if d.isFailed r ∨ d.isRetired r then (0, true)
    else
      match r with
      | .bay _ _ => d.rawByte false a
      | .yard _ _ => d.rawByte false a
      | .cap _ _ => d.rawByte (d.isLight r) a
      | _ => (d.mem.byte a, d.mem.isPoison a)

/-- The mask of a write without the bytes that dead granules hold (R325, R362). -/
def liveMask (a n : Nat) (dead : List Nat) (mask : List Bool) : List Bool :=
  if dead.isEmpty then mask else (List.range n).map (fun i => mask.getD i true && !dead.contains ((a + i) / 256))

/-- The read that a write of part of a sector or a memory-side operation begins with, for the sectors given: one record names
what it finds; `lost` is how many bytes of a sector then stay poisoned (R344, R348, R363). -/
def Dev.mergeReads (t : TimeUnit) (q : Req) (s : Nat) (lost : Nat → Nat) (xs : List Nat) (d : Dev) : Dev :=
  let (es, d1) := d.checkSectors t q.part s false 2 lost xs
  d1.uncorrected q.part (.stack s) (stackSrc s) es

/-- What the interface reports with a write of whole sectors: a parity error that the retry does not mend poisons the sector's
data; a report about a read goes with the data it was about (R322). Answers the poison bits as written. -/
def Dev.writeReports (t : TimeUnit) (q : Req) (s a : Nat) (poison : List Bool) (n : Nat) (xs : List Nat) (d : Dev) :
    List Bool × Dev :=
  let hit := xs.filter (fun x => tabGet 0 (d.stack s).dies x != 0)
  if hit.isEmpty then (poison, d)
  else
    let (bad, d1) := hit.foldl (fun (acc : List Nat × Dev) x =>
      let code := tabGet 0 (acc.2.stack s).dies x
      let d' := (acc.2.dieReport t s x false).2
      if code = 3 then (acc.1, d')
      else if code = 4 then (acc.1 ++ [x], d')
      else (acc.1, acc.2.modStack s (fun k => { k with dies := tabSet 0 k.dies x 0 }))) ([], d)
    let es : List MemErr := bad.map (fun x =>
      { addr := x, bytes := 32, kind := 2, code := b2n (d1.isLight (d1.regionAt x)), chan := (d1.stack s).chanOf (x - hbmBase s) })
    ((List.range n).map (fun i => poison.getD i false || bad.contains ((a + i) / 32 * 32)), d1.uncorrected q.part (.stack s) (stackSrc s) es)

/-- One write request of at most 4 KiB inside one region; `mask` selects the bytes written (R36, R137, R301, R312, R318, R322,
R325, R344, R349, R362, R379). What it finds is owed. -/
def Dev.saveReq (t : TimeUnit) (q : Req) (a : Nat) (data : List Byte) (poison mask : List Bool) (d : Dev) : Dev :=
  let n := data.length
  let r := d.regionAt a
  if d.mustWait a n then d.stalls a n
  else
    match r with
    | .hole => d.countHole q a
    | .control _ => d.countHole q a
    | .host v o =>
      let far := (d.portOf v).hostAddr o
      (hostRuns far mask n 0).foldl (fun d x => d.answer 4 (far + x.1) ((data.drop x.1).take x.2) ((poison.drop x.1).take x.2))
        (d.modMem (·.putAll a data poison mask))
    | .peer l o =>
      let d1 := d.modMem (·.putAll a data poison mask)
      let base := (peerAddr o).getD 0
      if d.fabricOk then
        (cutPieces 512 (n / 32 + 4) base n).foldl (fun d pc => d.sendWr q l 0x11 0 data poison mask base pc) d1
      else d1
    | .hbm s _ =>
      let parts := partialSectors a n mask
      let d0 := d.chargeHbm t q s a n (fun x => if parts.contains x then 64 else if coveredBytes a n mask x = 0 then 0 else 32)
      let dead := d0.deadGranules a n
      let live := parts.filter (fun x => !dead.contains (x / 256))
      let whole := (sectorsOf a n).filter (fun x => coveredBytes a n mask x == 32 && !dead.contains (x / 256))
      let d1 := d0.mergeReads t q s (fun x => 32 - coveredBytes a n mask x) live
      let (ps, d2) := d1.writeReports t q s a poison n whole
      (d2.modStack s (fun k =>
        (live ++ whole).foldl (fun k x => k.touch x) { k with cnt := vmod k.cnt 1 (fun c => c.addHi live.length) })).modMem
        (·.putAll a data ps (liveMask a n dead mask))
    | .cap b _ =>
      let d0 := d.chargeBlock q 4 b
      d0.modMem (·.putAll a data poison (liveMask a n (d0.deadGranules a n) mask))
    | .bay b _ => (d.chargeBlock q 3 b).modMem (·.putAll a data poison mask)
    | .yard _ _ => d.modMem (·.putAll a data poison mask)

end Sys2Proof.Machine
end

