-- ==== Sys2Proof/Machine/Rings.lean ====
section
/-! DEFINITION. The rings of a partition's platform in memory, and the records that go to them: what the serving core reads and
writes there, sequence numbers, EV_LOST, the administrative ring, in-band interrupts (R10 to R14, R441, R442, R447, R448, R453,
R471). -/

namespace Sys2Proof.Machine

/-- Bytes as numbers. -/
def natBytes (bs : List Byte) : List Nat := bs.map (·.toNat)

/-- Numbers as bytes. -/
def byteList (ns : List Nat) : List Byte := ns.map (BitVec.ofNat 8)

/-! ### The serving core (R442) -/

/-- The pier of a partition's lowest quarter (R434). -/
def Part.pierOf (p : Part) : Option Nat := ((maskBits 16 p.quarters.toNat).head?).map (· / 4)

/-- Whether station core `c` is present. -/
def Dev.corePresent (d : Dev) (c : Nat) : Bool :=
  (d.pier (c / 4)).present && (d.pier (c / 4)).cores.toNat.testBit (c % 4)

/-- The station core that serves partition `q`'s platform; without a quarter, the lowest-numbered present core (R12,
R442). -/
def Dev.serving (d : Dev) (q : Nat) : Nat :=
  match (d.part q).pierOf with
  | some p =>
    (((List.range 4).map (fun i => 4 * p + (q + i) % 4)).find? d.corePresent).getD (4 * p + q % 4)
  | none => ((List.range 16).find? d.corePresent).getD 0

/-- The serving core as a requester: firmware belongs to no partition (R311). -/
def Dev.coreReq (d : Dev) (q : Nat) : Req := { src := coreSrc (d.serving q), part := none, func := none, occ := none, serial := true }

/-! ### Jobs that wait -/

/-- Take on a job at the end of those that wait. -/
def Dev.enqueue (w : Work) (spans : List (Nat × Nat)) (d : Dev) : Dev :=
  { d with held := d.held ++ [{ id := d.nextJob, work := w, await := Await.none, spans := spans }], nextJob := d.nextJob + 1 }

/-- Whether a job waits. -/
def Dev.hasJob (w : Work) (d : Dev) : Bool := d.held.any (fun h => h.work == w)

/-- Whether a posted write of a core waits. -/
def Dev.posting (d : Dev) (src : Nat) : Bool :=
  d.held.any (fun h => match h.work with | .mem (.write _ _ _ _ s none) => s == src | _ => false)

/-- A write that the serving core of partition `q` posts: it lands at once, as a PCIe write or a WR where it leaves through a
window, or waits behind the core's earlier ones (R34, R35, R302, R344, R362, R441). Bytes that
it copies keep their poison, and its own are good (R350). -/
def Dev.post (t : TimeUnit) (q a : Nat) (bs : List Nat) (ps : List Bool) (d : Dev) : Dev :=
  let w := d.coreReq q
  if d.mustWait a bs.length ∨ d.posting w.src then
    d.enqueue (.mem (.write a (byteList bs) ps [] w.src none)) [(a, bs.length)]
  else d.saveReq t w a (byteList bs) ps []

/-! ### Rings (R441, R448) -/

/-- Take CONS of a completion or event ring as read; a poisoned word counts as a full ring (R448). -/
def Dev.takeCons (q r : Nat) (x : List Byte × List Bool) (d : Dev) : Dev :=
  d.modPart q (fun p => p.modRing r (fun c =>
    { c with cons := if x.2.any id then c.prod - w32 (p.ringSize r) else w32 (ofBytes (natBytes x.1)) }))

/-- Whether a read at an address is answered at once: it lies in this device's memory, and that serves requests now. -/
def Dev.answersNow (d : Dev) (a n : Nat) : Bool :=
  !d.mustWait a n && match d.regionAt a with | .host _ _ => false | .peer _ _ => false | _ => true

/-- Read CONS of a completion or event ring from its header: at once, or as a job that asks for it and waits (R441, R448). -/
def Dev.readCons (t : TimeUnit) (q r : Nat) (d : Dev) : Dev :=
  let a := (d.part q).ringBase r + 32
  if !((d.part q).ring r).known then d
  else if d.answersNow a 4 then
    let (x, d1) := d.loadReq t (d.coreReq q) a 4 (fun _ => true)
    d1.takeCons q r x
  else if d.hasJob (.cons q r) then d
  else d.enqueue (.cons q r) []

/-- Put one 64-byte entry into ring `r` of partition `q`, with `mark` the bit of byte 1 that says entries were lost before
it; an entry that finds no ring, a full one, or one whose counts are not yet read, is discarded (R14, R441, R448). PROD
follows the entry. A ring whose header has not been read yet counts as not there (DESIGN CHOICE, log entry 126). -/
def Dev.ringPut (t : TimeUnit) (q r : Nat) (mark : Nat) (bs : List Nat) (ps : List Bool) (d : Dev) : Dev :=
  let lose (d : Dev) : Dev := d.modPart q (fun p => p.modRing r (fun c => { c with lost := true }))
  let p0 := d.part q
  if !(p0.en && p0.platEn && (p0.ring r).known) then lose d
  else
    let d1 := if p0.ringSize r ≤ (p0.ring r).used then d.readCons t q r else d
    let p := d1.part q
    let c := p.ring r
    if p.ringSize r ≤ c.used then lose d1
    else
      let a := p.ringBase r + 64 + 64 * (c.prod.toNat % p.ringSize r)
      let bs' := if c.lost then bs.set 1 (bs.getD 1 0 ||| mark) else bs
      ((d1.post t q a bs' ps).post t q (p.ringBase r) (toBytes 4 (c.prod + 1).toNat) []).modPart q
        (fun p => p.modRing r (fun c => { c with prod := c.prod + 1, lost := false, fresh := true }))

/-- The partition that the administrative function owns (R447). -/
def Dev.adminPart (d : Dev) : Option Nat :=
  (List.range 16).find? (fun q =>
    (d.part q).en && (d.part q).func == 0 && (d.part q).port == 0)

/-! ### Records (R10 to R13, R447, R453) -/

/-- Put a record into partition `q`'s event ring (R447, R448). -/
def Dev.eventPut (t : TimeUnit) (q : Nat) (r : EvRec) (d : Dev) : Dev := d.ringPut t q 2 8 r.bytes []

/-- Put a device record into the administrative ring; until that ring is first enabled the signal box holds up to 256
(R447, R453). -/
def Dev.adminPut (t : TimeUnit) (r : EvRec) (d : Dev) : Dev :=
  if !d.bond.heldOpen then
    if d.bond.held.length < 256 then { d with bond := { d.bond with held := d.bond.held ++ [r] } }
    else { d with bond := { d.bond with heldLost := true } }
  else
    match d.adminPart with
    | some q => d.eventPut t q r
    | none => d

/-- Raise an in-band interrupt for a device record of class HOLD, CAUTION, CHANNEL_MAPPED_OUT or LINK_DEGRADE, at most
once per millisecond (R471). -/
def Dev.ibi (t : TimeUnit) (d : Dev) (cls : Nat) : Dev :=
  if (cls = 0x07 ∨ cls = 0x06 ∨ cls = 0x09 ∨ cls = 0x0C) ∧ d.box.ibiEn ∧
      optAll d.box.lastIbi (fun u => decide (u + 1000000 ≤ t.now)) then
    d.modBox (fun x => { x with lastIbi := some t.now, ibis := cls :: x.ibis })
  else d

/-- Stamp a record with its sequence number, line time and STEP (R11, R13); before publication STEP reads 0 and line time
counts from release of reset (R453). A class whose chapter names its own STEP passes it as `s` (R288, R420). -/
def Dev.stamp (t : TimeUnit) (d : Dev) (r : EvRec) (s : Option W64) : EvRec × Dev :=
  let n := tabGet 0 d.evSeq r.source.toNat
  let boot := d.box.stage.toNat < 3
  ({ r with seq := n, ltime := if boot then t.ltime - d.box.bootAt else t.ltime, step := if boot then 0 else s.getD d.step },
   { d with evSeq := tabSet 0 d.evSeq r.source.toNat (n + 1) })

/-- Write one record of partition `q`, or a device record for `none` (R447). HOLD and CAUTION device records also go to
every enabled partition's ring. -/
def Dev.putRecord (t : TimeUnit) (q : Option Nat) (r : EvRec) (s : Option W64) (d : Dev) : Dev :=
  match q with
  | some q =>
    let (r', d') := d.stamp t { r with part := BitVec.ofNat 4 q } s
    ({ d' with records := r' :: d'.records }).eventPut t q r'
  | none =>
    let (r', d') := d.stamp t { r with part := 0, stream := 3 } s
    let d1 := (({ d' with records := r' :: d'.records }).adminPut t r').ibi t r'.cls.toNat
    if r'.cls = 0x07 ∨ r'.cls = 0x06 then
      (List.range 16).foldl (fun d q =>
        if (d.part q).en ∧ d.adminPart ≠ some q then d.eventPut t q r' else d) d1
    else d1

/-- Write the records that requests have given rise to, in order, at most `fuel` of them: writing one may give rise to another. -/
def Dev.settle (t : TimeUnit) : Nat → Dev → Dev
  | 0, d => d
  | fuel + 1, d =>
    match d.owed with
    | [] => d
    | (q, r) :: rest => (({ d with owed := rest }).putRecord t q r none).settle t fuel

/-- Write every record that is owed. -/
def Dev.flushOwed (t : TimeUnit) (d : Dev) : Dev := if d.owed.isEmpty then d else d.settle t (d.owed.length + 16)

/-- Write a record of partition `q`, or a device record, and then what its ring writes gave rise to. -/
def Dev.emitStep (t : TimeUnit) (q : Option Nat) (r : EvRec) (s : Option W64) (d : Dev) : Dev := (d.putRecord t q r s).flushOwed t

/-- Write a record whose EV_STEP is the STEP now. -/
def Dev.emit (t : TimeUnit) (q : Option Nat) (r : EvRec) (d : Dev) : Dev := d.emitStep t q r none

/-- The partition that a PCIe function owns (R434). -/
def Dev.partOf (d : Dev) (f : Func) : Option Nat :=
  (List.range 16).find? (fun q =>
    (d.part q).en && (d.part q).func.toNat == f.num && (d.part q).port.toNat == f.port)

/-- A POLICY_CONFLICT record for a discarded write, to the writer's partition or to the administrative ring (R12, R447). -/
def Dev.conflict (t : TimeUnit) (q : Req) (src : Nat) (count : Nat) (d : Dev) : Dev :=
  let r := { record 0x0B src with count := w64 count }
  match q.part with
  | some p => d.emit t (some p) r
  | none => d.emit t none r

/-- The applied set of repairs has changed: a repair record is due, in the next write if one is running (R464). -/
def Dev.repairDue (d : Dev) : Dev :=
  d.modBox (fun x => { x with repPending := true, repAgain := x.repAgain || x.repWriting.isSome })

/-- The bond table changes at the next slot boundary (R474). -/
def Dev.bondDue (d : Dev) : Dev := { d with bond := { d.bond with dirty := true } }

/-- Write the held boot records to the administrative ring, in order, when it is first enabled (R453). -/
def Dev.flushHeld (t : TimeUnit) (d : Dev) : Dev :=
  if d.bond.heldOpen then d
  else
    match d.adminPart with
    | none => d
    | some q =>
      if !((d.part q).platEn && ((d.part q).ring 2).known) then d
      else
        let d1 := (d.bond.held.foldl (fun (d : Dev) r => d.eventPut t q r)
          { d with bond := { d.bond with held := [], heldOpen := true } }).flushOwed t
        if d.bond.heldLost then d1.modPart q (fun p => p.modRing 2 (fun c => { c with lost := true })) else d1

end Sys2Proof.Machine
end

