-- ==== Sys2Proof/Machine/Ops.lean ====
section
/-! DEFINITION. The named operations over memory: reads and writes of one request and of any length, with the records they give
rise to, and jobs that may have to wait (R36, R137, R141, R301, R302, R313, R321, R323, R381). -/

namespace Sys2Proof.Machine

/-- One read request of at most 4 KiB inside one region: its bytes with their poison bits, and the device after it; `need`
is its byte mask (R36, R301, R347, R348, R503). -/
def Dev.readMask (t : TimeUnit) (q : Req) (a n : Nat) (need : Nat → Bool) (d : Dev) : (List Byte × List Bool) × Dev :=
  let r := d.loadReq t q a n need
  (r.1, r.2.flushOwed t)

/-- One read request whose byte mask is full. -/
def Dev.read (t : TimeUnit) (q : Req) (a n : Nat) (d : Dev) : (List Byte × List Bool) × Dev :=
  d.readMask t q a n (fun _ => true)

/-- One write request of at most 4 KiB inside one region; `mask` selects the bytes written (R36, R137, R301, R344). -/
def Dev.write (t : TimeUnit) (q : Req) (a : Nat) (data : List Byte) (poison mask : List Bool) (d : Dev) : Dev :=
  (d.saveReq t q a data poison mask).flushOwed t

/-- Check what a request touches, with its records (R347, R348). -/
def Dev.check (t : TimeUnit) (q : Option Nat) (a n : Nat) (need : Nat → Bool) (scrub : Bool) (kind : Nat) (d : Dev) : Dev :=
  (d.checkRange t q a n need scrub kind).flushOwed t

/-- A read of any length, cut at 64-byte blocks (R141). -/
def Dev.readBlocks (t : TimeUnit) (q : Req) : Nat → Nat → Nat → Dev → (List Byte × List Bool) × Dev
  | 0, _, _, d => (([], []), d)
  | fuel + 1, a, n, d =>
    if n = 0 then (([], []), d)
    else
      let k := min n (64 - a % 64)
      let (x, d1) := d.read t q a k
      let (y, d2) := d1.readBlocks t q fuel (a + k) (n - k)
      ((x.1 ++ y.1, x.2 ++ y.2), d2)

/-- Read `n` bytes in 64-byte blocks. -/
def Dev.fetch (t : TimeUnit) (q : Req) (a n : Nat) (d : Dev) : (List Byte × List Bool) × Dev :=
  d.readBlocks t q (n / 64 + 2) a n

/-- A write of any length, cut at 64-byte blocks (R141). -/
def Dev.storeBlocks (t : TimeUnit) (q : Req) : Nat → Nat → List Byte → List Bool → List Bool → Dev → Dev
  | 0, _, _, _, _, d => d
  | fuel + 1, a, data, poison, mask, d =>
    match data with
    | [] => d
    | _ =>
      let k := min data.length (64 - a % 64)
      (d.write t q a (data.take k) (poison.take k) (mask.take k)).storeBlocks t q fuel (a + k) (data.drop k)
        (poison.drop k) (mask.drop k)

/-- Write bytes in 64-byte blocks; an empty mask writes every byte. -/
def Dev.store (t : TimeUnit) (q : Req) (a : Nat) (data : List Byte) (poison : List Bool) (mask : List Bool) (d : Dev) :
    Dev :=
  d.storeBlocks t q (data.length / 64 + 2) a data poison mask

/-- Take a fresh free value: the spec leaves the value open, and nothing constrains it (DESIGN CHOICE, log entry 3). -/
def Dev.takeFree (d : Dev) : W64 × Dev := (Config.freeValue d.free, { d with free := d.free + 1 })

/-! ### Jobs -/

/-- Whether any request made for a flight or a job still awaits its response (R381). -/
def Dev.awaits (d : Dev) (b id : Nat) : Bool :=
  (List.range 32).any (fun l => (d.link l).waiting.any (fun w => w.flight == some (b, id))) ||
  (List.range 4).any (fun v => (d.portOf v).waiting.any (fun w => w.flight == some (b, id)))

/-- What a link or a port awaits beyond what it awaited before: the reads only. -/
def newWaits (ws ws' : List Outstanding) : List Outstanding :=
  (ws'.drop ws.length).filter (fun w => w.typ == 0x10 || w.typ == 3)

/-- The read requests that a link's new outstanding reads `ws` left with, in `k'`, oldest first. -/
def Link.readPackets (k k' : Link) (ws : List Outstanding) : List Packet :=
  ((k'.sent.take (k'.sent.length - k.sent.length)).reverse ++ k'.blocked).filter (fun p =>
    p.typ == 0x10 && ws.any (fun w => w.tag == p.tag.toNat))

/-- Make the reads through the peer window of link `l` that a device that has run ahead has made, and nothing else of it (R379). -/
def Dev.askLink (d' : Dev) (l : Nat) (d : Dev) : Dev :=
  let ws := newWaits (d.link l).waiting (d'.link l).waiting
  if ws.isEmpty then d
  else ((d.link l).readPackets (d'.link l) ws).foldl (fun d p => d.sendOn l p)
    (d.modLink l (fun k => { k with nextTag := (d'.link l).nextTag, waiting := k.waiting ++ ws }))

/-- Make the reads through peer and host windows that a device that has run ahead has made, and nothing else of it
(R379). -/
def Dev.askRemote (d d' : Dev) : Dev :=
  (List.range 32).foldl (fun d l => Dev.askLink d' l d) { d with
    ports := Vector.ofFn (fun v : Fin 4 =>
      let k := d.ports[v]
      let k' := d'.ports[v]
      { k with nextTag := k'.nextTag, waiting := k.waiting ++ newWaits k.waiting k'.waiting })
    answers := (d'.answers.take (d'.answers.length - d.answers.length)).filter (fun a => a.kind == 3) ++ d.answers }

/-- Run the effect of a job that has waited as `w` says, whole or not at all. Where a request of it cannot be answered yet,
only its reads through windows leave, and it waits; where a HARD regulator lets its last request through later, it waits until
then. Answers what it waits for, if it waits, with the memory its requests touch (R313, R321, R323, R381). -/
def Dev.attempt (t : TimeUnit) (w : Await) (effect : Await → Dev → Dev) (d : Dev) : Option (Await × List (Nat × Nat)) × Dev :=
  if t.now < w.due then (some (w, []), d)
  else
    let d' := (effect w { d with stall := [], late := 0 }).flushOwed t
    if !d'.stall.isEmpty then (some ({ w with got := w.got ++ d'.stall }, d'.stall), d.askRemote d')
    else if t.now < d'.late then
      (some ({ w with due := d'.late }, []),
       { d with hbms := Vector.ofFn (fun s : Fin 12 => { d.hbms[s] with regs := d'.hbms[s].regs }) })
    else (none, { d' with stall := [], late := 0 })

/-- The requester that a unit of a bay is, working for an instruction (R311). -/
def bayReq (kind b : Nat) (part : Option Nat) (occ : Option OccKey) : Req :=
  { src := baySrc kind b, part := part, func := none, occ := occ }

/-- The signal box itself (R37). -/
def boxReq : Req := { src := plainSrc 0x30 0, part := none, func := none, occ := none }

/-- The partition that holds bay `b`'s quarter and is enabled (R434). -/
def Dev.partOfBay (d : Dev) (b : Nat) : Option Nat :=
  (List.range 16).find? (fun q => (d.part q).en && (d.part q).quarters.toNat.testBit (b / 4))

end Sys2Proof.Machine
end

