-- ==== Sys2Proof/Machine/Timetable.lean ====
section
/-! DEFINITION. Timetables and occurrences: slots, promises, meters, withdrawals, LATE and PHASE_RECORD records, completion
tokens, and the notices that tell partners (R45 to R60, R70, R77, R87, R88, R113, R396, R398, R498). -/

namespace Sys2Proof.Machine

/-! ### Notices and routes (R376, R377, R396) -/

/-- The link a packet for fabric address `a` leaves on: PRIM while it is UP, otherwise ALT while it is UP (R377). -/
def Dev.routeTo (d : Dev) (a : Nat) : Option Nat :=
  let w := tabGet 0 d.fab.routes a
  let prim := fld w 0 5
  let alt := fld w 8 5
  if bit w 5 ∧ (d.link prim).isUp then some prim
  else if bit w 13 ∧ (d.link alt).isUp then some alt
  else none

/-- A NOTICE packet (R396). -/
def notice (d : Dev) (kind cause init seq slot value daddr : Nat) : Packet :=
  { packet 0x03 false 0 daddr d.fab.addr.toNat 0 0 with
    payload := byteList ([kind, cause] ++ toBytes 2 init ++ toBytes 2 seq ++ [0, 0] ++ toBytes 8 slot ++ toBytes 8 value ++
      List.replicate 8 0) }

/-- Send a notice on every link that is UP, but for those that `skip` names (R397). -/
def Dev.flood (p : Packet) (skip : Nat → Bool) (d : Dev) : Dev :=
  { d with links := Vector.ofFn (fun l : Fin 32 =>
      if d.links[l].isUp && !(skip l.val) then d.links[l].transmit p else d.links[l]) }

/-- Send on a notice that has arrived; a device without a valid fabric address forwards nothing (R376, R397). -/
def Dev.forward (p : Packet) (skip : Nat → Bool) (d : Dev) : Dev := if d.fab.valid then d.flood p skip else d

/-- Send a packet toward its DADDR; without a route it is counted in NOROUTE of link 0 of viaduct 0 (R377; DESIGN CHOICE, log entry 31). -/
def Dev.sendRouted (p : Packet) (d : Dev) : Dev :=
  match d.routeTo p.daddr.toNat with
  | some l => d.sendOn l p
  | none => d.modLink 0 (fun k => { k with cnt := vmod k.cnt 2 (fun c => c.addLo 1) })

/-! ### Slots of an occurrence (R45, R48) -/

/-- The shift S of an occurrence's timetable (R45). -/
def Dev.shiftOf (d : Dev) (shift0 : Nat) : Nat := d.shift.toNat - shift0

/-- The departure slot of an occurrence as a line slot (R79). -/
def Dev.depSlot (d : Dev) (o : Occ) : Nat := o.base + o.key.k * o.period + o.te.depart + d.shiftOf o.shift0

/-- The promised slot of an occurrence (R48). -/
def Dev.promise (d : Dev) (o : Occ) : Nat := d.depSlot o + o.te.span - 1

/-- The bays of an entry (R46): bay 4q + i for each set bit i of TE_BAYMASK. -/
def TEntry.bays (e : TEntry) : List Nat := (maskBits 4 e.baymask).map (fun i => 4 * e.quarter + i)

/-- The bit of an entry's mask that names bay `b`. -/
def TEntry.names (e : TEntry) (b : Nat) : Bool := b / 4 == e.quarter && e.baymask.testBit (b % 4)

/-- A path set of a timetable by TE_PATHSET (R382). -/
def Timetable.pathSet (tt : Timetable) (i : Nat) : Option PathSet := tt.paths.find? (fun p => p.index = i)

/-- A fresh record of the occurrence of entry `e` in step `k`. -/
def Timetable.occ (tt : Timetable) (q e k : Nat) (te : TEntry) : Occ :=
  { key := { part := q, gen := tt.gen, entry := e, k := k }, te := te, base := tt.base, period := tt.period,
    shift0 := tt.shift0, paths := tt.pathSet te.pathset, ctoken := none, bound := 0, closed := 0, reached := false,
    delivered := false, cancelled := false, withdrawn := false, expect := none, start := none, depAt := none, unlinked := false,
    heard := none, meters := [], emptied := 0 }

/-- Whether step `k` exists in a timetable (R498). -/
def Timetable.hasStep (tt : Timetable) (k : Nat) : Bool := tt.steps == 0 || decide (k < tt.steps)

/-- The record of an occurrence of a timetable, made if it does not exist yet. -/
def Dev.ensureOcc (d : Dev) (q : Nat) (tt : Timetable) (e k : Nat) : Option (Occ × Dev) :=
  match tt.entries[e]? with
  | none => none
  | some te =>
    if !tt.hasStep k then none
    else
      match d.occ { part := q, gen := tt.gen, entry := e, k := k } with
      | some o => some (o, d)
      | none =>
        let o := tt.occ q e k te
        some (o, d.modPart q (fun p => { p with occs := p.occs ++ [o] }))

/-- Every installed or staged timetable, with its partition (R498). -/
def Dev.timetables (d : Dev) : List (Nat × Timetable) :=
  ((List.range 16).map (fun q =>
    (match (d.part q).installed with | some t => [(q, t)] | none => []) ++
    (match (d.part q).staged with | some t => [(q, t)] | none => []))).flatten

/-- Whether any timetable is installed on the device, a staged one counting (R498). -/
def Dev.anyTimetable (d : Dev) : Bool := !d.timetables.isEmpty

/-- Whether an occurrence is still owed: neither delivered nor cancelled. -/
def Occ.open (o : Occ) : Bool := !o.delivered && !o.cancelled

/-- Every undelivered occurrence of the device. -/
def Dev.openOccs (d : Dev) : List Occ :=
  ((List.range 16).map (fun q => (d.part q).occs.filter Occ.open)).flatten

/-! ### Meters (R56, R312, R384) -/

/-- The meters of an entry's claims in one slot of length `L` (R56, R308, R312, R384). -/
def claimMeters (e : TEntry) (ps : Option PathSet) (L : Nat) : List Meter :=
  let per (code claim unit : Nat) : List Meter :=
    if claim = 0 then [] else e.bays.map (fun b => { code := code, index := b, left := claim * unit })
  let pier := e.quarter / 4
  per 1 e.array (L / 256) ++ per 2 e.vector (L / 256) ++ per 3 e.bstore (8 * L) ++ per 4 e.capnear L ++
  (if e.capfar = 0 then [] else
    [{ code := 4, index := e.fartile, left := e.capfar * L * e.bays.length }]) ++
  (if e.hbmshare = 0 then [] else
    (maskBits 12 e.hbmmask).map (fun s => { code := 5, index := s, left := e.hbmshare * 24 * L })) ++
  (if e.updu = 0 then [] else [{ code := 6, index := pier, left := e.updu * L / 256 }]) ++
  (if e.ptsu = 0 then [] else [{ code := 7, index := pier, left := e.ptsu * L / 256 }]) ++
  (match ps with
   | none => []
   | some p => p.claims.map (fun c =>
      { code := 0x0A, index := 2 * c.link + b2n c.inbound, left := c.share * 188 * L }))

/-- Whether an occurrence's span covers a slot. -/
def Dev.inSpan (d : Dev) (o : Occ) (slot : Nat) : Bool :=
  decide (d.depSlot o ≤ slot) && decide (slot ≤ d.promise o)

/-- The meters of an occurrence at the start of a slot: its claims inside the span, none outside (R56); none on links once a link has
taken its promise (R385). -/
def Dev.loadMeters (t : TimeUnit) (d : Dev) (o : Occ) : Occ :=
  if o.open && o.bound != 0 && d.inSpan o t.slot then
    { o with meters := claimMeters o.te (if o.unlinked then none else o.paths) t.slotLen }
  else { o with meters := [] }

/-- Reload every meter at a slot boundary (R56). -/
def Dev.reloadMeters (t : TimeUnit) (d : Dev) : Dev :=
  { d with parts := d.parts.map (fun p => { p with occs := p.occs.map (d.loadMeters t) }) }

/-! ### Withdrawals (R57, R60, R398) -/

/-- LATE cause codes (R57). -/
def lateSafety : Nat := 0x01
def lateRetrain : Nat := 0x02
def lateLink : Nat := 0x03
def lateTime : Nat := 0x04
def lateFault : Nat := 0x05
def lateOverrun : Nat := 0x06
def latePeer : Nat := 0x07
def lateReset : Nat := 0x08

/-- All ones: a new expected slot that is not known (R60). -/
def noSlot : Nat := 0xFFFFFFFFFFFFFFFF

/-- The LATE record of an occurrence (R12, R60). -/
def Dev.lateRecord (d : Dev) (o : Occ) (cause slot : Nat) : EvRec :=
  { record 0x01 (coreSrc (d.serving o.key.part)) with
    withdrawn := true, stream := BitVec.ofNat 2 o.te.stream, entry := w32 o.key.entry, count := w64 (d.promise o)
    detail := detail [(48, 1, cause), (52, 8, slot), (60, 4, o.te.tag)] }

/-- Tell every other member of an occurrence's path set that it is late (R398). -/
def Dev.sendPeerLate (o : Occ) (slot : Nat) (d : Dev) : Dev :=
  match o.paths with
  | none => d
  | some ps =>
    ((List.range ps.n).filter (· != ps.rank)).foldl (fun d r =>
      d.sendRouted (notice d 5 0 d.fab.addr.toNat ps.id slot 0 (ps.members.getD r 0))) d

/-- Withdraw an undelivered occurrence: mark it, write its LATE record, and tell collective partners unless the cause is
PEER (R57, R398). -/
def Dev.withdraw (t : TimeUnit) (cause slot : Nat) (k : OccKey) (d : Dev) : Dev :=
  match d.occ k with
  | none => d
  | some o =>
    if !o.open then d
    else
      let d1 := (d.modOcc k (fun o => { o with withdrawn := true, expect := some slot })).emit t (some k.part)
        (d.lateRecord o cause slot)
      if o.te.coll ∧ cause ≠ latePeer then d1.sendPeerLate o slot else d1

/-- Cancel an occurrence: it is never delivered (R88). -/
def Dev.cancel (k : OccKey) (d : Dev) : Dev := d.modOcc k (fun o => { o with cancelled := true, meters := [] })

/-- Withdraw and cancel. -/
def Dev.withdrawCancel (t : TimeUnit) (cause : Nat) (k : OccKey) (d : Dev) : Dev :=
  (d.withdraw t cause noSlot k).cancel k

/-- The completion token of an occurrence for a void mark: its own, or that of the most recent earlier occurrence of its entry
that was bound, also where its timetable has since been replaced or removed (R87). -/
def Dev.voidToken (d : Dev) (o : Occ) : Option Nat :=
  match o.ctoken with
  | some c => some c
  | none =>
    (((d.part o.key.part).occs.filter (fun x =>
        x.ctoken.isSome && x.key.gen == o.key.gen && x.key.entry == o.key.entry && decide (x.key.k < o.key.k))).foldl
      (fun (m : Option Occ) x => if optAll (m.map (·.key.k)) (fun k => decide (k < x.key.k)) then some x else m) none).bind (·.ctoken)

/-- Whether the tokens that stream `s` waits for are all set, and none of them void-marked where it waits at a DEPART (R84,
R113). -/
def Bay.tokensMet (y : Bay) (s : Nat) : Bool :=
  let x := y.stream s
  match x.wait with
  | none => false
  | some w =>
    let sync : Bool := x.state == .waitToken || (x.state == .held && x.resumeTo == .waitToken)
    y.tokens &&& w.mask == w.mask && (sync || y.void &&& w.mask == 0)

/-- The streams whose wait for tokens has been met so far: what is noted before tokens go or marks come (R85, R89). -/
def Bay.nowMet (y : Bay) : List Nat := (List.range 3).filter (fun s => y.met.contains s || y.tokensMet s)

/-- Put a void mark with a fault class on token `c` of the bays of an entry (R77, R113). A token that carries a mark already
takes the class of the new one (DESIGN CHOICE, log entry 119). -/
def Dev.markVoid (te : TEntry) (c cls : Nat) (d : Dev) : Dev :=
  te.bays.foldl (fun d b => d.modBay b (fun y =>
    { y with met := y.nowMet, void := y.void ||| BitVec.ofNat 64 (2 ^ c), voidClass := tabSet 0 y.voidClass c cls })) d

/-- Withdraw and cancel an occurrence and void-mark its completion token in every bay of its mask (R77, R113). -/
def Dev.voidOcc (t : TimeUnit) (cause cls : Nat) (k : OccKey) (d : Dev) : Dev :=
  match d.occ k with
  | none => d
  | some o =>
    if !o.open then d
    else
      let d1 := d.withdrawCancel t cause k
      match d.voidToken o with
      | some c => d1.markVoid o.te c cls
      | none => d1

/-! ### Delivery (R55, R70, R87, R445) -/

/-- The PHASE_RECORD of a delivered occurrence (R70): both times are relative to its departure boundary, where that lay when it
departed. -/
def Dev.phaseRecord (t : TimeUnit) (d : Dev) (o : Occ) : EvRec :=
  let dep : Int := (o.depAt.getD (d.depSlot o) * t.slotLen : Nat)
  { record 0x0D (coreSrc (d.serving o.key.part)) with
    stream := BitVec.ofNat 2 o.te.stream, entry := w32 o.key.entry, count := w64 (d.promise o)
    detail := detail [(48, 4, unsx 32 (o.start.getD dep - dep)), (52, 4, unsx 32 ((t.now : Int) - dep)),
      (56, 4, o.emptied), (60, 4, o.te.tag)] }

/-- The DELIVERY record of an occurrence of entry `e` with its note (R445). -/
def deliveryBytes (e promise now : Nat) (note : List Nat) : List Nat :=
  [0x84, 0, 0, 0, 0, 0, 0, 0] ++ toBytes 8 promise ++ toBytes 4 e ++ [0, 0, 0, 0] ++ toBytes 8 now ++ note

/-- The job that an occurrence's delivery leaves to the serving core, where its timetable came with a notify bitmap: it reads bit
`e` of the bitmap and, when that is 1, the note, and writes the DELIVERY record (R443, R445). -/
def Dev.noteJob (t : TimeUnit) (d : Dev) (o : Occ) : Option Work :=
  match [(d.part o.key.part).installed, (d.part o.key.part).staged].find? (fun x =>
      match x with | some tt => tt.gen == o.key.gen | none => false) with
  | some (some tt) =>
    if tt.notify ≠ 0 then some (.note o.key.part o.key.entry (d.promise o) t.now tt.notify tt.noteBase) else none
  | _ => none

/-- Set token `c` in a bay (R84, R85). -/
def Bay.setToken (y : Bay) (c : Nat) : Bay := { y with tokens := y.tokens ||| BitVec.ofNat 64 (2 ^ c) }

/-- Deliver an occurrence: its completion token sets in every bay of the mask, its meters are released, its PHASE_RECORD is
written and its DELIVERY record becomes due (R55, R59, R70, R87, R445). -/
def Dev.deliver (t : TimeUnit) (k : OccKey) (d : Dev) : Dev :=
  match d.occ k with
  | none => d
  | some o =>
    let d1 := d.modOcc k (fun o => { o with delivered := true, meters := [] })
    let d2 := match o.ctoken with
      | some c => o.te.bays.foldl (fun d b => d.modBay b (fun y => y.setToken c)) d1
      | none => d1
    let d3 := if o.te.record then d2.emit t (some k.part) (d.phaseRecord t o) else d2
    match d.noteJob t o with
    | some w => d3.enqueue w []
    | none => d3

/-- Whether the work of an occurrence has completed in every bay of its mask: bound and closed there, nothing of it in
flight (R87, R89). -/
def Dev.workDone (d : Dev) (o : Occ) : Bool :=
  o.bound == o.te.baymask && o.closed == o.te.baymask &&
  o.te.bays.all (fun b => (d.bay b).flights.all (fun f => f.occ != some o.key))

end Sys2Proof.Machine
end

