-- ==== Sys2Proof/Machine/Admission.lean ====
section
/-! DEFINITION. Admission: reading a submitted timetable, the nine checks in order, the resource model, derived power, and
the recheck at step boundaries (R45 to R54, R65, R353, R382, R383, R461). -/

namespace Sys2Proof.Machine

/-! ### Reading a timetable (R45, R46, R382) -/

/-- A header as read (R45). -/
structure THeader where
  version : Nat
  slotLog2 : Nat
  flags : Nat
  entries : Nat
  period : Nat
  base : Nat
  step0 : Nat
  paths : Nat
  entryAddr : Nat
  steps : Nat
  rsvd : Bool
deriving DecidableEq, Repr

/-- Parse a 64-byte header (R45). -/
def parseHeader (bs : List Nat) : THeader :=
  let w := ofBytes bs
  { version := fld w 0 16, slotLog2 := fld w 16 8, flags := fld w 24 8, entries := fld w 32 32, period := fld w 64 32,
    base := fld w 128 64, step0 := fld w 192 64, paths := fld w 256 64, entryAddr := fld w 320 64,
    steps := fld w 384 32,
    rsvd := fld w 25 7 != 0 || fld w 96 32 != 0 || fld w 416 96 != 0 }

/-- Parse a 32-byte entry (R46). -/
def parseEntry (bs : List Nat) : TEntry :=
  let w := ofBytes bs
  { depart := fld w 0 32, span := fld w 32 8, stream := fld w 40 2, early := bit w 42, maint := bit w 43,
    coll := bit w 44, record := bit w 45, quarter := fld w 48 4, baymask := fld w 56 4, array := fld w 64 16,
    vector := fld w 80 16, bstore := fld w 96 16, capnear := fld w 112 16, capfar := fld w 128 16,
    fartile := fld w 144 6, hbmshare := fld w 152 8, hbmmask := fld w 160 12, pathset := fld w 176 8, mb := fld w 184 8,
    updu := fld w 192 16, ptsu := fld w 208 16, tag := fld w 224 32,
    rsvd := fld w 46 2 != 0 || fld w 52 4 != 0 || fld w 60 4 != 0 || fld w 150 2 != 0 || fld w 172 4 != 0 }

/-- Parse a claim word of a path record (R382). -/
def parseClaim (w : Nat) : Option PathClaim :=
  if bit w 6 then some { link := fld w 0 5, inbound := bit w 5, share := fld w 8 10 } else none

/-- Parse a 64-byte path record with its member list (R382). -/
def parsePath (i : Nat) (bs members : List Nat) : PathSet :=
  let w := ofBytes bs
  { index := i, id := fld w 0 16, algo := fld w 16 8, carry := fld w 24 8, n := fld w 32 16, rank := fld w 48 16,
    stat := fld w 128 52, accdst := bit w 192,
    members := (List.range (fld w 32 16)).map (fun r => fld (ofBytes ((members.drop (2 * r)).take 2)) 0 12),
    claims := ((List.range 8).map (fun n => parseClaim (fld w (256 + 32 * n) 32))).filterMap id }

/-- R383: whether a path record is refused with cause FIELD. -/
def badPath (d : Dev) (p : PathSet) : Bool :=
  p.id == 0 || decide (1 < p.algo) || decide (2 < p.carry) || p.n == 0 || decide (4096 < p.n) || decide (p.n ≤ p.rank) ||
  p.claims.any (fun c => decide (896 < c.share)) ||
  p.claims.any (fun c => decide (1 < (p.claims.filter (fun e => e.link = c.link ∧ e.inbound = c.inbound)).length)) ||
  p.members.getD p.rank 0x1000 != d.fab.addr.toNat

/-! ### The resource model (R51, R52) -/

/-- The R22 route between piers, as bridge indices 4 × source + destination (R51, R52). -/
def route (a b : Nat) : List Nat :=
  if a = b then []
  else if a ^^^ b = 3 then [4 * a + (a ^^^ 1), 4 * (a ^^^ 1) + b]
  else [4 * a + b]

/-- One entry's demand: (resource code, index, amount). Amounts are in 1/1,024, HBM tokens, 1/5,120 of a bridge byte or path
shares (R51, R52). -/
def entryDemand (L : Nat) (e : TEntry) (ps : Option PathSet) : List (Nat × Nat × Nat) :=
  let pier := e.quarter / 4
  let per (code claim : Nat) := if claim = 0 then [] else e.bays.map (fun b => (code, b, claim))
  let there (to' : Nat) (n : Nat) := (route pier to' ++ route to' pier).map (fun i => (0x08, i, n))
  per 1 e.array ++ per 2 e.vector ++ per 3 e.bstore ++ per 4 e.capnear ++
  (if e.capfar = 0 then [] else
    (e.bays.map (fun _ => (4, e.fartile, e.capfar))) ++
    there (e.fartile / 16) (5120 * L * e.capfar * e.bays.length)) ++
  (if e.hbmshare = 0 then [] else
    ((maskBits 12 e.hbmmask).map (fun s => (5, s, e.hbmshare) :: there (s / 3) (24576 * L * e.hbmshare))).flatten) ++
  (if e.updu = 0 then [] else [(6, pier, e.updu)]) ++
  (if e.ptsu = 0 then [] else [(7, pier, e.ptsu)]) ++
  (match ps with
   | none => []
   | some p => (p.claims.map (fun c =>
      let v := c.link / 8
      let n := 5 * c.share * 188 * L
      (0x0A, 2 * c.link + b2n c.inbound, c.share) :: (0x09, 2 * v + (if c.inbound then 0 else 1), n) ::
      (if c.inbound then (route v pier).map (fun i => (0x08, i, n)) else (route pier v).map (fun i => (0x08, i, n))))).flatten)

/-- Whether an entry claims anything. -/
def TEntry.claims (e : TEntry) (ps : Option PathSet) : Bool := !(entryDemand 1024 e ps).isEmpty

/-- The ceiling of a resource, in the unit of its demand (R51, R326, R383). -/
def Dev.ceiling (d : Dev) (L code index : Nat) : Nat :=
  match code with
  | 1 => 1008 | 2 => 1008 | 3 => 960 | 4 => 960
  | 5 => if (d.stack index).filling then 0 else 224 * (d.stack index).c / 16
  | 6 => 1008 | 7 => 1008
  | 8 => 5120 * 3750 * L
  | 9 => 5120 * 1875 * L
  | 0x0A => 896 * (d.link (index / 2)).lanes / 16
  | _ => 0

/-- The unit that a demand is reported in: bridge bytes are kept in units of 1/5,120 byte (R50). -/
def demandUnit (code : Nat) : Nat := if code = 8 ∨ code = 9 then 5120 else 1

/-- A timetable laid over the line slots: its partition, its first line slot, and the line slot at which a replacement
ends its departures (R47). -/
structure Laid where
  part : Nat
  tt : Timetable
  base : Nat
  cut : Option Nat
  sub : Bool
deriving DecidableEq, Repr

/-- Whether an entry of a laid timetable occupies a line slot (R45, R47, R498). -/
def Laid.covers (x : Laid) (e : TEntry) (slot : Nat) : Bool :=
  if slot < x.base + e.depart then false
  else
    let y := slot - (x.base + e.depart)
    let k := y / x.tt.period
    decide (y % x.tt.period < e.span) && x.tt.hasStep k && optAll x.cut (fun c => decide (x.base + k * x.tt.period + e.depart < c))

/-- The entries of a laid timetable that occupy a slot, with their indices. -/
def Laid.active (x : Laid) (slot : Nat) : List (Nat × TEntry) :=
  (List.range x.tt.entries.length).filterMap (fun i =>
    match x.tt.entries[i]? with
    | some e => if x.covers e slot then some (i, e) else none
    | none => none)

/-- Every demand in a slot. -/
def demandsAt (L : Nat) (xs : List Laid) (slot : Nat) : List (Nat × Nat × Nat) :=
  (xs.map (fun x => ((x.active slot).map (fun p => entryDemand L p.2 (x.tt.pathSet p.2.pathset))).flatten)).flatten

/-- The total demand on one resource. -/
def totalOf (ds : List (Nat × Nat × Nat)) (code index : Nat) : Nat :=
  ((ds.filter (fun x => x.1 = code ∧ x.2.1 = index)).map (·.2.2)).sum

/-- The resources that a list of demands names, in the order of the table (R49). -/
def resourcesOf (ds : List (Nat × Nat × Nat)) : List (Nat × Nat) :=
  let keys := ds.foldl (fun ks x => setInsert (x.1 * 65536 + x.2.1) ks) []
  keys.map (fun k => (k / 65536, k % 65536))

/-- The first slot of each occupied stretch inside a window: demand can rise only there. -/
def candidateSlots (xs : List Laid) (lo hi : Nat) : List Nat :=
  xs.foldl (fun acc x =>
    x.tt.entries.foldl (fun acc e =>
      let s0 := x.base + e.depart
      let k0 := if s0 < lo then ceilDiv (lo - s0) x.tt.period else 0
      let n := if s0 + k0 * x.tt.period < hi then ceilDiv (hi - (s0 + k0 * x.tt.period)) x.tt.period else 0
      (List.range n).foldl (fun acc i => setInsert (s0 + (k0 + i) * x.tt.period) acc) acc) acc) [lo]

/-- A refusal: cause, entry, resource, index, slot, demand, ceiling (R50). -/
structure Refuse where
  cause : Nat
  entry : Nat
  resource : Nat
  index : Nat
  slot : Nat
  demand : Nat
  ceiling : Nat
deriving DecidableEq, Repr

/-- A refusal of a cause that names only an entry. -/
def refuseAt (cause entry : Nat) : Refuse :=
  { cause := cause, entry := entry, resource := 0, index := 0, slot := 0, demand := 0, ceiling := 0 }

/-- EV_ENTRY when the cause concerns the header (R50). -/
def noEntry : Nat := 0xFFFFFFFF

/-- The lowest-indexed entry of the submission that contributes in a slot (R50). -/
def guilty (L : Nat) (xs : List Laid) (slot code index : Nat) : Nat :=
  match xs.find? (·.sub) with
  | none => noEntry
  | some x =>
    (((x.active slot).find? (fun p =>
      (entryDemand L p.2 (x.tt.pathSet p.2.pathset)).any (fun d => d.1 = code ∧ (code = 0x0B ∨ d.2.1 = index)) ||
      (code == 0x0B && p.2.claims (x.tt.pathSet p.2.pathset)))).map (·.1)).getD noEntry

/-- The CAPACITY check in one slot (R49, R51). -/
def capacityAt (d : Dev) (L : Nat) (xs : List Laid) (slot : Nat) : Option Refuse :=
  let ds := demandsAt L xs slot
  match (resourcesOf ds).find? (fun r => decide (d.ceiling L r.1 r.2 < totalOf ds r.1 r.2)) with
  | none => none
  | some (code, index) =>
    some { cause := 0x08, entry := guilty L xs slot code index, resource := code, index := index, slot := slot,
           demand := ceilDiv (totalOf ds code index) (demandUnit code), ceiling := d.ceiling L code index / demandUnit code }

/-- The MAINT check in one slot (R49, R65): a maintenance entry and a claim in the same slot. -/
def maintAt (xs : List Laid) (slot : Nat) : Option Refuse :=
  let act := (xs.map (fun x => (x.active slot).map (fun p => (x, p)))).flatten
  if act.any (fun y => y.2.2.maint) ∧ act.any (fun y => y.2.2.claims (y.1.tt.pathSet y.2.2.pathset)) then
    some { refuseAt 0x07 (((act.find? (fun y => y.1.sub && (y.2.2.maint || y.2.2.claims (y.1.tt.pathSet y.2.2.pathset)))).map
      (·.2.1)).getD noEntry) with slot := slot }
  else none

/-! ### Derived power (R54) -/

/-- A positive FP32 figure as a numerator over 2^149; NaN, infinite and negative figures count as 0 (DESIGN CHOICE, log entry 9). -/
def fp32Scaled (w : Nat) : Nat :=
  let e := fld w 23 8
  if bit w 31 ∨ e = 255 then 0
  else if e = 0 then fld w 0 23
  else (2 ^ 23 + fld w 0 23) * 2 ^ (e - 1)

/-- The scale of derived power: 2^149 × 1,024 × 20,000 × L. -/
def powerScale (L : Nat) : Nat := 2 ^ 149 * 1024 * 20000 * L

/-- The full claim of a resource in the unit of its demand, as a fraction of `powerScale`'s 1,024 × 20,000 × L. -/
def fullClaim (L code : Nat) : Nat :=
  if code = 5 then 256 else if code = 8 then 20480000 * L else if code = 9 then 10240000 * L else 1024

/-- Derived power in a slot, scaled by `powerScale` (R54). -/
def powerAt (L : Nat) (xs : List Laid) (slot : Nat) : Nat :=
  (demandsAt L xs slot).foldl (fun n x =>
    n + fp32Scaled (Config.powerFigure x.1).toNat * (x.2.2 * (1024 * 20000 * L) / fullClaim L x.1))
    (fp32Scaled (Config.powerFigure 0).toNat * (1024 * 20000 * L))

/-- The timetables of the device laid over line slots, those of partition `skip` replaced by a submission (R47, R49). -/
def Dev.laid (d : Dev) : List Laid :=
  ((List.range 16).map (fun q =>
    let p := d.part q
    (match p.installed with
     | some t =>
       [{ part := q, tt := t, base := t.base + d.shiftOf t.shift0, cut := p.staged.map (fun s => s.base + d.shiftOf s.shift0),
          sub := false }]
     | none => []) ++
    (match p.staged with
     | some t => [{ part := q, tt := t, base := t.base + d.shiftOf t.shift0, cut := none, sub := false }]
     | none => []))).flatten

/-- The hyperperiod of a list of timetables (R49). -/
def hyper (xs : List Laid) : Nat := xs.foldl (fun n x => Nat.lcm n x.tt.period) 1

/-- The line slots that are examined: one hyperperiod from `lo`, and from the latest base. -/
def windowOf (xs : List Laid) (lo : Nat) : List Nat :=
  candidateSlots xs lo (xs.foldl (fun n x => max n x.base) lo + hyper xs)

/-- TT_PWR_NEED: the largest derived power over the slots of the installed timetables, rounded up to a whole W (R54). -/
def Dev.powerNeed (d : Dev) (L : Nat) : Nat :=
  let xs := d.laid
  if xs.isEmpty then 0
  else
    let lo := xs.foldl (fun n x => min n x.base) (2 ^ 64)
    ceilDiv ((windowOf xs lo).foldl (fun n s => max n (powerAt L xs s)) 0) (powerScale L)

/-- Write TT_PWR_NEED. -/
def Dev.setPowerNeed (t : TimeUnit) (d : Dev) : Dev :=
  { d with bond := { d.bond with pwrNeed := BitVec.ofNat 16 (d.powerNeed t.slotLen) } }

/-! ### The checks (R49) -/

/-- Whether the partition holds bay `b` and the bay is present and clean (R435, R461). -/
def Dev.holdsBay (d : Dev) (q b : Nat) : Bool :=
  (d.part q).quarters.toNat.testBit (b / 4) && d.bayPresent b && !(d.part q).cleaning.toNat.testBit (b / 4)

/-- SCOPE of one entry (R49, R383, R461). -/
def scopeBad (d : Dev) (q : Nat) (e : TEntry) (ps : Option PathSet) : Bool :=
  e.bays.any (fun b => !d.holdsBay q b) || !(d.part q).quarters.toNat.testBit e.quarter ||
  (e.capfar != 0 && !d.holdsBay q e.fartile) ||
  (maskBits 12 e.hbmmask).any (fun s => !((d.part q).hbms.toNat.testBit s && (d.stack s).present)) ||
  (match ps with
   | some p => p.claims.any (fun c => !(d.part q).links.toNat.testBit c.link)
   | none => false)

/-- FIELD of one entry (R49, R65). -/
def fieldBad (d : Dev) (admin : Bool) (h : THeader) (e : TEntry) (ps : Option PathSet) : Bool :=
  decide (h.period ≤ e.depart) || e.span == 0 || decide (h.period < e.span) || e.stream == 3 || e.baymask == 0 ||
  [e.array, e.vector, e.bstore, e.capnear, e.capfar, e.updu, e.ptsu].any (fun c => decide (1024 < c)) ||
  (e.capfar != 0 && (if e.fartile / 16 = e.quarter / 4 then decide (256 < e.capfar) else decide (128 < e.capfar))) ||
  (e.maint && !admin) || (e.pathset != 0 && h.paths == 0) ||
  (match ps with | some p => badPath d p | none => false)

/-- The index of the first entry for which a test holds. -/
def firstEntry (es : List TEntry) (p : TEntry → Bool) : Option Nat :=
  (List.range es.length).find? (fun i => match es[i]? with | some e => p e | none => false)

/-- Whether a replacement's TH_BASE is a step boundary of the installed timetable (R47). -/
def Dev.onBoundary (d : Dev) (q : Nat) (base : Nat) : Bool :=
  match (d.part q).installed with
  | none => true
  | some t =>
    let b0 := t.base + d.shiftOf t.shift0
    decide (b0 ≤ base) && (base - b0) % t.period == 0 && (t.steps == 0 || decide ((base - b0) / t.period ≤ t.steps))

/-- The whole of admission on a parsed timetable: the first check that fails, or none (R49). -/
def admission (t : TimeUnit) (d : Dev) (q : Nat) (h : THeader) (tt : Timetable) (poison : Bool) : Option Refuse :=
  let L := t.slotLen
  let p := d.part q
  let es := tt.entries
  let admin := p.func == 0 && p.port == 0
  if poison ∨ h.version ≠ 0x0100 ∨ h.rsvd ∨ h.entries = 0 ∨ 16384 < h.entries ∨ h.period = 0 ∨ 1048576 < h.period ∨
      h.entryAddr % 32 ≠ 0 ∨ !d.onBoundary q h.base then some (refuseAt 0x01 noEntry)
  else
    match firstEntry es (·.rsvd) with
    | some i => some (refuseAt 0x01 i)
    | none =>
      if h.slotLog2 ≠ t.slotLog2 then some (refuseAt 0x02 noEntry)
      else if h.base < t.slot + 4 then some (refuseAt 0x03 noEntry)
      else
        match firstEntry es (fun e => scopeBad d q e (if h.paths = 0 then none else tt.pathSet e.pathset)) with
        | some i => some (refuseAt 0x04 i)
        | none =>
          if tt.root ∧ (!t.root ∨ d.timetables.any (fun x => x.1 != q && x.2.root)) then some (refuseAt 0x04 noEntry)
          else
            match firstEntry es (fun e => fieldBad d admin h e (tt.pathSet e.pathset)) with
            | some i => some (refuseAt 0x05 i)
            | none =>
              let xs := (d.laid.map (fun x => if x.part = q then { x with cut := some h.base } else x)) ++
                [{ part := q, tt := tt, base := h.base, cut := none, sub := true }]
              if 4194304 < hyper xs then some (refuseAt 0x06 noEntry)
              else
                let slots := windowOf xs h.base
                match slots.findSome? (maintAt xs) with
                | some r => some r
                | none =>
                  match slots.findSome? (capacityAt d L xs) with
                  | some r => some r
                  | none =>
                    let cap := min d.pwr.cap.toNat 3400
                    match slots.find? (fun s => decide (cap * powerScale L < powerAt L xs s)) with
                    | some s => some { cause := 0x09, entry := guilty L xs s 0x0B 0, resource := 0x0B, index := 0, slot := s,
                                       demand := ceilDiv (powerAt L xs s) (powerScale L), ceiling := cap }
                    | none => none

/-- The ADMISSION_REFUSED record of a refusal (R50). -/
def Dev.refusedRecord (d : Dev) (q addr base : Nat) (r : Refuse) : EvRec :=
  { record 0x10 (coreSrc (d.serving q)) with
    entry := w32 r.entry, addr := BitVec.ofNat 52 addr, count := w64 base
    detail := detail [(48, 1, r.cause), (49, 1, r.resource), (50, 2, r.index), (52, 4, r.slot - base), (56, 4, r.demand),
      (60, 4, r.ceiling)] }

/-- The POISON_BITE record of a control read (R353, R354, R363). -/
def biteRecord (src cause addr bytes opcode mb : Nat) : EvRec :=
  { record 0x02 src with
    poison := true, addr := BitVec.ofNat 52 addr, count := w64 bytes
    detail := detail [(48, 1, cause), (49, 1, opcode), (50, 1, mb)] }

/-- How many of the flags are set. -/
def countTrue (ps : List Bool) : Nat := (ps.filter id).length

/-- A station core's read of `n` bytes for partition `q`, as requester `w`: a poisoned byte bites, and the record
counts the poisoned bytes of the first 64-byte request that holds one (R353, R354, R363). Answers the bytes and whether any was
poisoned. -/
def Dev.coreRead (t : TimeUnit) (w : Req) (q a n : Nat) (d : Dev) : (List Nat × Bool) × Dev :=
  let (x, d1) := d.fetch t w a n
  match (List.range n).find? (fun i => x.2.getD i false) with
  | some i =>
    let block := (List.range n).filter (fun j => (a + j) / 64 == (a + i) / 64)
    ((natBytes x.1, true), d1.emit t (some q) (biteRecord w.src 4 (a + i)
      (countTrue (block.map (fun j => x.2.getD j false))) 0 0xFF))
  | none => ((natBytes x.1, false), d1)

/-- Read the path records that a list of entries names, each with its member list (R382). -/
def Dev.readPaths (t : TimeUnit) (w : Req) (q paths : Nat) : List Nat → Dev → (List PathSet × Bool) × Dev
  | [], d => (([], false), d)
  | i :: rest, d =>
    let ((bs, p1), d1) := d.coreRead t w q (paths + 64 * (i - 1)) 64
    let v := ofBytes bs
    let ((ms, p2), d2) := d1.coreRead t w q (fld v 64 52) (2 * min (fld v 32 16) 4096)
    let ((ps, p3), d3) := d2.readPaths t w q paths rest
    ((parsePath i bs ms :: ps, p1 || p2 || p3), d3)

/-- Read a submitted timetable (R45, R46, R353, R382). -/
def Dev.readTimetable (t : TimeUnit) (w : Req) (q : Nat) (ins : Install) (d : Dev) : (THeader × Timetable × Bool) × Dev :=
  let ((hb, p1), d1) := d.coreRead t w q ins.header 64
  let h := parseHeader hb
  let n := if h.entries ≤ 16384 ∧ h.entryAddr % 32 = 0 then h.entries else 0
  let ((eb, p2), d2) := d1.coreRead t w q (h.entryAddr % 2 ^ 52) (32 * n)
  let es := (List.range n).map (fun i => parseEntry ((eb.drop (32 * i)).take 32))
  let names := if h.paths = 0 then [] else es.foldl (fun ks e => if e.pathset = 0 then ks else setInsert e.pathset ks) []
  let ((ps, p3), d3) := d2.readPaths t w q (h.paths % 2 ^ 52) names
  ((h, { gen := (d3.part q).nextGen, addr := ins.header, root := bit h.flags 0, period := h.period, base := h.base,
         step0 := h.step0, steps := h.steps, shift0 := d3.shift.toNat, entries := es, paths := ps, notify := ins.notify,
         noteBase := ins.noteBase, resume := none }, p1 || p2 || p3), d3)

/-! ### Recheck at step boundaries (R65, R325, R385) -/

/-- Whether a step boundary of a timetable falls on a line slot. -/
def Dev.atStep (d : Dev) (tt : Timetable) (slot : Nat) : Option Nat :=
  let b := tt.base + d.shiftOf tt.shift0
  if b ≤ slot ∧ (slot - b) % tt.period = 0 ∧ (tt.steps = 0 ∨ (slot - b) / tt.period ≤ tt.steps) then
    some ((slot - b) / tt.period)
  else none

/-- The STEP root's notices for the step boundaries of its timetables that fall on the slots `lo` to `hi`; from a staged
replacement's TH_BASE on only the replacement's count (R47, R68, R397). -/
def Dev.sendSteps (lo hi : Nat) (d : Dev) : Dev :=
  (upTo (hi + 1 - lo)).foldl (fun (d : Dev) j =>
    d.timetables.foldl (fun (d : Dev) x =>
      let tt := x.2
      let ends : Bool := match (d.part x.1).staged with
        | some st => tt.gen != st.gen && decide (st.base + d.shiftOf st.shift0 ≤ lo + j)
        | none => false
      match d.atStep tt (lo + j) with
      | none => d
      | some k =>
        if tt.root ∧ (tt.steps = 0 ∨ k < tt.steps) ∧ !ends then
          d.flood (notice d 4 0 d.fab.addr.toNat 0 (lo + j) (tt.step0 + k) 0) (fun _ => false)
        else d) d) d

/-- Whether an installed timetable names a stack with a failed channel (R325). -/
def Dev.namesFailed (d : Dev) (tt : Timetable) : Bool :=
  tt.entries.any (fun e => (maskBits 12 e.hbmmask).any (fun s => (d.stack s).failed != 0))

/-- The refusal of a timetable that names a stack with a failed channel, at a slot in which an entry that names it runs: cause
CAPACITY on that stack's tokens (R50, R65, R325). -/
def failedAt (d : Dev) (L : Nat) (xs : List Laid) (slot : Nat) : Option Refuse :=
  let named := (xs.filter (·.sub)).flatMap (fun x => (x.active slot).flatMap (fun p =>
    ((maskBits 12 p.2.hbmmask).filter (fun s => (d.stack s).failed != 0)).map (fun s => (p.1, s))))
  named.head?.map (fun e =>
    { cause := 0x08, entry := e.1, resource := 0x05, index := e.2, slot := slot,
      demand := ceilDiv (totalOf (demandsAt L xs slot) 0x05 e.2) (demandUnit 0x05), ceiling := d.ceiling L 0x05 e.2 / demandUnit 0x05 })

/-- The recheck of partition `q`'s installed timetable against the ceilings in force (R65). -/
def Dev.recheck (t : TimeUnit) (d : Dev) (q : Nat) : Option Refuse :=
  match (d.part q).installed with
  | none => none
  | some tt =>
    let xs := d.laid.map (fun x => if x.part = q ∧ x.tt.gen = tt.gen then { x with sub := true } else x)
    match (windowOf xs t.slot).findSome? (capacityAt d t.slotLen xs) with
    | some r => some r
    | none =>
      if !d.namesFailed tt then none
      else
        match (windowOf xs t.slot).findSome? (failedAt d t.slotLen xs) with
        | some r => some r
        | none => some { refuseAt 0x08 noEntry with slot := t.slot }

/-- Remove partition `q`'s installed timetable alone, withdrawing and cancelling its undelivered occurrences with a cause; a staged
replacement stays, to take over at its TH_BASE (R57, R65, R325). -/
def Dev.dropInstalled (t : TimeUnit) (q cause : Nat) (d : Dev) : Dev :=
  match (d.part q).installed with
  | none => d
  | some tt =>
    let d1 := ((d.part q).occs.filter (fun o => o.open && o.key.gen == tt.gen)).foldl (fun d o => d.withdrawCancel t cause o.key) d
    (d1.modPart q (fun p => { p with installed := none })).setPowerNeed t

/-- Remove partition `q`'s timetables, withdrawing and cancelling what is undelivered with a cause (R57, R65, R440). -/
def Dev.dropTimetables (t : TimeUnit) (q cause : Nat) (d : Dev) : Dev :=
  let d1 := ((d.part q).occs.filter Occ.open).foldl (fun d o => d.withdrawCancel t cause o.key) d
  (d1.modPart q (fun p => { p with installed := none, staged := none })).setPowerNeed t

end Sys2Proof.Machine
end

