-- ==== Sys2Proof/Machine/Faults.lean ====
section
/-! DEFINITION. What stops a stream: the shared fault operation, void marks and their spread, halts, open drain blocks
(R75, R77, R109 to R114, R188). -/

namespace Sys2Proof.Machine

/-- What an instruction fault reports (R109, R112). STEP_MISMATCH also names an address and its own STEP (R288). -/
structure FaultInfo where
  cls : Nat
  cause : Nat
  field : Nat
  unit : Nat
  datum : Nat
  desc : Nat
  addr : Nat := 0
  step : Option W64 := none
deriving DecidableEq, Repr

/-- An ADMISSION_REFUSED fault with a cause of R110 and the low bit of the offending field. -/
def refused (cause field : Nat) : FaultInfo :=
  { cls := 0x10, cause := cause, field := field, unit := 0x01, datum := 0, desc := 0 }

/-- Causes of R110. -/
def causeOpcode : Nat := 0x41
def causeReserved : Nat := 0x42
def causeOperand : Nat := 0x43
def causeScope : Nat := 0x44
def causeEntry : Nat := 0x45
def causeFormat : Nat := 0x46
def causeConfig : Nat := 0x47
def causePlace : Nat := 0x48

/-- The slot rows of a drain block (R185). -/
def Block.slots (k : Block) : List Nat := (List.range k.rows).map (fun i => (k.base + i) % 1024)

/-- Discard the open drain block of a stream: its slot rows become free (R188). -/
def Bay.discardOpen (y : Bay) (s : Nat) : Bay := { y with openBlocks := vmod y.openBlocks s (fun _ => none) }

/-- The fault record of an instruction (R112). -/
def faultRecord (d : Dev) (b s : Nat) (word : W128) (iptr : W32) (occ : Option OccKey) (f : FaultInfo) : EvRec :=
  let o := occ.bind d.occ
  { record f.cls (baySrc 0x01 b) with
    fault := true, withdrawn := occ.isSome, stream := BitVec.ofNat 2 s, desc := BitVec.ofNat 8 f.desc, iptr := iptr,
    addr := BitVec.ofNat 52 f.addr
    entry := match occ with | some k => w32 k.entry | none => 0xFFFFFFFF
    count := match o with | some o => w64 (d.promise o) | none => w64 noSlot
    detail := detail [(48, 1, f.cause), (49, 1, fld word.toNat 120 8), (50, 1, f.field), (51, 1, f.unit), (52, 4, f.datum),
      (56, 8, word.toNat)] }

/-- The occurrences that have reached their departure slot, that this stream of this bay would run, and that it has not
bound (R113). -/
def Dev.departedUnbound (d : Dev) (b s : Nat) : List Occ :=
  d.openOccs.filter (fun o => o.te.stream == s && o.te.names b && o.reached && !(o.bound.testBit (b % 4)))

/-- Put a stream into FAULTED with a class: the bound occurrence and the departed unbound ones are withdrawn with cause
FAULT, cancelled and void-marked, and the open drain block is discarded (R88, R113, R188). A RUN that has been accepted still
takes effect at the next boundary (R77, R114). -/
def Dev.enterFaulted (t : TimeUnit) (b s cls : Nat) (bound : Option OccKey) (d : Dev) : Dev :=
  let d1 := match bound with
    | some k => d.voidOcc t lateFault cls k
    | none => d
  let d2 := (d1.departedUnbound b s).foldl (fun d o => d.voidOcc t lateFault cls o.key) d1
  (d2.modStream b s (fun x =>
    { x with state := .faulted, fclass := BitVec.ofNat 8 cls, occ := none, wait := none, clock := none, stall := false,
             haltPend := false, afterHalt := false })).modBay b (fun y => y.discardOpen s)

/-- The shared fault operation for a fault found at issue: the record, IPTR at the faulting instruction, FCLASS, withdrawals,
void marks and FAULTED (R109 to R113). -/
def Dev.streamFault (t : TimeUnit) (b s : Nat) (word : W128) (iptr : W32) (f : FaultInfo) (d : Dev) : Dev :=
  let x := d.stream b s
  let q := match x.occ with | some k => some k.part | none => d.partOfBay b
  let d1 := d.emitStep t q (faultRecord d b s word iptr x.occ f) f.step
  (d1.modStream b s (fun x => { x with iptr := iptr })).enterFaulted t b s f.cls x.occ

/-- A fault found in execution: IPTR stays where issue stands, and the occurrence that the instruction belongs to is withdrawn
and cancelled with the one now bound (R57, R111 to R113; DEDUCED, log entry 111). -/
def Dev.runFault (t : TimeUnit) (b s : Nat) (word : W128) (iptr : W32) (own : Option OccKey) (f : FaultInfo) (d : Dev) :
    Dev :=
  let bound := (d.stream b s).occ
  let occ := own.orElse (fun _ => bound)
  let q := match occ with | some k => some k.part | none => d.partOfBay b
  let d1 := d.emitStep t q (faultRecord d b s word iptr occ f) f.step
  let d2 := match own with
    | some k => d1.voidOcc t lateFault f.cls k
    | none => d1
  d2.enterFaulted t b s f.cls bound

/-- A stream entering IDLE by END, HALT or reset: its open drain block is discarded (R77, R90, R188). -/
def Dev.enterIdle (b s : Nat) (d : Dev) : Dev :=
  (d.modStream b s (fun x => { x with state := .idle, wait := none, clock := none, stall := false })).modBay b
    (fun y => y.discardOpen s)

/-- Whether any token of a mask carries a void mark, and if so the class of the original fault (R113); of several, that of the
lowest token's mark (DESIGN CHOICE, log entry 119). -/
def Bay.voidIn (y : Bay) (mask : W64) : Option Nat :=
  ((maskBits 64 (y.void &&& mask).toNat).head?).map (fun c => tabGet 0 y.voidClass c)

/-- A DEPART that waits on a void-marked token: its occurrence is withdrawn under the same FAULT event and the stream
enters FAULTED without a record of its own, its IPTR back at the DEPART (R111, R113; DEDUCED, log entry 109). -/
def Dev.voidDepart (t : TimeUnit) (b s cls : Nat) (d : Dev) : Dev :=
  let x := d.stream b s
  let d1 := match x.wait with
    | some w => match w.occ with
      | some k => d.modOcc k (fun o => { o with ctoken := some (o.ctoken.getD w.ctoken) })
      | none => d
    | none => d
  (d1.modStream b s (fun x => { x with iptr := x.iptr - 1 })).enterFaulted t b s cls (x.wait.bind (·.occ))

/-- Clear tokens of a bay; a host clear also clears their void marks (R76, R84). -/
def Bay.clearTokens (y : Bay) (mask : W64) (alsoVoid : Bool) : Bay :=
  { y with
    met := y.nowMet
    tokens := y.tokens &&& ~~~mask
    void := if alsoVoid then y.void &&& ~~~mask else y.void
    voidClass := if alsoVoid then tabDrop y.voidClass (fun c => mask.toNat.testBit c) else y.voidClass }

end Sys2Proof.Machine
end

