-- ==== Sys2Proof/Machine/Shapes.lean ====
section
/-! DEFINITION. Instruction words: opcodes and their queues, the fields and bits that each opcode defines, and the tile registers
that a word reads and writes (R80, R82, R96 to R107, R112, R210). -/

namespace Sys2Proof.Machine

/-! ### Instruction words (R96 to R99) -/

/-- Opcode of a word. -/
def opc (w : Nat) : Nat := fld w 120 8

/-- The queue of an opcode: its WAITU bit, or none for a sequencer instruction (R80, R98). -/
def queueOf (o : Nat) : Option Nat :=
  if o = 0x07 ∨ o = 0x10 then some 0
  else if o = 0x20 ∨ o = 0x21 then some 1
  else if 0x30 ≤ o ∧ o ≤ 0x36 then some 2
  else if o = 0x40 then some 3
  else if o = 0x48 then some 4
  else if o = 0x50 ∨ o = 0x58 ∨ o = 0x60 then some 5
  else if o = 0x68 then some 6
  else none

/-- Queue depths (R80). -/
def queueDepth (q : Nat) : Nat := [8, 4, 8, 2, 4, 4, 2].getD q 0

/-- Whether an opcode is assigned (R98). -/
def opcKnown (o : Nat) : Bool := decide (o ≤ 0x06) || (queueOf o).isSome

/-- How many of the bits [111:0] each opcode defines; VRED and SMAX leave gaps (R96, R99, R101, R103, R105, R107). -/
def definedMask (w : Nat) : Nat :=
  let low (n : Nat) : Nat := 2 ^ n - 1
  match opc w with
  | 0x02 => low 85
  | 0x03 =>
    match fld w 34 2 with
    | 0 => low 32 ||| 3 <<< 34
    | 1 => low 36
    | 2 => low 68 - low 32
    | _ => 0
  | 0x04 => low 70
  | 0x05 => low 8
  | 0x06 => if fld w 64 3 = 4 then (low 79 - low 64) else if 5 ≤ fld w 64 3 then 0 else low 67
  | 0x07 => low 68
  | 0x10 => low 20
  | 0x20 => low 10
  | 0x21 => low 35
  | 0x30 => low 45
  | 0x31 => (low 45 - low 36) ||| low 27
  | 0x32 => (low 40 - low 36) ||| low 18
  | 0x33 => low 49
  | 0x34 => low 27 ||| 1 <<< 36
  | 0x35 => low 27 ||| (low 69 - low 36)
  | 0x36 => low 70
  | 0x40 => low 19
  | 0x48 => low 21
  | 0x50 => low 32
  | 0x58 => low 43
  | 0x60 => low 37
  | 0x68 => if bit w 9 then low 11 else low 10
  | _ => 0

/-- The low bit of the field or position of an undefined value that holds bit `i`: a field of BRANCH or SYNC that another of its
fields leaves undefined, or a position that R103 reserves; else the bit itself (R96, R99, R103, R112; DESIGN CHOICE, log entry
121). -/
def fieldLow (o i : Nat) : Nat :=
  let within (xs : List (Nat × Nat)) : Nat := ((xs.find? (fun r => decide (r.1 ≤ i) && decide (i ≤ r.2))).map (·.1)).getD i
  match o with
  | 0x03 => within [(0, 31), (32, 33), (36, 67)]
  | 0x06 => within [(0, 63), (67, 72), (73, 78)]
  | 0x31 => within [(27, 35)]
  | 0x32 => within [(18, 26), (27, 35)]
  | 0x34 => within [(27, 35)]
  | 0x35 => within [(27, 35)]
  | _ => i

/-- The low bit of the field that makes a word refused as reserved: a reserved mode or operation, or else the lowest field or
position that the word's other fields leave undefined and that is not zero (R96, R99, R112). -/
def reservedField (w : Nat) : Option Nat :=
  if opc w = 0x03 ∧ fld w 34 2 = 3 then some 34
  else if opc w = 0x06 ∧ 5 ≤ fld w 64 3 then some 64
  else
    let m := definedMask w
    ((List.range 112).find? (fun i => bit w i && !(bit m i))).map (fieldLow (opc w))

/-! ### Vector operations (R210) -/

/-- How an operation reads and writes: float, integer, or raw 32-bit cells. -/
inductive VClass where
  | float | int | raw
deriving DecidableEq, Repr

/-- Shape of a VOP operation: how many of A, B, C it uses (as a mask), source class, destination class, whether PACK = 1 is
allowed (R210). -/
structure VShape where
  uses : Nat
  src : VClass
  dst : VClass
  pack : Bool
deriving DecidableEq, Repr

def vopShape (op : Nat) : Option VShape :=
  let f (uses : Nat) : Option VShape := some { uses := uses, src := .float, dst := .float, pack := true }
  let n (uses : Nat) : Option VShape := some { uses := uses, src := .int, dst := .int, pack := false }
  if op = 0x00 ∨ op = 0x0A ∨ op = 0x0B ∨ op = 0x0C then f 1
  else if op = 1 ∨ op = 2 ∨ op = 3 ∨ op = 7 ∨ op = 8 ∨ op = 0x0E ∨ op = 0x0F ∨ op = 0x10 then f 3
  else if op = 4 ∨ op = 5 ∨ op = 6 ∨ op = 9 ∨ op = 0x0D ∨ op = 0x19 then f 7
  else if op = 0x18 then f 0
  else if op = 0x20 then some { uses := 3, src := .float, dst := .raw, pack := false }
  else if op = 0x21 ∨ op = 0x22 then some { uses := 1, src := .raw, dst := .float, pack := false }
  else if op = 0x30 then some { uses := 1, src := .int, dst := .float, pack := false }
  else if op = 0x31 then some { uses := 1, src := .float, dst := .int, pack := false }
  else if 0x40 ≤ op ∧ op ≤ 0x4C then n 3
  else if op = 0x4D then n 1
  else none

/-! ### Tile registers (R82, R97, R101 to R107) -/

/-- The tile, or the tile pair, that an operand field of `n` bits names, as a mask; none for a descriptor. -/
def tileAt (w lo : Nat) : Nat := if fld w lo 9 < 256 then 1 <<< (fld w lo 4) else 0
def pairAt (w lo : Nat) : Nat := 3 <<< (fld w lo 4)

/-- The tile registers that a word reads. -/
def tileReads (w : Nat) : Nat :=
  let also (p : Bool) (lo : Nat) : Nat := if p then tileAt w lo else 0
  match opc w with
  | 0x10 => tileAt w 0
  | 0x20 => if fld w 0 9 < 256 then pairAt w 0 else 0
  | 0x21 => tileAt w 0 ||| (if fld w 18 2 = 1 then pairAt w 20 else 0)
  | 0x30 =>
    match vopShape (fld w 36 8) with
    | some s => also (bit s.uses 0) 9 ||| also (bit s.uses 1) 18 ||| also (bit s.uses 2) 27
    | none => 0
  | 0x31 => tileAt w 9 ||| also (bit w 44) 18
  | 0x32 => tileAt w 9
  | 0x33 => tileAt w 9 ||| tileAt w 27 ||| also (fld w 37 2 == 3) 18
  | 0x34 => tileAt w 9 ||| tileAt w 18
  | 0x35 => tileAt w 9 ||| also (bit w 36) 18
  | 0x36 => tileAt w 9 ||| also (bit w 36) 18
  | 0x40 => tileAt w 9
  | 0x48 => tileAt w 9
  | _ => 0

/-- The tile registers that a word writes. -/
def tileWrites (w : Nat) : Nat :=
  match opc w with
  | 0x10 => tileAt w 9
  | 0x21 => if bit w 24 ∧ fld w 9 9 < 256 then pairAt w 9 else 0
  | 0x30 => tileAt w 0
  | 0x31 => tileAt w 0
  | 0x32 => tileAt w 0
  | 0x33 => tileAt w 0 ||| tileAt w 40
  | 0x34 => tileAt w 0
  | 0x35 => tileAt w 0
  | 0x36 => tileAt w 0 ||| (if bit w 37 then tileAt w 27 else 0)
  | 0x40 => tileAt w 0
  | _ => 0

end Sys2Proof.Machine
end

