-- ==== Sys2Proof/Machine/Sequencer.lean ====
section
/-! DEFINITION. The bay sequencer: fetch, the conditions of issue, and the instructions it executes itself: NOP, END,
DEPART, BRANCH, CFG, COMMIT and SYNC (R74 to R100). -/

namespace Sys2Proof.Machine

/-! ### Configuration fields (R92, R100) -/

/-- Read field `f` of group `g`. -/
def cfgGet (c : Cfg) (g f : Nat) : Nat :=
  match g, f with
  | 0, 0 => c.model.toNat
  | 1, 0 => c.mode.toNat
  | 1, 1 => c.codebook.toNat
  | 1, 2 => c.cskip.toNat
  | 2, 0 => c.vl.toNat
  | 3, 0 => c.qhist.toNat
  | 3, 1 => c.qlen.toNat
  | 3, 2 => c.qamax.toNat
  | 4, 0 => c.fnrev.toNat
  | 5, 0 => c.rseed.toNat
  | 5, 1 => c.rstream.toNat
  | 6, 0 => b2n c.sealchk
  | 7, 0 => c.experts.toNat
  | 7, 1 => c.capacity.toNat
  | 7, 2 => c.policy.toNat
  | _, _ => 0

/-- Write field `f` of group `g`. -/
def cfgSet (c : Cfg) (g f v : Nat) : Cfg :=
  match g, f with
  | 0, 0 => { c with model := BitVec.ofNat 52 v }
  | 1, 0 => { c with mode := BitVec.ofNat 12 v }
  | 1, 1 => { c with codebook := BitVec.ofNat 52 v }
  | 1, 2 => { c with cskip := BitVec.ofNat 8 v }
  | 2, 0 => { c with vl := BitVec.ofNat 7 v }
  | 3, 0 => { c with qhist := BitVec.ofNat 52 v }
  | 3, 1 => { c with qlen := BitVec.ofNat 5 v }
  | 3, 2 => { c with qamax := BitVec.ofNat 52 v }
  | 4, 0 => { c with fnrev := BitVec.ofNat 16 v }
  | 5, 0 => { c with rseed := w64 v }
  | 5, 1 => { c with rstream := w32 v }
  | 6, 0 => { c with sealchk := bit v 0 }
  | 7, 0 => { c with experts := BitVec.ofNat 10 v }
  | 7, 1 => { c with capacity := BitVec.ofNat 24 v }
  | 7, 2 => { c with policy := BitVec.ofNat 2 v }
  | _, _ => c

/-- The values that R100 refuses. -/
def cfgBad (g f v : Nat) : Bool :=
  decide (cfgFields g ≤ f) ||
  (g == 2 && f == 0 && (fld v 0 7 == 0 || decide (64 < fld v 0 7))) ||
  (g == 3 && f == 1 && (fld v 0 5 == 0 || decide (16 < fld v 0 5))) ||
  (g == 1 && f == 0 && (fld v 0 2 == 3 || decide (13 < fld v 4 4) || decide (13 < fld v 8 4))) ||
  (g == 0 && f == 0 && fld v 0 21 != 0)

/-- Copy group `g` of one configuration into another. -/
def cfgCopy (src dst : Cfg) (g : Nat) : Cfg :=
  (List.range (cfgFields g)).foldl (fun c f => cfgSet c g f (cfgGet src g f)) dst

/-! ### Fetch (R74, R353) -/

/-- The address of the instruction at an index (R74). -/
def Stream.pc (x : Stream) : Nat := x.runBase.toNat * 16 + 16 * x.iptr.toNat

/-- A fetch address must lie in the bay's own store or its pier's yard (R74, R110). -/
def fetchOk (b a : Nat) : Bool :=
  match regionOf a with
  | .bay c _ => c == b
  | .yard p _ => p == b / 16
  | _ => false

/-- Keep at most 16 lines of 64 bytes in the fetch buffer, the latest first (R74; DESIGN CHOICE, log entry 11). -/
def Stream.keepLine (x : Stream) (k : FetchLine) : Stream := { x with fetch := (k :: x.fetch).take 16 }

/-- The line of the instruction at IPTR, if it is in the fetch buffer. -/
def Stream.lineNow (x : Stream) : Option FetchLine := x.fetch.find? (fun k => k.addr = x.pc / 64 * 64)

/-- The 16 bytes of a line at an address and their poison bits. -/
def FetchLine.pick (k : FetchLine) (a : Nat) : List Byte × List Bool := ((k.bytes.drop (a % 64)).take 16, (k.poison.drop (a % 64)).take 16)

/-- Bring the line of the instruction at IPTR into the buffer if it is not there (R74). -/
def Dev.fetchLine (t : TimeUnit) (b s : Nat) (d : Dev) : FetchLine × Dev :=
  let x := d.stream b s
  let line := x.pc / 64 * 64
  match x.lineNow with
  | some k => (k, d)
  | none =>
    let (r, d1) := d.read t (bayReq 0x01 b (d.partOfBay b) x.occ) line 64
    let k : FetchLine := { addr := line, bytes := r.1, poison := r.2 }
    (k, d1.modStream b s (·.keepLine k))

/-! ### Issue (R78 to R83) -/

/-- What an instruction sees when it issues. -/
structure Issue where
  b : Nat
  s : Nat
  w : Nat
  word : W128
  iptr : W32
  x : Stream
  part : Option Nat
  ops : List Nat := []
  redo : Option Nat := none
deriving DecidableEq, Repr

/-- Whether the device executes bay instructions: published, powered, not in reset (R451, R494, R495). -/
def Dev.running (d : Dev) : Bool :=
  d.box.stage == 3 && d.pwr.rails && d.pwr.resetN && !d.pwr.falling

/-- Whether WAITU holds: every earlier instruction of the stream in each named queue has completed (R81). -/
def Bay.waituOk (y : Bay) (s waitu : Nat) : Bool :=
  y.flights.all (fun f => f.stream != s || !(bit waitu f.queue || bit waitu 7))

/-- Whether the tile scoreboard clears an instruction that reads and writes the given tiles (R82). -/
def Bay.boardOk (y : Bay) (reads writes : Nat) : Bool :=
  y.flights.all (fun f => f.writes &&& (reads ||| writes) == 0 && f.reads &&& writes == 0)

/-- Whether a unit's queue has a free entry (R78, R80). -/
def Bay.queueOk (y : Bay) (q : Nat) : Bool :=
  decide ((y.flights.filter (fun f => f.queue == q && !f.begun)).length < queueDepth q)

/-- The departure key of a stream (R79). -/
def Dev.streamKey (d : Dev) (b s : Nat) : Nat :=
  match (d.stream b s).occ.bind d.occ with
  | some o => d.depSlot o
  | none => 2 ^ 64 - 1

/-- Whether the order of R79 ranks stream `r` of a bay before stream `s`: by departure key, then cyclically after the stream
that issued last. -/
def Dev.outranks (d : Dev) (b r s : Nat) : Bool :=
  let place (n : Nat) : Nat := (n + 2 - (d.bay b).lastIssued) % 3
  decide (d.streamKey b r < d.streamKey b s) || (d.streamKey b r == d.streamKey b s && decide (place r < place s))

/-- Whether a stream runs: in RUN or WAIT_UNIT, its bay present, the domain not paused, no branch stall (R74, R75, R78). -/
def Dev.active (d : Dev) (b s : Nat) : Bool :=
  d.running && d.bayPresent b && !d.hold.paused &&
  ((d.stream b s).state == .run || (d.stream b s).state == .waitUnit) && !(d.stream b s).stall

/-- Whether a stream's next instruction is ready: in the fetch buffer, its WAITU condition holds, the scoreboard clears it, and
its unit's queue has a free entry (R78). -/
def Dev.ready (d : Dev) (b s : Nat) : Bool :=
  let x := d.stream b s
  d.active b s &&
  match x.lineNow with
  | none => false
  | some k =>
    let w := ofBytes (natBytes (k.pick x.pc).1)
    (d.bay b).waituOk s (fld w 112 8) && (d.bay b).boardOk (tileReads w) (tileWrites w) &&
      match queueOf (opc w) with
      | some q => (d.bay b).queueOk q
      | none => true

/-- Whether a stream may try to issue: it runs, and no stream that the order of R79 ranks before it is ready. -/
def Dev.canIssue (d : Dev) (b s : Nat) : Bool :=
  d.active b s && (List.range 3).all (fun r => r == s || !(d.ready b r && d.outranks b r s))

/-- The stream waits for a unit: STATE reads WAIT_UNIT and nothing issues (R75). -/
def Dev.blockUnit (b s : Nat) (d : Dev) : Dev := d.modStream b s (fun x => { x with state := .waitUnit })

/-- The instruction has issued: IPTR advances and the stream is the last to have issued (R76, R79). -/
def Dev.advance (b s : Nat) (d : Dev) : Dev :=
  (d.modStream b s (fun x => { x with state := .run, iptr := x.iptr + 1 })).modBay b (fun y => { y with lastIssued := s })

/-- Issue of one instruction: fetch it, refuse what cannot be issued as encoded, wait for WAITU, and hand an instruction
that `mine` recognises to `body`; a word that another command of the table stands for leaves the state as it is
(R74, R78, R81, R96, R98, R110, R353; DESIGN CHOICE, log entry 12). -/
def Dev.issue (t : TimeUnit) (b s : Nat) (mine : Nat → Bool) (body : Issue → Dev → Dev) (d : Dev) : Dev :=
  if !d.canIssue b s then d
  else
    let x := d.stream b s
    if !fetchOk b x.pc then d.streamFault t b s 0 x.iptr (refused causeScope 0xFF)
    else
      let (k, d1) := d.fetchLine t b s
      let (bs, ps) := k.pick x.pc
      if ps.any id then
        let word : W128 := BitVec.ofNat 128 (ofBytes (List.zipWith (fun v p => if p then 0xFF else v.toNat) bs ps))
        let first := ((List.range 64).find? (fun i => k.poison.getD i false)).getD 0
        let o := x.occ.bind d1.occ
        let mb := match o with | some o => o.te.mb | none => 0xFF
        let r := { biteRecord (baySrc 0x01 b) 4 (k.addr + first) (countTrue k.poison) (opc word.toNat) mb with
          stream := BitVec.ofNat 2 s, iptr := x.iptr, entry := match x.occ with | some k => w32 k.entry | none => 0xFFFFFFFF }
        (d1.emit t (d1.partOfBay b) r).streamFault t b s word x.iptr (refused causeOpcode 120)
      else
        let word : W128 := BitVec.ofNat 128 (ofBytes (natBytes bs))
        let w := word.toNat
        if !opcKnown (opc w) then d1.streamFault t b s word x.iptr (refused causeOpcode 120)
        else if !mine w then d1
        else if !(d1.bay b).waituOk s (fld w 112 8) then d1.blockUnit b s
        else
          match reservedField w with
          | some i => d1.streamFault t b s word x.iptr (refused causeReserved i)
          | none => body { b := b, s := s, w := w, word := word, iptr := x.iptr, x := d1.stream b s, part := d1.partOfBay b } d1

/-- Refuse an instruction at issue (R110, R111). -/
def Issue.refuse (i : Issue) (t : TimeUnit) (f : FaultInfo) (d : Dev) : Dev := d.streamFault t i.b i.s i.word i.iptr f

/-! ### Occurrences and DEPART (R87 to R91) -/

/-- Close the stream's current occurrence in this bay (R89, R90). -/
def Dev.closeOcc (b s : Nat) (d : Dev) : Dev :=
  match (d.stream b s).occ with
  | none => d
  | some k =>
    (d.modOcc k (fun o => { o with closed := setBit o.closed (b % 4) })).modStream b s (fun x => { x with occ := none })

/-- A stream's record of the first step it has not bound, per timetable and entry. -/
def Stream.firstK (x : Stream) (q gen e : Nat) : Nat :=
  ((x.nextK.find? (fun p => p.1.part = q ∧ p.1.gen = gen ∧ p.1.entry = e)).map (·.2)).getD 0

def Stream.setFirstK (x : Stream) (k : OccKey) : Stream :=
  { x with nextK := (k, k.k + 1) :: x.nextK.filter (fun p => !(p.1.part = k.part ∧ p.1.gen = k.gen ∧ p.1.entry = k.entry)) }

/-- The earliest step from `k` on whose occurrence is not cancelled (R88); `fuel` bounds how many may be. -/
def Dev.uncancelled (d : Dev) (q gen e : Nat) : Nat → Nat → Nat
  | 0, k => k
  | fuel + 1, k =>
    match d.occ { part := q, gen := gen, entry := e, k := k } with
    | some o => if o.cancelled then d.uncancelled q gen e fuel (k + 1) else k
    | none => k

/-- The earliest bindable step of entry `e` for a stream: not bound by it, not cancelled, not before its restart slot or
its timetable's resumption (R58, R88). -/
def Dev.bindable (d : Dev) (x : Stream) (q : Nat) (tt : Timetable) (e : Nat) (te : TEntry) : Option Nat :=
  let own := tt.base + te.depart
  let d0 := own + d.shiftOf tt.shift0
  let from' (slot first : Nat) : Nat := if slot ≤ first then 0 else ceilDiv (slot - first) tt.period
  let k0 := max (x.firstK q tt.gen e) (max (from' x.restart d0) (from' (tt.resume.getD 0) own))
  let k := d.uncancelled q tt.gen e ((d.part q).occs.length + 1) k0
  let before : Bool := match (d.part q).staged with
    | some st => decide (d0 + k * tt.period < st.base + d.shiftOf st.shift0)
    | none => true
  if tt.hasStep k ∧ before then some k else none

/-- The timetable and the entry that a DEPART of stream `s` of bay `b` names, if it may bind from it (R89). -/
def Dev.departEntry (d : Dev) (b s e : Nat) (part : Option Nat) : Option (Nat × Timetable × TEntry) :=
  match part with
  | none => none
  | some q => match (d.part q).installed with
    | none => none
    | some tt => match tt.entries[e]? with
      | none => none
      | some te => if te.stream = s ∧ te.names b then some (q, tt, te) else none

/-- DEPART binds the earliest bindable occurrence of its entry, or faults (R87 to R89). Answers the occurrence's key. -/
def departBind (t : TimeUnit) (i : Issue) (d : Dev) : Option OccKey × Dev :=
  let e := fld i.w 70 14
  let ctok := fld i.w 64 6
  let no (lo : Nat) (d : Dev) : Option OccKey × Dev := (none, i.refuse t (refused causeEntry lo) d)
  match d.departEntry i.b i.s e i.part with
  | none => no 70 d
  | some (q, tt, te) =>
    match d.bindable (d.stream i.b i.s) q tt e te with
    | none => no 70 d
    | some k =>
      match d.ensureOcc q tt e k with
      | none => no 70 d
      | some (o, d2) =>
        if o.bound ≠ 0 ∧ o.ctoken ≠ some ctok then no 64 d2
        else
          let d3 := d2.modOcc o.key (fun o =>
            { o with bound := setBit o.bound (i.b % 4), ctoken := some (o.ctoken.getD ctok) })
          (some o.key, d3.modStream i.b i.s (fun x => { (x.setFirstK o.key) with occ := some o.key }))

/-- The stream waits at its DEPART for its tokens and its occurrence. -/
def departWait (i : Issue) (k : Option OccKey) (d : Dev) : Dev :=
  (d.modBay i.b (fun y => { y with met := y.met.filter (· != i.s) })).modStream i.b i.s (fun x =>
    { x with
      state := .waitDepart
      wait := some { mask := BitVec.ofNat 64 i.w, clear := bit i.w 84, occ := k, ctoken := fld i.w 64 6, word := i.word } })

/-- DEPART (R89): close the current occurrence, bind the earliest bindable one of the entry, and wait. While a TIME
withdrawal stands nothing can be bound yet: the DEPART waits and binds when timetables resume (R58; DEDUCED, log entry 85). -/
def departBody (t : TimeUnit) (i : Issue) (d : Dev) : Dev :=
  let d1 := d.closeOcc i.b i.s
  if d1.timeOut then
    match d1.departEntry i.b i.s (fld i.w 70 14) i.part with
    | none => i.refuse t (refused causeEntry 70) d1
    | some _ => departWait i none (d1.advance i.b i.s)
  else
    match departBind t i d1 with
    | (none, d2) => d2
    | (some k, d2) => departWait i (some k) (d2.advance i.b i.s)

/-- A waiting DEPART departs: tokens that it clears are cleared, meters load and the station clock starts (R59, R70, R89,
R91). The start of an occurrence of several bays is that of the bay that departs first (DESIGN CHOICE, log entry 120). -/
def departGo (b s : Nat) (t : TimeUnit) (wt : Wait) (o : Occ) (d : Dev) : Dev :=
  let d1 := if wt.clear then d.modBay b (fun y => y.clearTokens wt.mask false) else d
  let d2 := d1.modOcc o.key (fun o =>
    let o1 := { o with start := some (o.start.getD t.now) }
    if o1.meters.isEmpty then d1.loadMeters t o1 else o1)
  d2.modStream b s (fun x => { x with state := .run, wait := none, clock := some t.now })

/-- Whether a stream's wait for tokens holds no longer: they are all set, or, where it does not clear them, they have been
since it began (R84, R85, R89; DEDUCED, log entry 85). -/
def Bay.waitOver (y : Bay) (s : Nat) (wt : Wait) : Bool := y.tokens &&& wt.mask == wt.mask || (!wt.clear && y.met.contains s)

/-- The occurrence of a waiting DEPART: the one that it bound, or, where that is cancelled or none could be bound yet, one
bound anew (R58, R88). -/
def departOcc (b s : Nat) (t : TimeUnit) (wt : Wait) (d : Dev) : Option Occ × Dev :=
  match (wt.occ.bind d.occ).filter (fun o => !o.cancelled) with
  | some o => (some o, d)
  | none =>
    let x := d.stream b s
    let i : Issue := { b := b, s := s, w := wt.word.toNat, word := wt.word, iptr := x.iptr - 1, x := x, part := d.partOfBay b }
    match departBind t i (d.modStream b s (fun x => { x with occ := none })) with
    | (none, d1) => (none, d1)
    | (some k, d1) => (d1.occ k, d1.modStream b s (fun x => { x with wait := some { wt with occ := some k } }))

/-- Whether a clearing wait of a stream could end now (R84, R85, R89). -/
def Dev.clearingNow (d : Dev) (t : TimeUnit) (b s : Nat) : Bool :=
  let x := d.stream b s
  let y := d.bay b
  match x.wait with
  | none => false
  | some wt =>
    wt.clear && y.waitOver s wt &&
    (x.state == .waitToken ||
      (x.state == .waitDepart && (y.voidIn wt.mask).isNone && !d.timeOut &&
        match wt.occ.bind d.occ with
        | some o => !o.cancelled && (o.te.early || decide (d.depSlot o ≤ t.slot))
        | none => false))

/-- Whether the clearing wait of another stream, which the order of R79 ranks first, ends before this one (R85). -/
def Dev.clearBlocked (d : Dev) (t : TimeUnit) (b s : Nat) : Bool :=
  (List.range 3).any (fun r => r != s && d.clearingNow t b r && d.outranks b r s)

/-- The end of a DEPART's wait (R58, R59, R85, R88, R89, R91, R113). -/
def departRelease (b s : Nat) (t : TimeUnit) (d : Dev) : Dev :=
  let x := d.stream b s
  match x.state, x.wait with
  | .waitDepart, some wt =>
    if !d.running || d.hold.paused then d
    else
      match if (d.bay b).met.contains s && !wt.clear then none else (d.bay b).voidIn wt.mask with
      | some cls => d.voidDepart t b s cls
      | none =>
        if d.timeOut then d
        else
          match departOcc b s t wt d with
          | (none, d1) => d1
          | (some o, d1) =>
            if !(d1.bay b).waitOver s wt then d1
            else if !o.te.early ∧ t.slot < d1.depSlot o then d1
            else if wt.clear ∧ d1.clearBlocked t b s then d1
            else departGo b s t wt o d1
  | _, _ => d

/-! ### The other sequencer instructions (R84, R90, R93, R98, R99, R100) -/

def nopBody (i : Issue) (d : Dev) : Dev := d.advance i.b i.s

def endBody (i : Issue) (d : Dev) : Dev := ((d.closeOcc i.b i.s).advance i.b i.s).enterIdle i.b i.s

/-- Whether the target of a branch is in the fetch buffer (R74). -/
def Stream.buffered (x : Stream) (target : Nat) : Bool :=
  let line := (x.runBase.toNat * 16 + 16 * target) / 64 * 64
  x.fetch.any (fun k => k.addr = line)

/-- Take a branch: IPTR becomes the target, and the stream stalls when the target is not in the buffer (R74, R99). -/
def Dev.jump (i : Issue) (d : Dev) : Dev :=
  let target := fld i.w 0 32
  (d.advance i.b i.s).modStream i.b i.s (fun x => { x with iptr := w32 target, stall := !x.buffered target })

def jumpBody (i : Issue) (d : Dev) : Dev := d.jump i

/-- BRANCH mode 1: if LCn ≠ 0, count down and jump (R99). -/
def loopBody (i : Issue) (d : Dev) : Dev :=
  let n := fld i.w 32 2
  if vget 0 i.x.lc n = 0 then d.advance i.b i.s
  else (d.jump i).modStream i.b i.s (fun x => { x with lc := vmod x.lc n (fun c => c - 1) })

/-- BRANCH mode 2: LCn = COUNT (R99). -/
def setCountBody (i : Issue) (d : Dev) : Dev :=
  (d.advance i.b i.s).modStream i.b i.s (fun x => { x with lc := vmod x.lc (fld i.w 32 2) (fun _ => w32 (fld i.w 36 32)) })

/-- CFG: write one field of the shadow, or refuse its value (R93, R100). -/
def cfgBody (t : TimeUnit) (i : Issue) (d : Dev) : Dev :=
  let f := fld i.w 64 3
  let g := fld i.w 67 3
  let v := fld i.w 0 64
  if cfgFields g ≤ f then i.refuse t (refused causeConfig 64) d
  else if cfgBad g f v then i.refuse t (refused causeConfig 0) d
  else (d.advance i.b i.s).modStream i.b i.s (fun x => { x with shadow := cfgSet x.shadow g f v })

/-- COMMIT: copy the shadow of every named group into live (R93). -/
def commitBody (i : Issue) (d : Dev) : Dev :=
  (d.advance i.b i.s).modStream i.b i.s (fun x =>
    { x with live := (maskBits 8 (fld i.w 0 8)).foldl (fun c g => cfgCopy x.shadow c g) x.live })

def syncSetBody (i : Issue) (d : Dev) : Dev :=
  (d.advance i.b i.s).modBay i.b (fun y => { y with tokens := y.tokens ||| BitVec.ofNat 64 i.w })

def syncClearBody (i : Issue) (d : Dev) : Dev :=
  (d.advance i.b i.s).modBay i.b (fun y => y.clearTokens (BitVec.ofNat 64 i.w) false)

/-- SYNC WAIT and WAITCLR: the stream waits until every token of the mask is set (R84). -/
def syncWaitBody (i : Issue) (d : Dev) : Dev :=
  ((d.advance i.b i.s).modBay i.b (fun y => { y with met := y.met.filter (· != i.s) })).modStream i.b i.s (fun x =>
    { x with state := .waitToken, wait := some { mask := BitVec.ofNat 64 i.w, clear := fld i.w 64 3 == 3, occ := none,
                                                 ctoken := 0, word := i.word } })

def syncWaitClrBody (i : Issue) (d : Dev) : Dev := syncWaitBody i d

/-- The end of a SYNC wait; a clearing wait clears its mask as it ends, and ends only when R79 ranks it first among those that
could end (R84, R85). -/
def syncWaitEnd (b s : Nat) (t : TimeUnit) (d : Dev) : Dev :=
  let x := d.stream b s
  match x.state, x.wait with
  | .waitToken, some wt =>
    if d.hold.paused ∨ !d.running ∨ !(d.bay b).waitOver s wt ∨ (wt.clear ∧ d.clearBlocked t b s) then d
    else
      (if wt.clear then d.modBay b (fun y => y.clearTokens wt.mask false) else d).modStream b s
        (fun x => { x with state := .run, wait := none })
  | _, _ => d

/-- SYNC RSET: set one token in another bay of the same partition (R84, R110). -/
def syncRsetBody (t : TimeUnit) (i : Issue) (d : Dev) : Dev :=
  let rb := fld i.w 67 6
  if i.part.isNone ∨ d.partOfBay rb ≠ i.part then i.refuse t (refused causeScope 67) d
  else (d.advance i.b i.s).modBay rb (fun y => { y with rsetIn := y.rsetIn ++ [fld i.w 73 6] })

/-- The arrival of an RSET in its target bay; in a HOLD tokens are frozen, and it arrives afterwards (R62, R84). -/
def rsetArrival (b c : Nat) (d : Dev) : Dev :=
  if d.hold.paused then d
  else if (d.bay b).rsetIn.contains c then
    d.modBay b (fun y => { (y.setToken c) with rsetIn := y.rsetIn.erase c })
  else d

/-- The end of a branch stall: the target's line has arrived (R74). -/
def branchStallEnd (b s : Nat) (d : Dev) : Dev := d.modStream b s (fun x => { x with stall := false })

end Sys2Proof.Machine
end

