-- ==== Sys2Proof/Machine/LineTime.lean ====
section
/-! DEFINITION. The line-time unit, its sources and measurements, HOLD and RESUME, STEP, and the life of occurrences and
timetables against line time (R38 to R44, R55 to R72, R87, R88, R395 to R397, R498, R499). -/

namespace Sys2Proof.Machine

/-! ### TIME withdrawals (R57, R58, R72) -/

/-- Withdraw every occurrence of the device with cause TIME: those bound or departed get a LATE record, and all are
cancelled (R57, R58). -/
def Dev.timeWithdraw (t : TimeUnit) (d : Dev) : Dev :=
  let d1 := d.openOccs.foldl (fun d o =>
    if o.bound ≠ 0 ∨ o.reached ∨ d.depSlot o ≤ t.slot then d.withdrawCancel t lateTime o.key else d.cancel o.key) d
  if d.anyTimetable then { d1 with timeOut := true } else d1

/-- After relock in line slot `slot` each timetable resumes at its first step boundary thereafter, as a slot of the timetable,
which a later HOLD moves as it moves the others (R45, R58). -/
def Timetable.resumeAt (tt : Timetable) (shift slot : Nat) : Timetable :=
  let next := slot + 1 - (shift - tt.shift0)
  { tt with resume := some (tt.base + ceilDiv (next - tt.base) tt.period * tt.period) }

/-- The end of a TIME withdrawal (R58). -/
def Dev.relock (t : TimeUnit) (d : Dev) : Dev :=
  if d.timeOut then
    { d with
      timeOut := false
      parts := d.parts.map (fun p =>
        { p with installed := p.installed.map (fun tt => tt.resumeAt d.shift.toNat t.slot),
                 staged := p.staged.map (fun tt => tt.resumeAt d.shift.toNat t.slot) }) }
  else d

/-! ### Lock states (R41) -/

/-- A source is present: UNLOCKED goes to ACQUIRING (R41). -/
def timeSourcePresent (t : TimeUnit) : TimeUnit :=
  if t.lock = .unlocked then { t with lock := .acquiring, good := 0, epochSeen := false } else t

/-- 16 consecutive good measurements: ACQUIRING goes to LOCKED (R41). -/
def timeLock (t : TimeUnit) (d : Dev) : TimeUnit × Dev :=
  if t.lock = .acquiring ∧ 16 ≤ t.good then
    let t' := { t with lock := .locked, good := 0 }
    (t', d.relock t')
  else (t, d)

/-- The CAUTION record of the line-time unit, cause 0x04 (R60, R95); the spec states no count for it, and EV_COUNT is 0 (DESIGN
CHOICE, log entry 122). -/
def holdoverCaution (t : TimeUnit) (d : Dev) : Dev :=
  d.emit t none { record 0x06 (plainSrc 0x31 0) with detail := detail [(48, 1, 0x04)] }

/-- The source is lost: ACQUIRING goes to UNLOCKED, LOCKED to HOLDOVER with a CAUTION (R41, R60). -/
def timeSourceLost (t : TimeUnit) (d : Dev) : TimeUnit × Dev :=
  match t.lock with
  | .acquiring => ({ t with lock := .unlocked, good := 0, since := none }, d)
  | .locked =>
    let t' := { t with lock := .holdover, since := some t.now }
    (t', holdoverCaution t' d)
  | _ => (t, d)

/-- The source is regained with the offset within ±4 ns: HOLDOVER goes to LOCKED (R41). -/
def timeSourceRegained (t : TimeUnit) (offset : Int) : TimeUnit :=
  if t.lock = .holdover ∧ -64 ≤ offset ∧ offset ≤ 64 then { t with lock := .locked, since := none } else t

/-- 10 ms in HOLDOVER: UNLOCKED, and every occurrence is withdrawn (R41, R57). -/
def holdoverExpiry (t : TimeUnit) (d : Dev) : TimeUnit × Dev :=
  if t.lock = .holdover ∧ optAll t.since (fun u => decide (u + 10000000 ≤ t.now)) then
    ({ t with lock := .unlocked, since := none, good := 0 }, d.timeWithdraw t)
  else (t, d)

/-- Take one offset measurement in 1/16 ns: the count of consecutive good ones, up to 16, and OFFSET (R40, R41). An offset beyond 16
signed bits keeps its low 16 (DESIGN CHOICE, log entry 123). -/
def TimeUnit.measure (t : TimeUnit) (offset : Int) : TimeUnit :=
  { t with
    good := if t.lock = .acquiring ∧ -64 ≤ offset ∧ offset ≤ 64 then min 16 (t.good + 1) else 0
    offset := BitVec.ofNat 16 (unsx 16 offset) }

/-- The difference of the count from the nearest multiple of `m` lt, in 1/16 ns. -/
def TimeUnit.phase (t : TimeUnit) (m : Nat) : Int :=
  let r := t.now % m
  if 2 * r ≤ m then 16 * (r : Int) else 16 * ((r : Int) - m)

/-- An LREF rising edge in pin mode gives one measurement (R40). -/
def lrefEdge (t : TimeUnit) : TimeUnit :=
  if t.srcMode ∨ t.lock = .unlocked then t else t.measure (t.phase 100)

/-- The epoch instant in pin mode: while ACQUIRING it sets the count, at first from TT_EPOCH and then to the next multiple of
1,000,000,000 lt, and the measurement is taken from the count as set; in LOCKED and HOLDOVER it is a measurement from the epoch
(R40; DEDUCED, log entry 86). -/
def epochInstant (t : TimeUnit) : TimeUnit :=
  if t.srcMode ∨ t.lock = .unlocked then t
  else if t.lock = .acquiring then
    let next := if t.epochSeen then ceilDiv t.now 1000000000 * 1000000000 else t.epoch.toNat
    let t' := { t with ltime := w64 next, epochSeen := true, edge := next / t.slotLen * t.slotLen }
    t'.measure 0
  else t.measure (t.phase 1000000000)

/-! ### Time over links (R42, R43, R395, R397) -/

/-- The mean of a list of integers, toward minus infinity; 0 for none (R43; DESIGN CHOICE, log entry 124). -/
def meanInt (xs : List Int) : Int := if xs.isEmpty then 0 else xs.foldl (· + ·) 0 / (xs.length : Int)

/-- One completed exchange on link `l`: its four stamps in 1/16 ns give a delay and an offset, halved toward minus infinity, each
averaged over the last 16 or over as many as there are (R43; DESIGN CHOICE, log entry 124). In link mode on the source link the
filtered offset is a measurement. -/
def timeExchange (l : Nat) (t1 t2 t3 t4 : Nat) (t : TimeUnit) (d : Dev) : TimeUnit × Dev :=
  let k := d.link l
  let a : Int := (t2 : Int) - t1
  let b : Int := (t4 : Int) - t3
  let delays := ((a + b) / 2 :: k.delays).take 16
  let offset : Int := (a - b) / 2 + sx 16 k.asym.toNat
  let offsets := (offset :: k.offsets).take 16
  let d1 := d.modLink l (fun k =>
    { k with delays := delays, offsets := offsets, delay := w32 (unsx 32 (meanInt delays)),
             samples := BitVec.ofNat 16 (min 0xFFFF (k.samples.toNat + 1)) })
  if t.srcMode ∧ t.srcLink.toNat = l ∧ t.lock ≠ .unlocked then (t.measure (meanInt offsets), d1) else (t, d1)

/-- Note a pending STEP value; one for the same slot replaces, and beyond 16 it is discarded (R397). -/
def Dev.noteStep (value slot : Nat) (d : Dev) : Dev :=
  let rest := d.stepPend.filter (fun p => p.2 != slot)
  if rest.length < 16 then { d with stepPend := rest ++ [(value, slot)] } else d

/-- A TIME packet arrives on link `l` at `rx` (1/16 ns): its stamps complete an exchange, its SYNC byte gives the sender's
depth and lock state, and over the source link its STEP counts as broadcast (R43, R68, R395, R397). -/
def timePacket (l : Nat) (p : Packet) (rx : Nat) (t : TimeUnit) (d : Dev) : TimeUnit × Dev :=
  let w := ofBytes (natBytes p.payload)
  let tx := fld w 0 64
  let back := fld w 64 64
  let sync := fld w 256 8
  let k := d.link l
  let mine := k.lastTx.toNat
  let d1 := d.modLink l (fun k => { k with lastRx := w64 rx, recvSeq := k.recvSeq })
  let (t1, d2) := if mine ≠ 0 ∧ back ≠ 0 then timeExchange l mine back tx rx t d1 else (t, d1)
  if t.srcLink.toNat = l then
    let t2 := if t.srcMode then
        let t' := { t1 with depth := if t1.root then 0 else BitVec.ofNat 4 (fld sync 0 4 + 1) }
        if t'.lock = .acquiring then { t' with ltime := w64 ((tx + k.delay.toNat) / 16), edge := (tx + k.delay.toNat) / 16 / t'.slotLen * t'.slotLen } else t'
      else t1
    let d3 := if fld sync 4 2 = 3 ∧ d2.fab.srcLock ≠ 3 then holdoverCaution t2 d2 else d2
    let d4 := { d3 with fab := { d3.fab with srcLock := BitVec.ofNat 2 (fld sync 4 2), rootAddr := BitVec.ofNat 12 (fld w 272 12) } }
    (t2, if t.slot < fld w 192 64 then d4.noteStep (fld w 128 64) (fld w 192 64) else d4)
  else (t1, d2)

/-! ### HOLD (R61 to R64, R330, R396, R397, R485) -/

/-- The CAUSE byte and the reporting unit of a hold cause (R12, R60). -/
def HoldCause.code : HoldCause → Nat
  | .stack _ => 0x01
  | .thermal => 0x02
  | .supply => 0x03
def HoldCause.src : HoldCause → Nat
  | .stack s => stackSrc s
  | _ => plainSrc 0x32 0

/-- A HOLD record (R60). `flags` is byte 49. -/
def holdRecord (h : HoldId) (flags : Nat) (withdrawn : Bool) : EvRec :=
  { record 0x07 h.src with
    withdrawn := withdrawn, count := w64 h.pause
    detail := detail [(48, 1, h.cause), (49, 1, flags), (50, 2, h.init), (52, 2, h.seq), (56, 8, h.resume.getD 0)] }

/-- Byte 49 of the record of a resumed hold: resumed, and whether its HOLD came after its pause slot had begun (R60). -/
def HoldId.resumedFlags (h : HoldId) : Nat := 1 + 2 * b2n h.late

/-- The first record of a hold stands for the withdrawal of every undelivered occurrence (R57). -/
def Dev.holdWithdraw (t : TimeUnit) (h : HoldId) (flags : Nat) (d : Dev) : Dev :=
  let any := !d.openOccs.isEmpty || d.anyTimetable
  ({ d with parts := d.parts.map (fun p =>
      { p with occs := p.occs.map (fun o => if o.open then { o with withdrawn := true } else o) }) } : Dev).emit t none
    (holdRecord h flags any)

/-- Keep the notices of the first 64 identities of a list, latest first. -/
def keepIds (n : Nat) : List (Bool × Nat × Nat) → List (Nat × Nat) → List (Bool × Nat × Nat)
  | [], _ => []
  | x :: rest, ids =>
    if ids.contains x.2 then x :: keepIds n rest ids
    else if ids.length < n then x :: keepIds n rest (ids ++ [x.2])
    else keepIds n rest ids

/-- Remember a notice; those of the last 64 identities are kept, a HOLD and its RESUME being of one identity (R397). -/
def Hold.remember (h : Hold) (resume : Bool) (init seq : Nat) : Hold :=
  { h with seen := keepIds 64 ((resume, init, seq) :: h.seen.filter (fun x => x != (resume, init, seq))) [] }

/-- Raise a hold cause unless this device's hold for it is outstanding (R330). -/
def Dev.raiseHold (c : HoldCause) (d : Dev) : Dev :=
  if d.hold.raised.contains c ∨ d.hold.own.any (fun x => x.1 = c) then d
  else { d with hold := { d.hold with raised := d.hold.raised ++ [c] } }

/-- Send the HOLD of one raised cause with pause slot h + 1 + max(1, 8,192 / L) (R61). -/
def Dev.sendHold (t : TimeUnit) (c : HoldCause) (d : Dev) : Dev :=
  let init := d.fab.addr.toNat
  let seq := d.hold.seq.toNat
  let h : HoldId := { init := init, seq := seq, pause := t.slot + 1 + t.lead, resume := none, cause := c.code, src := c.src, late := false }
  let held : Hold := { d.hold with live := d.hold.live ++ [h], seq := d.hold.seq + 1, own := d.hold.own ++ [(c, seq)] }
  let d1 := { d with hold := held.remember false init seq }
  (d1.flood (notice d1 1 c.code init seq h.pause 0 0) (fun _ => false)).holdWithdraw t h 0

/-- HOLD_SEND: at the boundary after a cause arose, every raised cause is sent (R61). -/
def holdSend (t : TimeUnit) (d : Dev) : Dev :=
  if t.now % t.slotLen ≠ 0 then d
  else (d.hold.raised.foldl (fun d c => d.sendHold t c) { d with hold := { d.hold with raised := [] } })

/-- A HOLD notice arrives on link `l`: forward it once, keep it, and record it; late when its pause slot has begun
(R61, R64, R397). -/
def holdNotice (l init seq cause pause : Nat) (t : TimeUnit) (d : Dev) : Dev :=
  if d.hold.seen.contains (false, init, seq) then d
  else
    let resumed := d.hold.seen.contains (true, init, seq)
    let d1 := ({ d with hold := d.hold.remember false init seq }).forward (notice d 1 cause init seq pause 0 0) (fun _ => false)
    if resumed then d1
    else
      let late := decide (pause ≤ t.slot)
      let h : HoldId := { init := init, seq := seq, pause := pause, resume := none, cause := cause, src := plainSrc 0x20 l, late := late }
      ({ d1 with hold := { d1.hold with live := d1.hold.live ++ [h], late := d1.hold.late || late } }).holdWithdraw t h
        (if late then 2 else 0)

/-- The earliest pause slot of the outstanding holds (R63). -/
def Hold.pauseSlot (h : Hold) : Option Nat := h.live.foldl (fun m x => some (min (m.getD x.pause) x.pause)) none

/-- The latest resume slot, once every outstanding identity has resumed (R63). -/
def Hold.resumeSlot (h : Hold) : Option Nat :=
  if h.live.isEmpty then none
  else h.live.foldl (fun m x =>
    match m, x.resume with
    | some a, some b => some (max a b)
    | _, _ => none) (some 0)

/-- A stream pauses at an instruction boundary: every stream that is not IDLE or FAULTED reports HELD (R62, R75). -/
def Stream.pause (x : Stream) : Stream :=
  match x.state with
  | .idle | .faulted | .held => x
  | st => { x with resumeTo := st, state := .held }

/-- At resume a stream reports the state that its conditions then give (R75). -/
def Stream.unpause (x : Stream) : Stream :=
  match x.state with
  | .held => { x with state := if x.resumeTo = .waitUnit then .run else x.resumeTo }
  | _ => x

/-- Change every stream of the device. -/
def Dev.mapStreams (f : Stream → Stream) (d : Dev) : Dev :=
  { d with bays := d.bays.map (fun y => { y with streams := y.streams.map f }) }

/-- PAUSE_SLOT: at a boundary at or after the earliest pause slot the device pauses (R62, R64). -/
def pauseSlot (t : TimeUnit) (d : Dev) : Dev :=
  if d.hold.paused ∨ t.now % t.slotLen ≠ 0 then d
  else
    match d.hold.pauseSlot with
    | none => d
    | some p =>
      if t.slot < p then d
      else ({ d with hold := { d.hold with paused := true } }).mapStreams Stream.pause

/-- Whether a hold cause of this device has cleared for as long as its rule asks (R331, R477, R485). -/
def Dev.cleared (t : TimeUnit) (d : Dev) : HoldCause → Bool
  | .stack s => match (d.stack s).normalSince with
    | some u => decide (u + 1000000 ≤ t.now)
    | none => false
  | .thermal => match d.pwr.dieCoolSince with
    | some u => decide (u + 1000000 ≤ t.now)
    | none => false
  | .supply => match d.pwr.vinOkSince with
    | some u => decide (u + 1000000 ≤ t.now)
    | none => false

/-- Send RESUME for one of this device's holds, with a resume slot of the device's choosing, a free value not below the bound
of R63 (DESIGN CHOICE, log entry 14). -/
def Dev.sendResume (t : TimeUnit) (c : HoldCause) (d0 : Dev) : Dev :=
  match d0.hold.own.find? (fun x => x.1 = c) with
  | none => d0
  | some (_, seq) =>
    let (v, d) := d0.takeFree
    let init := d.fab.addr.toNat
    let slot := max (t.slot + t.lead + 1) v.toNat
    let held : Hold := { d.hold with
      own := d.hold.own.filter (fun x => x.1 != c)
      live := d.hold.live.map (fun h => if h.init = init ∧ h.seq = seq then { h with resume := some slot } else h) }
    let d1 := { d with hold := held.remember true init seq }
    let d2 := d1.flood (notice d1 2 0 init seq slot 0 0) (fun _ => false)
    match d1.hold.live.find? (fun h => h.init = init ∧ h.seq = seq) with
    | some h => d2.emit t none (holdRecord h h.resumedFlags false)
    | none => d2

/-- RESUME_SEND: send RESUME for every own hold whose cause has cleared (R63). -/
def resumeSend (t : TimeUnit) (d : Dev) : Dev :=
  ((d.hold.own.map (·.1)).filter (d.cleared t)).foldl (fun d c => d.sendResume t c) d

/-- A RESUME notice arrives on a link; its record names the unit that the hold came by (R12, R60, R63, R397). -/
def resumeNotice (_l init seq slot : Nat) (t : TimeUnit) (d : Dev) : Dev :=
  if d.hold.seen.contains (true, init, seq) then d
  else
    let d1 := ({ d with hold := d.hold.remember true init seq }).forward (notice d 2 0 init seq slot 0 0) (fun _ => false)
    match d1.hold.live.find? (fun h => h.init = init ∧ h.seq = seq) with
    | none => d1
    | some h =>
      let h' := { h with resume := some slot }
      ({ d1 with hold := { d1.hold with live := d1.hold.live.map (fun x => if x.init = init ∧ x.seq = seq then h' else x) } } : Dev).emit
        t none (holdRecord h' h'.resumedFlags false)

/-- Make the records of the occurrences of installed timetables whose spans meet the slots `lo` to `hi` and whose entries are
wanted; those that a TIME withdrawal has taken stay out (R58). -/
def Dev.makeOccs (lo hi : Nat) (want : TEntry → Bool) (d : Dev) : Dev :=
  let per (d : Dev) (x : Nat × Timetable) : Dev :=
    let tt := x.2
    let b := tt.base + d.shiftOf tt.shift0
    (tt.entries.zipIdx).foldl (fun (d : Dev) (y : TEntry × Nat) =>
      let first := b + y.1.depart
      if !want y.1 ∨ hi < first then d
      else
        let k0 := ceilDiv (lo + 1 - (first + y.1.span)) tt.period
        (upTo ((hi - first) / tt.period + 1 - k0)).foldl (fun (d : Dev) i =>
          if optAll tt.resume (fun r => decide (r ≤ tt.base + y.1.depart + (k0 + i) * tt.period)) then
            match d.ensureOcc x.1 tt y.2 (k0 + i) with
            | some (_, d1) => d1
            | none => d
          else d) d) d
  if d.timeOut then d else d.timetables.foldl per d

/-- Whether a maintenance span is running (R65). -/
def Dev.inMaint (t : TimeUnit) (d : Dev) : Bool := match d.maint with | some e => decide (t.slot ≤ e) | none => false

/-- Step 3 of emergency retraining: the undelivered occurrences that name stack `s` in a slot from now to slot e are withdrawn
with cause RETRAIN, those already withdrawn only when their expected slot moves later. Inside a maintenance span or during a
HOLD nothing is withdrawn (R323, R324). Answers whether it withdraws. -/
def Dev.retrainWithdraw (t : TimeUnit) (s : Nat) (d : Dev) : Bool × Dev :=
  if d.hold.paused ∨ d.inMaint t then (false, d)
  else
    let e := (t.now + 40000) / t.slotLen
    let names (te : TEntry) : Bool := te.hbmmask.testBit s
    let d1 := d.makeOccs t.slot e names
    let later (o : Occ) : Nat := d1.promise o + ceilDiv 40000 t.slotLen
    let hit (o : Occ) : Bool :=
      names o.te && decide (d1.depSlot o ≤ e) && decide (t.slot ≤ d1.promise o) && optAll o.expect (fun x => decide (x < later o))
    (true, (d1.openOccs.filter hit).foldl (fun (d : Dev) o => d.withdraw t lateRetrain (later o) o.key) d1)

/-- Step 3 for every emergency retraining that still runs when a HOLD ends (R324). -/
def Dev.retrainResume (t : TimeUnit) (d : Dev) : Dev :=
  ((upTo 12).filter (fun s => (maskBits 16 (d.stack s).training.toNat).any (fun c =>
    (vget Channel.reset (d.stack s).chans c).emergency))).foldl (fun (d : Dev) s => (d.retrainWithdraw t s).2) d

/-- Note the departure boundary of the occurrences that departed before the pause slot: the shift that now grows moves the slots of
their promise, not the boundary they left at (R70). -/
def Dev.noteDepartures (pause : Nat) (d : Dev) : Dev :=
  { d with parts := d.parts.map (fun p => { p with occs := p.occs.map (fun o =>
      if o.open ∧ o.depAt.isNone ∧ d.depSlot o < pause then { o with depAt := some (d.depSlot o) } else o) }) }

/-- A host's set (true) or clear of tokens (R76, R86). -/
def Bay.hostTokens (y : Bay) (x : Bool × W64) : Bay :=
  if x.1 then { y with tokens := y.tokens ||| x.2 } else y.clearTokens x.2 true

/-- The host's token writes that arrived in a HOLD take effect, in order (R62; DESIGN CHOICE, log entry 125). -/
def Bay.tokensGoOn (y : Bay) : Bay := y.tokWait.foldl (fun (y : Bay) x => y.hostTokens x) { y with tokWait := [] }

/-- RESUME_SLOT: at the latest resume slot, with every identity resumed, TT_SHIFT grows by the resume slot minus the
domain's pause slot, pending STEP values at or after the pause slot move with it, meters load for the slot, tokens change again
and streams go on (R56, R62, R63, R64, R69). -/
def resumeSlot (t : TimeUnit) (d : Dev) : Dev :=
  match d.hold.resumeSlot, d.hold.pauseSlot with
  | some r, some p =>
    if t.slot < r ∨ t.now % t.slotLen ≠ 0 then d
    else
      let d0 := d.noteDepartures p
      let d1 : Dev := { d0 with
        hold := { d0.hold with live := [], paused := false, late := false }
        shift := d0.shift + w64 (r - p)
        stepPend := d0.stepPend.map (fun x => if p ≤ x.2 then (x.1, x.2 + (r - p)) else x)
        bays := d0.bays.map Bay.tokensGoOn }
      ((upTo 32).foldl (fun (d : Dev) l => d.service l) (((d1.mapStreams Stream.unpause).reloadMeters t).retrainResume t)).sendSteps
        (t.slot + 1) (t.slot + 1 + t.lead)
  | _, _ => d

/-! ### STEP (R68, R69, R397) -/

/-- The installed timetable that drives STEP, if this device is STEP root (R68). -/
def Dev.rootTable (d : Dev) : Option Timetable :=
  ((List.range 16).filterMap (fun q => (d.part q).installed)).find? (·.root)

/-- The value that the STEP root sets next and the line slot at which it does, for a slot `s`: its first step boundary after `s`
(R68, R498). -/
def Dev.comingStep (d : Dev) (s : Nat) : Option (Nat × Nat) :=
  (d.timetables.filterMap (fun x =>
    let tt := x.2
    let b := tt.base + d.shiftOf tt.shift0
    let k := if s < b then 0 else (s - b) / tt.period + 1
    let ends : Bool := match (d.part x.1).staged with
      | some st => tt.gen != st.gen && decide (st.base + d.shiftOf st.shift0 ≤ b + k * tt.period)
      | none => false
    if tt.root && (tt.steps == 0 || decide (k < tt.steps)) && !ends then some (tt.step0 + k, b + k * tt.period) else none)).foldl
    (fun (m : Option (Nat × Nat)) x => if optAll (m.map (·.2)) (fun s => decide (x.2 < s)) then some x else m) none

/-- The STEP value and its slot that a TIME packet carries: the pending value that takes effect first, at the STEP root its next one, or
the value in force when none is pending (R68, R395). -/
def Dev.stepNews (t : TimeUnit) (d : Dev) : Nat × Nat :=
  match d.comingStep t.slot with
  | some x => x
  | none => (d.stepPend.foldl (fun (m : Option (Nat × Nat)) x =>
      if optAll (m.map (·.2)) (fun s => decide (x.2 < s)) then some x else m) none).getD (d.step.toNat, t.slot)

/-- STEP_BOUNDARY of partition `q`'s timetable: the root sets STEP, and reduced capacity is rechecked (R65, R68, R325). -/
def stepBoundary (q : Nat) (t : TimeUnit) (d : Dev) : Dev :=
  match (d.part q).installed with
  | none => d
  | some tt =>
    match d.atStep tt t.slot with
    | none => d
    | some k =>
      if t.now % t.slotLen ≠ 0 ∨ d.hold.paused then d
      else
        let d1 :=
          if tt.root ∧ (tt.steps = 0 ∨ k < tt.steps) then { d with step := w64 (tt.step0 + k) } else d
        match d1.recheck t q with
        | none => d1
        | some r =>
          (d1.emit t (some q) (d1.refusedRecord q tt.addr tt.base { r with slot := r.slot - d1.shiftOf tt.shift0 })).dropInstalled t q
            lateReset

/-- STEP_APPLY: a pending value takes effect at its slot boundary, never during a HOLD (R68, R69). -/
def stepApply (t : TimeUnit) (d : Dev) : Dev :=
  if d.hold.paused ∨ t.now % t.slotLen ≠ 0 then d
  else
    match d.stepPend.find? (fun p => p.2 = t.slot) with
    | some p => { d with step := w64 p.1, stepPend := d.stepPend.filter (fun x => x.2 != t.slot) }
    | none => d

/-- A STEP notice on link `l`: accepted only over TT_SYNC.SRC_LINK, forwarded to every other link (R396, R397). -/
def stepNotice (l value slot : Nat) (t : TimeUnit) (d : Dev) : Dev :=
  if t.srcLink.toNat ≠ l then d
  else (d.noteStep value slot).forward (notice d 4 0 0 0 slot value 0) (fun x => x == l)

/-! ### Occurrences against line time (R58, R77, R88, R113, R499) -/

/-- The timetable of partition `q` with an entry, if its occurrence of step `k` departs from it (R47). -/
def Dev.ttFor (d : Dev) (q e k : Nat) : Option (Timetable × TEntry) :=
  match (d.part q).installed with
  | none => none
  | some tt => match tt.entries[e]? with
    | none => none
    | some te => if tt.hasStep k then some (tt, te) else none

/-- The streams of an entry that stand as given. -/
def Dev.entryStreams (d : Dev) (te : TEntry) (p : Stream → Bool) : List Nat := te.bays.filter (fun b => p (d.stream b te.stream))

/-- The departure slot of an occurrence is reached: it is cancelled if a stream of its mask is FAULTED (cause FAULT) or
stays IDLE after a HALT (cause RESET), or if its timetable has not resumed after a TIME withdrawal (R58, R77, R88, R113).
Its start of a drain is in Waybills.lean. -/
def departureSlot (q e k : Nat) (t : TimeUnit) (d : Dev) : Dev :=
  match d.ttFor q e k with
  | none => d
  | some (tt, te) =>
    match d.ensureOcc q tt e k with
    | none => d
    | some (o, d0) =>
      if t.slot < d.depSlot o ∨ o.reached ∨ !o.open ∨ d.hold.paused then d
      else
        let d1 := d0.modOcc o.key (fun o => { o with reached := true })
        let silent : Bool := d.timeOut || match tt.resume with
          | some r => decide (o.base + o.te.depart + k * o.period < r)
          | none => false
        if silent then d1.cancel o.key
        else
          match d1.entryStreams te (fun x => x.state == .faulted) with
          | b :: _ => d1.voidOcc t lateFault (d1.stream b te.stream).fclass.toNat o.key
          | [] =>
            match d1.entryStreams te (fun x => x.state == .idle && x.afterHalt) with
            | _ :: _ => d1.voidOcc t lateReset 0x01 o.key
            | [] => d1

/-- Make the record of the first undelivered occurrence, from line slot `s` on, of every entry of the timetables that is wanted
(R398). -/
def Dev.makeNext (s : Nat) (want : Timetable → TEntry → Bool) (d : Dev) : Dev :=
  let per (d : Dev) (x : Nat × Timetable) : Dev :=
    let tt := x.2
    let b := tt.base + d.shiftOf tt.shift0
    (tt.entries.zipIdx).foldl (fun (d : Dev) (y : TEntry × Nat) =>
      if !want tt y.1 then d
      else
        let k0 := ceilDiv (s + 1 - (b + y.1.depart + y.1.span)) tt.period
        let owed (k : Nat) : Bool := match d.occ { part := x.1, gen := tt.gen, entry := y.2, k := k } with
          | some o => o.open
          | none => optAll tt.resume (fun r => decide (r ≤ tt.base + y.1.depart + k * tt.period))
        match (upTo ((d.part x.1).occs.length + 1)).find? (fun j => owed (k0 + j)) with
        | none => d
        | some j => match d.ensureOcc x.1 tt y.2 (k0 + j) with
          | some (_, d1) => d1
          | none => d) d
  if d.timeOut then d else d.timetables.foldl per d

/-- The oldest undelivered occurrence of an entry and step of partition `q`, of whichever timetable it came from, of which `p` holds. -/
def Dev.openOccIf (d : Dev) (q e k : Nat) (p : Occ → Bool) : Option Occ :=
  (d.part q).occs.find? (fun o => o.open && o.key.entry == e && o.key.k == k && p o)

/-- OCCURRENCE_DELIVERED: the work of every bay in the mask has completed (R87). In a HOLD tokens are frozen, and the delivery
comes after it (R62). -/
def occurrenceDelivered (q e k : Nat) (t : TimeUnit) (d : Dev) : Dev :=
  if d.hold.paused then d
  else
    match d.openOccIf q e k (fun o => d.workDone o && !o.te.maint) with
    | none => d
    | some o => d.deliver t o.key

/-- PROMISE_EXPIRY: undelivered at the end of its promised slot and not withdrawn by another event, an occurrence is
withdrawn with cause OVERRUN; the new expected slot is the device's own estimate, a free value not below the promised slot
plus one (R499; DESIGN CHOICE, log entry 15). -/
def promiseExpiry (q e k : Nat) (t : TimeUnit) (d : Dev) : Dev :=
  let d0 := match d.ttFor q e k with
    | some (tt, _) => match d.ensureOcc q tt e k with
      | some (_, d') => d'
      | none => d
    | none => d
  if d.hold.paused then d
  else
    match d0.openOccIf q e k (fun o => !o.withdrawn && !o.te.maint && decide (d0.promise o < t.slot)) with
    | none => d
    | some o =>
      let (v, d1) := d0.takeFree
      d1.withdraw t lateOverrun (max (d0.promise o + 1) v.toNat) o.key

/-- TIMETABLE_TAKEOVER: at its TH_BASE a staged timetable becomes the installed one (R47, R498). -/
def takeover (q : Nat) (t : TimeUnit) (d : Dev) : Dev :=
  match (d.part q).staged with
  | none => d
  | some st =>
    if t.slot < st.base + d.shiftOf st.shift0 ∨ d.hold.paused then d
    else (d.modPart q (fun p => { p with installed := some st, staged := none })).setPowerNeed t

/-- How many occurrences a timetable with TH_STEPS ≠ 0 has before it is replaced (R47, R498). -/
def Dev.occTotal (d : Dev) (q : Nat) (tt : Timetable) : Nat :=
  let ends : Option Nat := (d.part q).staged.map (fun st => st.base + d.shiftOf st.shift0)
  (tt.entries.map (fun te =>
    let first := tt.base + te.depart + d.shiftOf tt.shift0
    match ends with
    | none => tt.steps
    | some e => min tt.steps (if e ≤ first then 0 else ceilDiv (e - first) tt.period))).foldl (· + ·) 0

/-- TIMETABLE_REMOVAL: a timetable with TH_STEPS = N is removed at the later of step boundary N and the slot boundary at which
every one of its occurrences has been delivered or withdrawn, those that no event has noted yet among them (R498). -/
def removal (q : Nat) (t : TimeUnit) (d : Dev) : Dev :=
  match (d.part q).installed with
  | none => d
  | some tt =>
    let own := (d.part q).occs.filter (fun o => o.key.gen == tt.gen)
    if tt.steps = 0 ∨ t.slot < tt.base + tt.steps * tt.period + d.shiftOf tt.shift0 ∨ t.now % t.slotLen ≠ 0 ∨ d.hold.paused ∨
        own.length < d.occTotal q tt ∨ own.any (fun o => o.open && !o.withdrawn) then d
    else
      (d.modPart q (fun p => { p with installed := p.staged, staged := none })).setPowerNeed t

/-! ### Slot length (R44) -/

/-- SLOT_LENGTH_CHANGE: an accepted change takes effect at a boundary of both lengths (R44). -/
def slotLengthChange (t : TimeUnit) : TimeUnit :=
  match t.newLog2 with
  | none => t
  | some n => if t.now % 2 ^ max n t.slotLog2 = 0 then { t with slotLog2 := n, newLog2 := none } else t

/-- A write of TT_SYNC (R44, R71, R72): SRC_MODE, SRC_LINK and ROOT at once, SLOT_LOG2 pending. The four bits of SLOT_LOG2 hold n
mod 16, so that 0 names n = 16 (DESIGN CHOICE, log entry 87). A device in pin mode, and the time root, stand at depth 0 (R40). -/
def syncWrite (req : Req) (v : Nat) (t : TimeUnit) (d : Dev) : TimeUnit × Dev :=
  let mode := bit v 2
  let link := fld v 3 5
  let n := if fld v 8 4 = 0 then 16 else fld v 8 4
  let moved : Bool := mode != t.srcMode || link != t.srcLink.toNat
  let d0 := if moved then { d with fab := { d.fab with srcLock := 0 } } else d
  let d1 := if moved ∧ d.anyTimetable then d0.timeWithdraw t else d0
  let t1 := { t with srcMode := mode, srcLink := BitVec.ofNat 5 link, root := bit v 12,
                     lock := if moved then .unlocked else t.lock, since := if moved then none else t.since,
                     good := if moved then 0 else t.good, depth := if mode && !bit v 12 then t.depth else 0 }
  if n < 10 ∨ n = t.slotLog2 then (t1, d1)
  else if d.anyTimetable then (t1, d1.conflict t req (plainSrc 0x31 0) 0)
  else ({ t1 with newLog2 := some n }, d1)

/-- One line tick: what the block does when no command waits (R38; DESIGN CHOICE, log entry 1). -/
def TimeUnit.tick (t : TimeUnit) : TimeUnit := { t with ltime := t.ltime + 1 }

/-- The line time of the next slot boundary that has not been processed (R44). -/
def TimeUnit.nextEdge (t : TimeUnit) : Nat :=
  if t.now % t.slotLen = 0 ∧ t.edge < t.now then t.now else (t.now / t.slotLen + 1) * t.slotLen

/-- Line time advanced to that boundary. -/
def TimeUnit.toEdge (t : TimeUnit) : TimeUnit := { t with ltime := w64 t.nextEdge, edge := t.nextEdge }

end Sys2Proof.Machine
end

