-- ==== Sys2Proof/Machine/Formats.lean ====
section
/-! DEFINITION. Number formats and rounding: element formats, exact arithmetic, the one rounding of the device, conversion
to codes (R8, R145 to R152, R189, R190, R211, R219). -/

namespace Sys2Proof.Machine

/-! ### Formats (R8, R145) -/

/-- Bits of one element of a format code (R8). -/
def elemBits (f : Nat) : Nat := [32, 16, 16, 8, 8, 6, 6, 4, 8, 4, 4, 32, 16, 8].getD f 8

/-- The floating formats (R145). -/
def isFloatFmt (f : Nat) : Bool := decide (f ≤ 7)

/-- The integer formats (R148). -/
def isIntFmt (f : Nat) : Bool := f == 8 || f == 9 || f == 0xB || f == 0xC || f == 0xD

/-- The formats that are course-scaled in brick mode (R124). -/
def isScaled (f : Nat) : Bool := decide (3 ≤ f) && decide (f ≤ 0xA)

/-- Mantissa bits, exponent bits and bias of a floating format (R145). -/
def mantBits (f : Nat) : Nat := [23, 7, 10, 3, 2, 2, 3, 1].getD f 0
def expBits (f : Nat) : Nat := [8, 8, 5, 4, 5, 3, 2, 2].getD f 0
def fmtBias (f : Nat) : Nat := [127, 127, 15, 7, 15, 3, 1, 1].getD f 0

/-- The exponent of the smallest subnormal of a floating format. -/
def lsbMin (f : Nat) : Int := 1 - (fmtBias f : Int) - (mantBits f : Int)

/-- An integer as a value. -/
def Val.ofInt (i : Int) : Val := .fin (decide (i < 0)) i.natAbs 0

/-- Decode a floating code (R145, R146). -/
def decodeFloat (f code : Nat) : Val :=
  let m := fld code 0 (mantBits f)
  let e := fld code (mantBits f) (expBits f)
  let neg := bit code (mantBits f + expBits f)
  let top : Bool := e == 2 ^ expBits f - 1
  if top ∧ (f ≤ 2 ∨ f = 4) then (if m = 0 then .inf neg else .nan)
  else if top ∧ f = 3 ∧ m = 7 then .nan
  else if e = 0 then .fin neg m (lsbMin f)
  else .fin neg (2 ^ mantBits f + m) (lsbMin f + ((e : Int) - 1))

/-- Decode an integer code (R148). -/
def decodeInt (f code : Nat) : Val :=
  if f = 0xD then Val.ofInt (code % 256) else Val.ofInt (sx (elemBits f) code)

/-- Decode an element code; a CB4 code indexes a codebook (R145, R148, R150). -/
def decodeElem (f : Nat) (cb : List Val) (code : Nat) : Val :=
  if f = 0xA then cb.getD (code % 16) .nan
  else if isFloatFmt f then decodeFloat f code
  else decodeInt f code

/-- Multiply a value by 2^k, exactly. -/
def Val.shift (v : Val) (k : Int) : Val :=
  match v with
  | .fin n m e => .fin n m (e + k)
  | v => v

/-- The scaled value of an element under course scale S (R149, R150). -/
def Val.scaled (v : Val) (S : Nat) : Val := if S = 0xFF then .nan else v.shift ((S : Int) - 127)

/-! ### Tests on values -/

def Val.isNan (v : Val) : Bool := v == .nan
def Val.isInf (v : Val) : Bool := match v with | .inf _ => true | _ => false
def Val.isFin (v : Val) : Bool := match v with | .fin _ _ _ => true | _ => false
def Val.isZero (v : Val) : Bool := match v with | .fin _ m _ => m == 0 | _ => false
def Val.neg? (v : Val) : Bool := match v with | .fin n _ _ => n | .inf n => n | .nan => false

/-- The magnitude. -/
def Val.abs (v : Val) : Val := match v with | .fin _ m e => .fin false m e | .inf _ => .inf false | .nan => .nan

/-- The sign inverted. -/
def Val.neg (v : Val) : Val := match v with | .fin n m e => .fin (!n) m e | .inf n => .inf (!n) | .nan => .nan

/-- e(v): the exponent of a finite non-zero value as sig × 2^e with 1 ≤ sig < 2 (R154). -/
def Val.exponent (v : Val) : Int := match v with | .fin _ m e => (Nat.log2 m : Int) + e | _ => 0

/-- A finite value as an integer over 2^-k, when k is small enough. -/
def signedAt (n : Bool) (m : Nat) (e k : Int) : Int :=
  let x : Int := ((m <<< (e - k).toNat : Nat) : Int)
  if n then -x else x

/-- Whether a is numerically below b; both zeros are equal, and NaN compares false. -/
def Val.lt (a b : Val) : Bool :=
  match a, b with
  | .nan, _ => false
  | _, .nan => false
  | .inf true, .inf true => false
  | .inf true, _ => true
  | .inf false, _ => false
  | _, .inf n => !n
  | .fin n m e, .fin n' m' e' => let k := min e e'; decide (signedAt n m e k < signedAt n' m' e' k)

/-- The order of MAX and MIN: −0 lies below +0 (R211, R219). -/
def Val.below (a b : Val) : Bool := a.lt b || (a.isZero && b.isZero && a.neg? && !b.neg?)

/-- The larger and the smaller value; NaN in either gives NaN (R219). -/
def Val.max (a b : Val) : Val := if a.isNan || b.isNan then .nan else if a.below b then b else a
def Val.min (a b : Val) : Val := if a.isNan || b.isNan then .nan else if b.below a then b else a

/-! ### Exact arithmetic (R174, R189, R190, R211) -/

/-- The exact sum, with IEEE 754 special values. -/
def Val.add (a b : Val) : Val :=
  match a, b with
  | .nan, _ => .nan
  | _, .nan => .nan
  | .inf n, .inf n' => if n = n' then .inf n else .nan
  | .inf n, _ => .inf n
  | _, .inf n => .inf n
  | .fin n m e, .fin n' m' e' =>
    let k := if m = 0 then e' else if m' = 0 then e else Min.min e e'
    let s := (if m = 0 then 0 else signedAt n m e k) + (if m' = 0 then 0 else signedAt n' m' e' k)
    if s = 0 then .fin (n && n') 0 0 else .fin (decide (s < 0)) s.natAbs k

/-- The exact product, with IEEE 754 special values. -/
def Val.mul (a b : Val) : Val :=
  match a, b with
  | .nan, _ => .nan
  | _, .nan => .nan
  | .inf n, .inf n' => .inf (n != n')
  | .inf n, .fin n' m _ => if m = 0 then .nan else .inf (n != n')
  | .fin n m _, .inf n' => if m = 0 then .nan else .inf (n != n')
  | .fin n m e, .fin n' m' e' => .fin (n != n') (m * m') (if m * m' = 0 then 0 else e + e')

def Val.sub (a b : Val) : Val := a.add b.neg

/-- One as a value. -/
def Val.one : Val := .fin false 1 0
def Val.zero : Val := .fin false 0 0

/-! ### Rounding (R151, R152) -/

/-- ⌊num / den + 1/2⌋: to the nearest integer, halves away from zero (R151). -/
def halfAway (num den : Nat) : Nat := (2 * num + den) / (2 * den)

/-- ⌊log₂(num / den)⌋ for positive arguments. -/
def ratLog (num den : Nat) : Int :=
  let g : Int := (Nat.log2 num : Int) - (Nat.log2 den : Int)
  let fits : Bool := if 0 ≤ g then decide (den <<< g.toNat ≤ num) else decide (den ≤ num <<< (-g).toNat)
  if fits then g else g - 1

/-- Round num / den × 2^exp to `p` significant bits, but to no finer than 2^lo: the rounded significand and its exponent. -/
def roundMag (p : Nat) (lo : Option Int) (num den : Nat) (exp : Int) : Nat × Int :=
  if num = 0 then (0, lo.getD 0)
  else
    let e := ratLog num den + exp
    let l := e - ((p : Int) - 1)
    let lsb := match lo with | some x => Max.max l x | none => l
    let s := exp - lsb
    (if 0 ≤ s then halfAway (num <<< s.toNat) den else halfAway num (den <<< (-s).toNat), lsb)

/-- ⌊√n⌋ for n below 2^512. -/
def isqrt (n : Nat) : Nat :=
  ((List.range 256).map (fun i => 255 - i)).foldl (fun r i => if (r + 2 ^ i) * (r + 2 ^ i) ≤ n then r + 2 ^ i else r) 0

/-- Round √(num / den × 2^exp) as `roundMag` rounds. -/
def roundSqrt (p : Nat) (lo : Option Int) (num den : Nat) (exp : Int) : Nat × Int :=
  if num = 0 then (0, lo.getD 0)
  else
    let (num, exp) := if exp % 2 = 0 then (num, exp) else (2 * num, exp - 1)
    let e := (ratLog num den + exp) / 2
    let l := e - ((p : Int) - 1)
    let lsb := match lo with | some x => Max.max l x | none => l
    let s := exp - 2 * lsb + 2
    let y := if 0 ≤ s then (num <<< s.toNat) / den else num / (den <<< (-s).toNat)
    ((isqrt y + 1) / 2, lsb)

/-- Whether a rounded magnitude lies beyond the largest finite value of FP32, BF16 or FP16 (R152). -/
def tooBig (f m : Nat) (lsb : Int) : Bool := m != 0 && decide ((2 ^ (expBits f - 1) : Nat) ≤ (Nat.log2 m : Int) + lsb)

/-- A rounded magnitude as a value of FP32, BF16 or FP16. -/
def finish (f : Nat) (neg : Bool) (r : Nat × Int) : Val := if tooBig f r.1 r.2 then .inf neg else .fin neg r.1 r.2

/-- Round a value to FP32, BF16 or FP16 (R151, R152). -/
def roundTo (f : Nat) (v : Val) : Val :=
  match v with
  | .fin n m e => finish f n (roundMag (mantBits f + 1) (some (lsbMin f)) m 1 e)
  | v => v

/-- rnd: round to FP32. -/
def rnd (v : Val) : Val := roundTo 0 v

/-- The rounded quotient a / b, with IEEE 754 special values. -/
def roundDiv (f : Nat) (a b : Val) : Val :=
  match a, b with
  | .nan, _ => .nan
  | _, .nan => .nan
  | .inf _, .inf _ => .nan
  | .inf n, .fin n' _ _ => .inf (n != n')
  | .fin n _ _, .inf n' => .fin (n != n') 0 0
  | .fin n m e, .fin n' m' e' =>
    if m' = 0 then (if m = 0 then .nan else .inf (n != n'))
    else finish f (n != n') (roundMag (mantBits f + 1) (some (lsbMin f)) m m' (e - e'))

/-- The rounded square root; a negative value gives NaN, −0 gives −0. -/
def roundRoot (f : Nat) (a : Val) : Val :=
  match a with
  | .nan => .nan
  | .inf n => if n then .nan else .inf false
  | .fin n m e =>
    if m = 0 then .fin n 0 0
    else if n then .nan
    else finish f false (roundSqrt (mantBits f + 1) (some (lsbMin f)) m 1 e)

/-- The nearest integer, halves away from zero. -/
def roundInt (n : Bool) (m : Nat) (e : Int) : Int :=
  let x : Nat := if 0 ≤ e then m <<< e.toNat else halfAway m (2 ^ (-e).toNat)
  if n then -(x : Int) else x

/-! ### Codes (R145, R146, R148, R152) -/

/-- The code of a rounded magnitude, without its sign: the exponent field and mantissa. -/
def packMag (f : Nat) (r : Nat × Int) : Nat :=
  let one := 2 ^ mantBits f
  let (m, l) := if r.1 = 2 * one then (one, r.2 + 1) else r
  if m < one then m else ((l - lsbMin f + 1).toNat) * one + (m - one)

/-- The all-ones exponent field of a format. -/
def infCode (f : Nat) : Nat := (2 ^ expBits f - 1) * 2 ^ mantBits f

/-- A sign bit in its place. -/
def signBit (f : Nat) (neg : Bool) : Nat := b2n neg * 2 ^ (mantBits f + expBits f)

/-- The code of a value rounded to FP32, BF16 or FP16; NaN takes the canonical code (R146). -/
def floatCode (f : Nat) (v : Val) : Nat :=
  match v with
  | .nan => infCode f + 2 ^ (mantBits f - 1)
  | .inf n => infCode f + signBit f n
  | .fin n m e =>
    let r := roundMag (mantBits f + 1) (some (lsbMin f)) m 1 e
    if tooBig f r.1 r.2 then infCode f + signBit f n else packMag f r + signBit f n

/-- The range of an integer format as a MOVE holds it (R148). -/
def intRange (f : Nat) : Int × Int :=
  if f = 0xD then (0, 255) else (-((2 ^ (elemBits f - 1) : Nat) : Int), ((2 ^ (elemBits f - 1) : Nat) : Int) - 1)

/-- The code of a value converted to an integer format: rounded, saturated; NaN gives 0 (R152). -/
def intCode (f : Nat) (v : Val) : Nat :=
  let (lo, hi) := intRange f
  unsx (elemBits f) (match v with
    | .nan => 0
    | .inf n => if n then lo else hi
    | .fin n m e => Max.max lo (Min.min hi (roundInt n m e)))

/-- Convert a value to FP32, BF16, FP16 or an integer format (R102, R151, R152). -/
def convertCode (f : Nat) (v : Val) : Nat := if f ≤ 2 then floatCode f v else intCode f v

/-- The value of an FP32 cell. -/
def f32 (w : Nat) : Val := decodeFloat 0 w

/-- The largest finite value of a narrow format, as man × 2^exp (R145, R148). -/
def narrowMax (f : Nat) : Nat × Int :=
  if f = 3 then (7, 6) else if f = 4 then (7, 13) else if f = 5 then (7, 2) else if f = 6 then (15, -1)
  else if f = 7 then (3, 1) else if f = 8 then (127, 0) else (7, 0)

/-- The code of ±max of a narrow format. -/
def maxCode (f : Nat) (neg : Bool) : Nat :=
  let (m, e) := narrowMax f
  if f = 8 ∨ f = 9 then unsx (elemBits f) (if neg then -(m : Int) else m)
  else packMag f (roundMag (mantBits f + 1) (some (lsbMin f)) m 1 e) + signBit f neg

/-- Encode a value into a narrow format other than CB4: its code and whether it overflowed. A zero result is +0; an
overflow gives ±max, or ±inf for E5M2 with SATINF (R158, R159). -/
def encodeNarrow (f : Nat) (satinf : Bool) (v : Val) : Nat × Bool :=
  let overflowed (n : Bool) : Nat := if f = 4 ∧ satinf then infCode 4 + signBit 4 n else maxCode f n
  match v with
  | .nan => (2 ^ elemBits f - 1, false)
  | .inf n => (overflowed n, true)
  | .fin n m e =>
    let (bm, be) := narrowMax f
    if f = 8 ∨ f = 9 then
      let i := roundInt n m e
      if bm < i.natAbs then (overflowed n, true) else (unsx (elemBits f) i, false)
    else
      let r := roundMag (mantBits f + 1) (some (lsbMin f)) m 1 e
      if r.1 = 0 then (0, false)
      else if (Val.fin false bm be).lt (.fin false r.1 r.2) then (overflowed n, true)
      else (packMag f r + signBit f n, false)

/-- The all-ones code of a width (R159). -/
def onesCode (f : Nat) : Nat := 2 ^ elemBits f - 1

end Sys2Proof.Machine
end

