-- ==== Sys2Proof/Machine/MemSide.lean ====
section
/-! DEFINITION. The memory-side unit of an HBM controller: merge, add, maximum and minimum on the elements of a request
(R312, R316 to R319, R344). -/

namespace Sys2Proof.Machine

/-- Bytes of one element of a memory-side operation (R316). -/
def msSize (code : Nat) : Nat :=
  if code = 2 ∨ code = 7 ∨ code = 8 then 2
  else if code = 4 ∨ code = 0xB ∨ code = 0xC then 8
  else if code = 0 then 1 else 4

/-- Whether an operation code is assigned (R316). -/
def msKnown (code : Nat) : Bool := decide (code ≤ 0xC)

/-- new = op(old, operand) on element codes (R316, R317). -/
def msOp (code old x : Nat) : Nat :=
  let fadd (f : Nat) := floatCode f ((decodeFloat f old).add (decodeFloat f x))
  let fmax (f : Nat) := floatCode f ((decodeFloat f old).max (decodeFloat f x))
  let fmin (f : Nat) := floatCode f ((decodeFloat f old).min (decodeFloat f x))
  let imax (w : Nat) := if sx w old < sx w x then x else old
  let imin (w : Nat) := if sx w x < sx w old then x else old
  match code with
  | 0x1 => fadd 0
  | 0x2 => fadd 1
  | 0x3 => (old + x) % 2 ^ 32
  | 0x4 => (old + x) % 2 ^ 64
  | 0x5 => fmax 0
  | 0x6 => fmin 0
  | 0x7 => fmax 1
  | 0x8 => fmin 1
  | 0x9 => imax 32
  | 0xA => imin 32
  | 0xB => imax 64
  | 0xC => imin 64
  | _ => x

/-- Operate on the aligned elements of a request whose bytes all lie in its mask; a poisoned old element or operand gives a
poisoned one (R317). -/
def Memory.combine (m : Memory) (code a : Nat) (data : List Byte) (poison mask : List Bool) : Memory :=
  let w := msSize code
  let n := data.length
  let lo := ceilDiv a w * w
  (List.range ((a + n - lo) / w)).foldl (fun m i =>
    let x := lo + w * i
    let o := x - a
    if (List.range w).all (fun j => mask.getD (o + j) true) then
      let bad := (List.range w).any (fun j => poison.getD (o + j) false || m.isPoison (x + j))
      let v := msOp code (m.word x w) (ofBytes (natBytes ((data.drop o).take w)))
      m.putAll x (byteList (toBytes w v)) (List.replicate w bad) []
    else m) m

/-- How many elements a request operates on: the aligned ones whose bytes all lie in its mask (R317, R335). -/
def msElements (code a n : Nat) (mask : List Bool) : Nat :=
  let w := msSize code
  let lo := ceilDiv a w * w
  ((List.range ((a + n - lo) / w)).filter (fun i => (List.range w).all (fun j => mask.getD (lo + w * i - a + j) true))).length

/-- Whether an address lies in an HBM stack range, here or behind a peer window (R319, R380, R381). -/
def Dev.hbmSide (d : Dev) (a : Nat) : Bool :=
  match d.regionAt a with
  | .hbm _ _ => true
  | .peer _ o => decide (o < 0x18000000000)
  | _ => false

/-- One memory-side request (R312, R316, R317, R344), which leaves as AT packets through a peer window (R379, R381). Outside HBM
it is a plain write of the masked bytes for a merge, and nothing for an operation (R319: the walker combines there itself). -/
def Dev.atomic (t : TimeUnit) (q : Req) (code a : Nat) (data : List Byte) (poison mask : List Bool) (d : Dev) : Dev :=
  let n := data.length
  let r := d.regionAt a
  if d.mustWait a n then d.stalls a n
  else match r with
  | .peer l o =>
    if code = 0 then d.write t q a data poison mask
    else if !d.hbmSide a then d.countHole q a
    else if d.fabricOk then
      let base := (peerAddr o).getD 0
      (cutPieces 512 (n / 32 + 4) base n).foldl (fun d pc => d.sendWr q l 0x12 code data poison mask base pc) d
    else d
  | .hbm s _ =>
    if code = 0 then d.write t q a data poison mask
    else if !msKnown code then
      d.emit t q.part { record 0x10 (stackSrc s) with addr := BitVec.ofNat 52 a, detail := detail [(48, 1, 0x41)] }
    else
      let secs := sectorsOf a n
      let d0 := d.chargeHbm t q s a n (fun _ => 64)
      let dead := d0.deadGranules a n
      let m := liveMask a n dead mask
      let live := secs.filter (fun x => !dead.contains (x / 256))
      let d1 := d0.mergeReads t q s (fun _ => 32) live
      (((d1.modStack s (fun k => live.foldl (fun k x => k.touch x)
        { k with cnt := vmod k.cnt 1 (fun c => c.addLo (msElements code a n m)) })).modMem (·.combine code a data poison m))).flushOwed t
  | _ => if code = 0 then d.write t q a data poison mask else d.countHole q a

end Sys2Proof.Machine
end

