-- ==== Sys2Proof/Machine/Descriptors.lean ====
section
/-! DEFINITION. Tensor descriptors: the record, the walker's checks, element addresses, bricks and their side planes, loads
with seal checks, and masked stores (R97, R115 to R141, R168, R169, R349 to R357, R503, R504). -/

namespace Sys2Proof.Machine

/-! ### The record (R95, R115) -/

/-- A captured descriptor; `base` already holds the model base for slots 128 to 255. -/
structure Desc where
  slot : Nat
  raw : Nat
  base : Nat
  fmt : Nat
  ndim : Nat
  brick : Bool
  inner : Bool
  ext : List Nat
  str : List Int
  part : Nat
  sealAddr : Nat
  rq : Bool
  hist : Bool
  satinf : Bool
  sw : Bool
  wdim : Nat
  wstride : Nat
  wdil : Nat
  wpad : Nat
  wlen : Nat
deriving DecidableEq, Repr

/-- Parse a 64-byte descriptor (R95, R115). -/
def parseDesc (slot w model : Nat) : Desc :=
  { slot := slot, raw := w, base := fld w 0 52 + (if 128 ≤ slot then model else 0), fmt := fld w 52 4, ndim := fld w 56 3,
    brick := bit w 59, inner := bit w 60, ext := (upTo 5).map (fun k => fld w (64 + 24 * k) 24),
    str := (upTo 5).map (fun k => sx 32 (fld w (192 + 32 * k) 32)), part := fld w 184 4, sealAddr := fld w 352 52,
    rq := bit w 416, hist := bit w 417, satinf := bit w 418, sw := bit w 419, wdim := fld w 432 2,
    wstride := fld w 440 4, wdil := fld w 444 4, wpad := fld w 448 16, wlen := fld w 464 24 }

/-- Whether a reserved field of a descriptor is non-zero (R115). -/
def descReserved (w : Nat) : Bool :=
  fld w 61 3 != 0 || fld w 188 4 != 0 || fld w 404 12 != 0 || fld w 420 12 != 0 || fld w 434 6 != 0 || fld w 488 24 != 0

/-- Extent and stride of a dimension; dimensions not in use have extent 1. -/
def Desc.e (x : Desc) (k : Nat) : Nat := if k < x.ndim then x.ext.getD k 1 else 1
def Desc.s (x : Desc) (k : Nat) : Int := if k < x.ndim then x.str.getD k 0 else 0

/-- The element count (R116). -/
def Desc.count (x : Desc) : Nat := x.e 0 * x.e 1 * x.e 2 * x.e 3 * x.e 4

/-- The index of element `n` of the plain walk, dimension 0 fastest (R117). -/
def Desc.coord (x : Desc) (n : Nat) : List Nat :=
  [n % x.e 0, n / x.e 0 % x.e 1, n / (x.e 0 * x.e 1) % x.e 2, n / (x.e 0 * x.e 1 * x.e 2) % x.e 3,
   n / (x.e 0 * x.e 1 * x.e 2 * x.e 3) % x.e 4]

/-- The place in the plain walk of an index. -/
def Desc.place (x : Desc) (i0 i1 i2 i3 i4 : Nat) : Nat := i0 + x.e 0 * (i1 + x.e 1 * (i2 + x.e 2 * (i3 + x.e 3 * i4)))

/-! ### Bricks (R124 to R127) -/

/-- Bytes of a brick row, of the code plane, and granules of a brick (R124). -/
def rowBytes (f : Nat) : Nat := 8 * elemBits f
def planeBytes (f : Nat) : Nat := 64 * rowBytes f
def granulesOf (f : Nat) : Nat := planeBytes f / 256 + 1

/-- Number of bricks along dimensions 0 and 1, and in all. -/
def Desc.nb0 (x : Desc) : Nat := ceilDiv (x.e 0) 64
def Desc.nb1 (x : Desc) : Nat := ceilDiv (x.e 1) 64
def Desc.bricks (x : Desc) : Nat := x.nb0 * x.nb1 * x.e 2 * x.e 3 * x.e 4

/-- Tile and outer index of brick `w` of the brick walk (R125). -/
def Desc.brickIdx (x : Desc) (w : Nat) : List Nat :=
  [w % x.nb0, w / x.nb0 % x.nb1, w / (x.nb0 * x.nb1) % x.e 2, w / (x.nb0 * x.nb1 * x.e 2) % x.e 3,
   w / (x.nb0 * x.nb1 * x.e 2 * x.e 3) % x.e 4]

/-- The address of brick `w` (R125). -/
def Desc.brickAddr (x : Desc) (w : Nat) : Nat :=
  let i := x.brickIdx w
  let g := (upTo 5).foldl (fun (g : Int) k => g + (i.getD k 0 : Int) * x.s k) 0
  ((x.base : Int) + 256 * g).toNat

/-- Brick, row and position of element `n` (R125). -/
def Desc.spot (x : Desc) (n : Nat) : Nat × Nat × Nat :=
  let i := x.coord n
  let i0 := i.getD 0 0
  let i1 := i.getD 1 0
  let w := i0 / 64 + x.nb0 * (i1 / 64 + x.nb1 * (i.getD 2 0 + x.e 2 * (i.getD 3 0 + x.e 3 * i.getD 4 0)))
  if x.inner then (w, i0 % 64, i1 % 64) else (w, i1 % 64, i0 % 64)

/-- The element at a row and position of brick `w`, when it lies within the extents. -/
def Desc.elemAt (x : Desc) (w row pos : Nat) : Option Nat :=
  let i := x.brickIdx w
  let i0 := 64 * i.getD 0 0 + (if x.inner then row else pos)
  let i1 := 64 * i.getD 1 0 + (if x.inner then pos else row)
  if i0 < x.e 0 ∧ i1 < x.e 1 then some (x.place i0 i1 (i.getD 2 0) (i.getD 3 0) (i.getD 4 0)) else none

/-- Whether a row and position of brick `w` hold a valid element. -/
def Desc.validAt (x : Desc) (w row pos : Nat) : Bool := (x.elemAt w row pos).isSome

/-- The positions of a row that lie, wholly or in part, in byte `j` of it. -/
def bytePositions (f j : Nat) : List Nat :=
  let lo := 8 * j / elemBits f
  (upTo ((8 * j + 7) / elemBits f + 1 - lo)).map (lo + ·)

/-- The bits of byte `j` of a row that valid elements hold (R136). -/
def Desc.keepBits (x : Desc) (w row j : Nat) : Nat :=
  (upTo 8).foldl (fun m i => if x.validAt w row ((8 * j + i) / elemBits x.fmt) then setBit m i else m) 0

/-- Whether byte `j` of a row holds a valid element. -/
def Desc.byteValid (x : Desc) (w row j : Nat) : Bool := (bytePositions x.fmt j).any (x.validAt w row)

/-! ### Plain addresses and sliding windows (R117, R131, R139) -/

/-- The first bit of element `n` in memory; none for a window padding element (R117, R139). -/
def Desc.bitAt (x : Desc) (n : Nat) : Option Nat :=
  let i := x.coord n
  let at' (k : Nat) : Int := (i.getD k 0 : Int)
  let bits : Int := elemBits x.fmt
  if x.sw then
    let q : Int := at' (x.wdim + 1) * (x.wstride + 1 : Nat) + at' x.wdim * (x.wdil + 1 : Nat) - (x.wpad : Int)
    if q < 0 ∨ (x.wlen : Int) ≤ q then none
    else
      let off := (upTo 5).foldl (fun (g : Int) k =>
        if k = x.wdim ∨ k = x.wdim + 1 then g else g + at' k * x.s k) (q * x.s (x.wdim + 1))
      some ((x.base : Int) * 8 + off * bits).toNat
  else
    let off := (upTo 5).foldl (fun (g : Int) k => g + at' k * x.s k) 0
    some ((x.base : Int) * 8 + off * bits).toNat

/-! ### The byte range of an operand (R119) -/

/-- Lowest and highest contribution of a dimension of `n` steps of stride `s`. -/
def spanOf (n : Nat) (s : Int) : Int × Int :=
  let top := ((n : Int) - 1) * s
  (min 0 top, max 0 top)

/-- The byte range of an operand: first byte, and the byte after the last; an operand without elements has no byte (R102, R116).
`extra` granules belong to each brick beyond its own (R119, R258). -/
def Desc.range (x : Desc) (extra : Nat) : Int × Int :=
  if x.count = 0 then (x.base, x.base)
  else if x.brick then
    let sp := [spanOf x.nb0 (x.s 0), spanOf x.nb1 (x.s 1), spanOf (x.e 2) (x.s 2), spanOf (x.e 3) (x.s 3), spanOf (x.e 4) (x.s 4)]
    let lo := sp.foldl (fun (a : Int) p => a + p.1) 0
    let hi := sp.foldl (fun (a : Int) p => a + p.2) 0
    ((x.base : Int) + 256 * lo, (x.base : Int) + 256 * (hi + (granulesOf x.fmt + extra : Nat)))
  else
    let plain := (upTo 5).filter (fun k => !(x.sw && (k == x.wdim || k == x.wdim + 1)))
    let sp := plain.map (fun k => spanOf (x.e k) (x.s k))
    let clip (q : Int) : Int := max 0 (min ((x.wlen : Int) - 1) q)
    let win : Int × Int :=
      if x.sw then
        let a := clip (-(x.wpad : Int)) * x.s (x.wdim + 1)
        let b := clip (((x.e (x.wdim + 1) : Int) - 1) * (x.wstride + 1 : Nat) + ((x.e x.wdim : Int) - 1) * (x.wdil + 1 : Nat)
          - (x.wpad : Int)) * x.s (x.wdim + 1)
        (min a b, max a b)
      else (0, 0)
    let lo := sp.foldl (fun (a : Int) p => a + p.1) win.1
    let hi := sp.foldl (fun (a : Int) p => a + p.2) win.2
    let bits : Int := elemBits x.fmt
    (((x.base : Int) * 8 + lo * bits) / 8, ((x.base : Int) * 8 + (hi + 1) * bits + 7) / 8)

/-! ### The walker's checks (R118) -/

/-- How an instruction uses a descriptor operand: whether it stores, whether that store accumulates, whether EXT0 may be 0
(R116), whether SW is accepted (R140), and the granules of an index plane (R258). -/
structure Use where
  store : Bool
  accum : Bool
  emptyK : Bool
  window : Bool
  extra : Nat
deriving DecidableEq, Repr

def loadUse : Use := { store := false, accum := false, emptyK := false, window := false, extra := 0 }
def storeUse : Use := { loadUse with store := true }

/-- One operand of an instruction as the walker checks it: the low bit of its field. -/
structure Walked where
  field : Nat
  x : Desc
  use : Use
deriving DecidableEq, Repr

/-- A refusal by the walker that names an operand field and its descriptor. -/
def walkRefuse (cause : Nat) (o : Walked) : FaultInfo :=
  { cls := 0x10, cause := cause, field := o.field, unit := 0x06, datum := 0, desc := o.x.slot }

/-- A DESC_ALIAS fault (R121, R123). -/
def aliasFault (datum : Nat) (o : Walked) : FaultInfo :=
  { cls := 0x13, cause := 0, field := o.field, unit := 0x06, datum := datum, desc := o.x.slot }

/-- A unit's refusal that names an operand field. -/
def unitRefuse (unit cause field desc : Nat) : FaultInfo :=
  { cls := 0x10, cause := cause, field := field, unit := unit, datum := 0, desc := desc }

/-- Order 1 (R118). -/
def walk1 (o : Walked) : Option FaultInfo :=
  let x := o.x
  if 0xE ≤ x.fmt ∨ x.ndim = 0 ∨ 5 < x.ndim ∨ descReserved x.raw ∨
      ((upTo 5).any (fun k => decide (x.ndim ≤ k) && (x.ext.getD k 0 != 0 || x.str.getD k 0 != 0))) ∨ (x.inner ∧ !x.brick) then
    some (walkRefuse causeReserved o)
  else none

/-- Order 2 (R116, R118, R140). -/
def walk2 (o : Walked) : Option FaultInfo :=
  let x := o.x
  let bytes := elemBits x.fmt / 8
  let empty : Bool := (upTo x.ndim).any (fun k => x.e k == 0)
  let emptyOk : Bool := o.use.emptyK && x.e 0 == 0 && (upTo x.ndim).all (fun k => k == 0 || x.e k != 0)
  let swBad : Bool := x.sw && (x.brick || o.use.store || !o.use.window || decide (x.ndim < x.wdim + 2) || x.s x.wdim != 0 ||
    x.wlen == 0)
  let wNonzero : Bool := !x.sw && (x.wdim != 0 || x.wstride != 0 || x.wdil != 0 || x.wpad != 0 || x.wlen != 0)
  if (x.brick ∧ x.base % 256 ≠ 0) ∨ (!x.brick ∧ 1 ≤ bytes ∧ x.base % bytes ≠ 0) ∨ (empty ∧ !emptyOk) ∨
      (x.brick ∧ x.ndim < 2) ∨ swBad ∨ wNonzero then some (walkRefuse causeOperand o)
  else none

/-- Order 3 (R118, R131). -/
def walk3 (o : Walked) : Option FaultInfo :=
  let x := o.x
  let bits := elemBits x.fmt
  let sub : Bool := !x.brick && decide (bits < 8) &&
    ((decide (1 < x.e 0) && x.s 0 != 1) ||
     (upTo x.ndim).any (fun k => k != 0 && (x.s k * (bits : Int)) % 8 != 0) ||
     (o.use.store && x.e 0 * bits % 8 != 0))
  if (x.satinf ∧ x.fmt ≠ 4) ∨ ((x.rq ∨ x.hist) ∧ !(x.brick && isScaled x.fmt)) ∨ sub ∨ (o.use.accum ∧ x.brick) then
    some (walkRefuse causeFormat o)
  else none

/-- Order 4 (R118, R119). -/
def walk4 (d : Dev) (part : Option Nat) (o : Walked) : Option FaultInfo :=
  let (lo, hi) := o.x.range o.use.extra
  let ok : Bool := match part with
    | none => false
    | some q => o.x.part == q && decide (0 ≤ lo) && (o.x.count == 0 || (d.part q).inside o.use.store lo.toNat (hi - lo).toNat)
  if ok then none else some (walkRefuse causeScope o)

/-- The nested-stride rule: the first dimension that fails (R121). -/
def Desc.nested (x : Desc) (extra : Nat) : Option Nat :=
  let n (k : Nat) : Nat := if x.brick ∧ k = 0 then x.nb0 else if x.brick ∧ k = 1 then x.nb1 else x.e k
  ((upTo x.ndim).foldl (fun (acc : Nat × Option Nat) k =>
    if acc.2.isSome ∨ n k ≤ 1 then acc
    else if (x.s k).natAbs < acc.1 then (acc.1, some k)
    else ((x.s k).natAbs * (n k - 1) + acc.1, none)) (if x.brick then granulesOf x.fmt + extra else 1, none)).2

/-- Order 5 for one operand (R118, R121). -/
def walk5 (o : Walked) : Option FaultInfo :=
  if o.use.store ∧ !o.use.accum then (o.x.nested o.use.extra).map (fun k => aliasFault k o) else none

/-- Whether the byte ranges of a source and a destination overlap (R123). -/
def overlaps (a b : Walked) : Bool :=
  let (l, h) := a.x.range a.use.extra
  let (l', h') := b.x.range b.use.extra
  decide (l < h) && decide (l' < h') && decide (l < h') && decide (l' < h)

/-- R123: overlapping source and destination ranges; `move` lets identical descriptors pass. -/
def overlapFault (move : Bool) (ops : List Walked) : Option FaultInfo :=
  (ops.filter (·.use.store)).findSome? (fun b =>
    (ops.filter (fun a => !a.use.store)).findSome? (fun a =>
      if overlaps a b ∧ !(move && a.x.raw == b.x.raw && a.x.base == b.x.base) then some (aliasFault 0xFFFFFFFF b) else none))

/-- The first of a list of optional faults. -/
def firstFault (fs : List (Option FaultInfo)) : Option FaultInfo := fs.findSome? id

/-- All five orders over all operands; `two` and `three` are the instruction's own checks of orders 2 and 3 (R118). Where several
operands fail the same order, the record names the first of the list: SRC before DST for MOVE, DST before SRC for TURN and QUANT
(DESIGN CHOICE, log entry 135). -/
def walkerFault (d : Dev) (part : Option Nat) (ops : List Walked) (two three : Option FaultInfo) (move : Bool) :
    Option FaultInfo :=
  firstFault [ops.findSome? walk1, two, ops.findSome? walk2, ops.findSome? walk3, three, ops.findSome? (walk4 d part),
    ops.findSome? walk5, overlapFault move ops]

/-! ### Operands of an instruction (R97) -/

/-- A tile register or a captured descriptor. -/
inductive Opd where
  | tile (n : Nat)
  | desc (x : Desc)
deriving DecidableEq, Repr

/-- The operand of a 9-bit field at bit `lo` (R97). -/
def Issue.opd (i : Issue) (lo : Nat) : Opd :=
  let v := fld i.w lo 9
  if v < 256 then .tile (v % 16)
  else .desc (parseDesc (v % 256) (tabGet 0 i.x.desc (v % 256)).toNat i.x.live.model.toNat)

/-- A tile operand whose bits [7:4] are not zero (R97, R110). -/
def Issue.tileBad (i : Issue) (lo : Nat) : Bool := decide (fld i.w lo 9 < 256) && fld i.w (lo + 4) 4 != 0

/-- R97: each of some operand fields must be zero in bits [7:4] when it names a tile, or the sequencer refuses it (DEDUCED, log
entry 112). -/
def Issue.tilesFault (i : Issue) (los : List Nat) : Option FaultInfo :=
  (los.find? i.tileBad).map (fun lo => unitRefuse 0x01 causeOperand lo 0)

/-- The descriptor of an operand as the walker checks it. -/
def Opd.walked (o : Opd) (field : Nat) (use : Use) : List Walked :=
  match o with
  | .tile _ => []
  | .desc x => [{ field := field, x := x, use := use }]

def Opd.slot (o : Opd) : Nat := match o with | .tile _ => 0 | .desc x => x.slot
def Opd.isTile (o : Opd) : Bool := match o with | .tile _ => true | .desc _ => false
def Opd.mask (o : Opd) : Nat := match o with | .tile n => 2 ^ n | .desc _ => 0
def Opd.pairMask (o : Opd) : Nat := match o with | .tile n => 2 ^ n + 2 ^ (n + 1) | .desc _ => 0

/-! ### Issue of a unit's instruction (R78 to R83, R353) -/

/-- Capture at issue the descriptors that some fields name: each poisoned one bites, with its own record, and the first reads as
reserved (R353, R354). -/
def Dev.captureBite (t : TimeUnit) (i : Issue) (los : List Nat) (d : Dev) : Option (FaultInfo × Dev) :=
  let slots := (los.filter (fun lo => decide (256 ≤ fld i.w lo 9))).map (fun lo => (lo, fld i.w lo 8))
  let hits := slots.filter (fun p => i.x.descPoison.any (fun k => k / 64 == p.2))
  let distinct := hits.foldl (fun (xs : List (Nat × Nat)) p => if xs.any (fun x => x.2 == p.2) then xs else xs ++ [p]) []
  let bite (d : Dev) (p : Nat × Nat) : Dev :=
    let bad := i.x.descPoison.filter (fun k => k / 64 == p.2)
    let a := 0x80000000 + i.b * 0x1000000 + 0x10000 + i.s * 0x4000 + bad.headD 0
    let mb := match i.x.occ.bind d.occ with | some o => o.te.mb | none => 0xFF
    d.emit t i.part { biteRecord (baySrc 0x01 i.b) 4 a bad.length (opc i.w) mb with
      stream := BitVec.ofNat 2 i.s, desc := BitVec.ofNat 8 p.2, iptr := i.iptr
      entry := match i.x.occ with | some k => w32 k.entry | none => 0xFFFFFFFF }
  match hits with
  | [] => none
  | (lo, slot) :: _ => some (unitRefuse 0x06 causeReserved lo slot, distinct.foldl bite d)

/-- The record of an instruction that has just issued. -/
def Issue.flight (i : Issue) (y : Bay) (step : W64) (los : List Nat) : Flight :=
  { id := y.nextId, stream := i.s, queue := (queueOf (opc i.w)).getD 0, word := i.word, iptr := i.iptr, occ := i.x.occ, part := i.part,
    reads := tileReads i.w, writes := tileWrites i.w,
    descs := (los.filter (fun lo => decide (256 ≤ fld i.w lo 9))).map (fun lo => (lo, tabGet 0 i.x.desc (fld i.w lo 8))),
    cfg := i.x.live, begun := false, done := false, step := step, amax := [], ctab := 0,
    ops := i.ops, parked := false, await := Await.none, book := none, block := none }

/-- Change the record of a flight. -/
def Bay.modFlight (y : Bay) (id : Nat) (g : Flight → Flight) : Bay :=
  { y with flights := y.flights.map (fun f => if f.id = id then g f else f) }

/-- The opcode of a flight. -/
def Flight.op (f : Flight) : Nat := opc f.word.toNat

/-- The unit that a flight needs: its queue's, where that has one; the feeder of MLOAD and the array of MMUL, and the points unit,
the collective engine and the update unit of the PIER queue, begin on their own (R80, R182). -/
def Flight.unit (f : Flight) : Nat :=
  if f.op = 0x20 then 8 else if f.op = 0x58 then 9 else if f.op = 0x60 then 10 else f.queue

/-- Whether a flight may leave its queue, given the flights issued before it: an MLOAD once the swap of every MLOAD before it has
begun; another once everything ahead of it in its queue has left and its unit is free. COLL and UPD leave when their engines
start them (R80, R108, R182). -/
def Flight.mayBegin (f : Flight) (ahead : List Flight) : Bool :=
  if f.op = 0x20 then ahead.all (fun g => g.op != 0x20 || g.done)
  else f.op != 0x58 && f.op != 0x60 &&
    ahead.all (fun g => g.queue != f.queue || ((g.begun || g.op == 0x20) && g.unit != f.unit))

/-- Units begin the instructions that may leave their queues (R80). -/
def beginFlights : List Flight → List Flight → List Flight
  | ahead, [] => ahead
  | ahead, f :: rest => beginFlights (ahead ++ [if !f.begun && f.mayBegin ahead then { f with begun := true } else f]) rest

def Bay.beginNext (y : Bay) : Bay := { y with flights := beginFlights [] y.flights }

/-- Whether a flight waits before its effect. -/
def Flight.waits (f : Flight) : Bool := f.parked && !f.done && f.op != 0x58 && f.op != 0x60

/-- Whether an instruction issued before a flight to its queue still waits: effects keep the order of a queue (R80, R302). -/
def Bay.behindParked (y : Bay) (id : Nat) : Bool :=
  match y.flights.find? (fun f => f.id = id) with
  | none => false
  | some f => (y.flights.takeWhile (fun g => g.id != id)).any (fun g => g.queue == f.queue && g.waits)

/-- Run the effect of a flight, whole or not at all: where it must wait, for bytes from peers or hosts or for memory that serves
no request now, its reads through windows leave and it is parked (R321, R323, R379, R381). -/
def Dev.runEffect (t : TimeUnit) (b id : Nat) (w : Await) (effect : Dev → Dev) (d : Dev) : Dev :=
  if (d.bay b).behindParked id then d.modBay b (fun y => y.modFlight id (fun f => { f with parked := true }))
  else
    match d.attempt t w (fun _ => effect) with
    | (none, d1) => d1.modBay b (fun y => y.modFlight id (fun f => { f with parked := false, await := Await.none }))
    | (some (w', _), d1) => d1.modBay b (fun y => y.modFlight id (fun f => { f with parked := true, await := w' }))

/-- Issue of an instruction of a unit: the scoreboard and the queue, the capture, the refusals, what it does in its unit as it
issues, then its effect on the device, given its flight (R78, R80, R82, R83, R118, R353). `los` are the fields that may name
descriptors. An instruction that has waited (`redo`) only has its effect. -/
def Dev.unitStart (t : TimeUnit) (i : Issue) (los : List Nat) (fault : Option FaultInfo) (start : Flight → Dev → Dev)
    (effect : Flight → Dev → Dev) (d : Dev) : Dev :=
  let y := d.bay i.b
  match i.redo with
  | some id => match y.flights.find? (fun f => f.id = id) with
    | some f => effect f d
    | none => d
  | none =>
    if !y.boardOk (tileReads i.w) (tileWrites i.w) ∨ !y.queueOk ((queueOf (opc i.w)).getD 0) then d.blockUnit i.b i.s
    else
      match d.captureBite t i los with
      | some (f, d1) => i.refuse t f d1
      | none =>
        match fault with
        | some f => i.refuse t f d
        | none =>
          let f := i.flight y d.step los
          (start f ((d.advance i.b i.s).modBay i.b (fun y =>
            ({ y with flights := y.flights ++ [f], nextId := y.nextId + 1 } : Bay).beginNext))).runEffect t i.b f.id Await.none (effect f)

/-- Issue of an instruction that does nothing in its unit before its effect. -/
def Dev.unitIssue (t : TimeUnit) (i : Issue) (los : List Nat) (fault : Option FaultInfo) (effect : Flight → Dev → Dev) (d : Dev) :
    Dev := d.unitStart t i los fault (fun _ d => d) effect

/-- The operand that a flight captured at a field. -/
def Flight.opd (f : Flight) (lo : Nat) : Opd :=
  let v := fld f.word.toNat lo 9
  if v < 256 then .tile (v % 16)
  else .desc (parseDesc (v % 256) (tabGet 0 f.descs lo).toNat f.cfg.model.toNat)

/-- The requester of a unit working for a flight: a unit of the bay, or one of its pier (R12). -/
def Flight.req (f : Flight) (kind b : Nat) : Req :=
  { src := if kind = 0x07 ∨ kind = 0x08 then pierSrc kind (b / 16) else baySrc kind b
    part := f.part, func := none, occ := f.occ, flight := some (b, f.id), await := f.await }

/-- The results of a flight are written. -/
def Dev.finish (b id : Nat) (d : Dev) : Dev := d.modBay b (fun y => y.modFlight id (fun f => { f with done := true }))

/-- A flight leaves the bay, and its unit's next instruction begins (R80, R81). -/
def Bay.leave (y : Bay) (id : Nat) : Bay := ({ y with flights := y.flights.filter (fun f => f.id != id) } : Bay).beginNext

/-- A record that a unit writes for a flight (R11). -/
def Flight.record (f : Flight) (cls src : Nat) : EvRec :=
  { Machine.record cls src with
    stream := BitVec.ofNat 2 f.stream, iptr := f.iptr
    entry := match f.occ with | some k => w32 k.entry | none => 0xFFFFFFFF }

/-! ### Tile registers (R97, R137, R349) -/

/-- The 32 bits of cell (r, c) of tile n. -/
def Bay.cell (y : Bay) (n r c : Nat) : W32 := tabGet 0 y.tiles (4096 * n + 64 * r + c)

/-- Poison of half `h` of a cell, and of the whole cell (R349). -/
def Bay.halfPoison (y : Bay) (n r c h : Nat) : Bool := y.tilePoison.contains (2 * (4096 * n + 64 * r + c) + h)
def Bay.cellPoison (y : Bay) (n r c : Nat) : Bool := y.halfPoison n r c 0 || y.halfPoison n r c 1

/-- Write a cell with the poison of its halves. -/
def Bay.setCell (y : Bay) (n r c : Nat) (v : W32) (p0 p1 : Bool) : Bay :=
  let k := 4096 * n + 64 * r + c
  { y with tiles := tabSet 0 y.tiles k v, tilePoison := setPut (setPut y.tilePoison (2 * k) p0) (2 * k + 1) p1 }

/-- Write many cells: row, column, value, poison of both halves. -/
def Bay.setCells (y : Bay) (n : Nat) (cs : List (Nat × Nat × Nat × Bool)) : Bay :=
  cs.foldl (fun y c => y.setCell n c.1 c.2.1 (w32 c.2.2.1) c.2.2.2 c.2.2.2) y

/-! ### Requests of the walker (R141, R503) -/

/-- Group byte addresses, in walk order, into requests: consecutive ones in one 64-byte block (R141). -/
def groupBlocks {α : Type} (addr : α → Nat) : List α → List (List α)
  | [] => []
  | x :: rest =>
    match groupBlocks addr rest with
    | [] => [[x]]
    | [] :: gs => [x] :: gs
    | (y :: ys) :: gs => if addr x / 64 = addr y / 64 then (x :: y :: ys) :: gs else [x] :: (y :: ys) :: gs

/-- Make the read requests for some bytes, each with its byte mask (R141, R503). -/
def Dev.touch (t : TimeUnit) (q : Req) (addrs : List Nat) (d : Dev) : Dev :=
  (groupBlocks id addrs).foldl (fun d g =>
    let lo := g.foldl Nat.min (g.headD 0)
    let hi := g.foldl Nat.max 0
    (d.readMask t q lo (hi + 1 - lo) (fun a => g.contains a)).2) d

/-- Make the write requests for some bytes, each with its byte mask (R136). -/
def Dev.putBytes (t : TimeUnit) (q : Req) (xs : List (Nat × Nat × Bool)) (d : Dev) : Dev :=
  (groupBlocks (fun (x : Nat × Nat × Bool) => x.1) xs).foldl (fun (d : Dev) (g : List (Nat × Nat × Bool)) =>
    let lo := g.foldl (fun (m : Nat) (x : Nat × Nat × Bool) => Nat.min m x.1) ((g.headD (0, 0, false)).1)
    let hi := g.foldl (fun (m : Nat) (x : Nat × Nat × Bool) => Nat.max m x.1) 0
    let n := hi + 1 - lo
    let at' (i : Nat) : Option (Nat × Nat × Bool) := g.find? (fun x => x.1 = lo + i)
    d.write t q lo ((upTo n).map (fun i => match at' i with | some x => BitVec.ofNat 8 x.2.1 | none => 0))
      ((upTo n).map (fun i => match at' i with | some x => x.2.2 | none => false))
      ((upTo n).map (fun i => (at' i).isSome))) d

/-- Some bits of memory after the requests that read them: their number and whether any byte is poisoned (R350). -/
def Dev.bitsAt (d : Dev) (pos n : Nat) : Nat × Bool :=
  let lo := pos / 8
  let bs := (upTo ((pos + n + 7) / 8 - lo)).map (fun k => d.peek (lo + k))
  (fld (ofBytes (bs.map (fun b => b.1.toNat))) (pos % 8) n, bs.any (·.2))

/-- The byte addresses that some bits lie in. -/
def bytesOfBits (pos n : Nat) : List Nat := (upTo ((pos + n + 7) / 8 - pos / 8)).map (pos / 8 + ·)

/-! ### Loads (R117, R125, R130, R135, R168, R169, R356, R357, R501, R504) -/

/-- A loaded operand, by the element's place in the plain walk: its value, code, course scale with its poison (0x7F in plain
mode), and whether its row was left unread. `fail` says that a seal check of the load failed. -/
structure Loaded where
  val : Nat → Num
  code : Nat → Nat × Bool
  scale : Nat → Nat × Bool
  unread : Nat → Bool
  fail : Bool

/-- The tag and the row-occupancy mask of a brick; poison in either makes OCCP count as 0 (R504). -/
def Dev.tagOcc (d : Dev) (x : Desc) (a : Nat) : Nat × Nat × Bool :=
  let (tag, p) := d.bitsAt (8 * (a + planeBytes x.fmt + 132)) 32
  let (occ, p') := d.bitsAt (8 * (a + planeBytes x.fmt + 136)) 64
  (tag, occ, bit tag 7 && !p && !p')

/-- Whether row `r` of the brick at `a` is left unread (R168). -/
def Dev.rowUnread (d : Dev) (x : Desc) (a r : Nat) : Bool :=
  let (_, occ, occp) := d.tagOcc x a
  occp && !bit occ r

/-- The codebook entries of the brick at `a`, with their poison (R169, R501). -/
def Dev.sideBook (d : Dev) (x : Desc) (a : Nat) : List (Val × Bool) :=
  (upTo 16).map (fun c =>
    let (v, p) := d.bitsAt (8 * (a + planeBytes x.fmt + 144 + 2 * c)) 16
    (decodeFloat 2 v, p))

/-- How many distinct 64-byte blocks some bytes lie in, counted up to 65. -/
def countBlocks (addrs : List Nat) : Nat :=
  (addrs.foldl (fun (bs : List Nat) a => if 64 < bs.length ∨ bs.contains (a / 64) then bs else (a / 64) :: bs) []).length

/-- The bytes of element `n` of a plain operand. -/
def Desc.elemBytes (x : Desc) (n : Nat) : List Nat := match x.bitAt n with | some p => bytesOfBits p (elemBits x.fmt) | none => []

/-- Whether R141 delivers element `n` of a plain load from the blocks that it holds: at some zero-stride dimension its index is
above 0, and one pass of the dimensions below, at index 0, touches at most 64 blocks. -/
def Desc.heldAt (x : Desc) (n : Nat) : Bool :=
  (upTo x.ndim).any (fun k =>
    x.s k == 0 && !(x.sw && k == x.wdim) && decide (0 < (x.coord n).getD k 0) &&
    (let low := (upTo k).foldl (fun m j => m * x.e j) 1
     let first := n / (low * x.e k) * (low * x.e k)
     decide (countBlocks ((upTo low).flatMap (fun m => x.elemBytes (first + m))) ≤ 64)))

/-- The byte addresses of a plain load, in walk order, without those that R141 delivers from blocks already held. -/
def Desc.plainBytes (x : Desc) : List Nat :=
  ((upTo x.count).filter (fun n => !x.heldAt n)).flatMap x.elemBytes

/-- The read requests of one brick: its side plane, then the valid bytes of the rows that are read (R168). -/
def Dev.touchBrick (t : TimeUnit) (q : Req) (x : Desc) (w : Nat) (d : Dev) : Dev :=
  let a := x.brickAddr w
  let d1 := d.touch t q ((upTo 256).map (a + planeBytes x.fmt + ·))
  d1.touch t q ((upTo 64).flatMap (fun r =>
    if d1.rowUnread x a r then []
    else ((upTo (rowBytes x.fmt)).filter (x.byteValid w r)).map (fun j => a + rowBytes x.fmt * r + j)))

/-- The bytes that the requests of one brick cover: its side plane and the valid bytes of the rows that are read (R168). -/
def Dev.brickBytes (d : Dev) (x : Desc) (w : Nat) : List Nat :=
  let a := x.brickAddr w
  (upTo 256).map (a + planeBytes x.fmt + ·) ++ (upTo 64).flatMap (fun r =>
    if d.rowUnread x a r then []
    else ((upTo (rowBytes x.fmt)).filter (x.byteValid w r)).map (fun j => a + rowBytes x.fmt * r + j))

/-- Whether R141 delivers the recurrence of a brick at position `w` of the walk from the blocks that it holds. -/
def Dev.brickHeld (d : Dev) (x : Desc) (w : Nat) : Bool :=
  let n (k : Nat) : Nat := if k = 0 then x.nb0 else if k = 1 then x.nb1 else x.e k
  (upTo x.ndim).any (fun k =>
    x.s k == 0 && decide (0 < (x.brickIdx w).getD k 0) &&
    (let low := (upTo k).foldl (fun m j => m * n j) 1
     let first := w / (low * n k) * (low * n k)
     decide (countBlocks ((upTo low).flatMap (fun m => d.brickBytes x (first + m))) ≤ 64)))

/-- The bricks of a load that are read, in walk order: all but the recurrences that are held (R141). -/
def Dev.brickReads (d : Dev) (x : Desc) : List Nat := (upTo x.bricks).filter (fun w => !d.brickHeld x w)

/-- The seal of brick `w` as read or written (R355). -/
def Dev.sealOf (d : Dev) (x : Desc) (w : Nat) : Nat :=
  let a := x.brickAddr w
  let rb := rowBytes x.fmt
  let rows := (upTo 64).flatMap (fun r =>
    let skip := d.rowUnread x a r
    ((upTo rb).filter (x.byteValid w r)).map (fun j =>
      if skip then 0
      else
        let (v, p) := d.peek (a + rb * r + j)
        if p then 0 else v.toNat &&& x.keepBits w r j))
  let side := ((upTo 256).filter (fun k => !(decide (128 ≤ k) && decide (k < 132)))).map (fun k =>
    let (v, p) := d.peek (a + planeBytes x.fmt + k)
    if p then 0 else v.toNat)
  crc32c (rows ++ side)

/-- What one read of brick `w` gives its checks: the computed seal, the side plane's, and the tag (R355, R356). -/
def Dev.sealRead (d : Dev) (x : Desc) (w : Nat) : Nat × Nat × Nat :=
  let a := x.brickAddr w + planeBytes x.fmt
  (d.sealOf x w, (d.bitsAt (8 * (a + 128)) 32).1, (d.bitsAt (8 * (a + 132)) 32).1)

/-- What the check of position `w` finds, given what the brick's read gave: where the mismatch is (0 side plane, 1 seal array, 2
tag), the computed and the stored seal (R130, R356, R363). `sparse` is the TSPARSE and TKSEL that the reader expects. -/
def Dev.sealJudge (d : Dev) (x : Desc) (w : Nat) (sparse : Option Nat) (read : Nat × Nat × Nat) : Option (Nat × Nat × Nat) :=
  let (comp, side, tag) := read
  let arr := (d.bitsAt (8 * (x.sealAddr + 4 * w)) 32).1
  let want := x.fmt + 16 * b2n x.inner + (match sparse with | some k => 32 + k * 256 | none => 0)
  if comp ≠ side then some (0, comp, side)
  else if x.sealAddr ≠ 0 ∧ comp ≠ arr then some (1, comp, arr)
  else if tag &&& 0x37F ≠ want then some (2, comp, side)
  else none

/-- What a seal check of brick `w`, read now, finds. -/
def Dev.sealCheck (d : Dev) (x : Desc) (w : Nat) (sparse : Option Nat) : Option (Nat × Nat × Nat) :=
  d.sealJudge x w sparse (d.sealRead x w)

/-- The SEAL_MISMATCH record of a failing brick (R357, R363). -/
def sealRecord (b : Nat) (f : Flight) (x : Desc) (w which comp stored : Nat) : EvRec :=
  { f.record 0x05 (baySrc 0x09 b) with
    desc := BitVec.ofNat 8 x.slot, addr := BitVec.ofNat 52 (x.brickAddr w), count := w64 w
    detail := detail [(48, 1, which), (49, 1, opc f.word.toNat), (56, 4, comp), (60, 4, stored)] }

/-- Check every brick of a load when MX_SEALCHK is 1: one record for each failing position (R356, R357). -/
def Dev.sealLoad (t : TimeUnit) (b : Nat) (f : Flight) (q : Req) (x : Desc) (sparse : Option Nat) (d : Dev) : Bool × Dev :=
  if !x.brick ∨ !f.cfg.sealchk then (false, d)
  else
    let d0 := if x.sealAddr = 0 then d else d.touch t q ((upTo (4 * x.bricks)).map (x.sealAddr + ·))
    (upTo x.bricks).foldl (fun (acc : Bool × Dev) w =>
      match acc.2.sealCheck x w sparse with
      | none => acc
      | some (which, comp, stored) => (true, acc.2.emit t f.part (sealRecord b f x w which comp stored))) (false, d0)

/-- The TSPARSE and TKSEL that a load under a configuration expects (R130). -/
def sparseTag (c : Cfg) : Option Nat := if fld c.mode.toNat 0 2 = 2 then some (fld c.mode.toNat 2 2) else none

/-- Load a descriptor operand for a flight: the requests, the seal checks, and the elements (R117 to R141, R168, R357). -/
def Dev.load (t : TimeUnit) (b : Nat) (f : Flight) (kind : Nat) (x : Desc) (sparse : Option Nat) (d : Dev) : Loaded × Dev :=
  let q := f.req kind b
  let bits := elemBits x.fmt
  if x.brick then
    let d1 := (d.brickReads x).foldl (fun (d : Dev) w => d.touchBrick t q x w) d
    let (fail, d2) := d1.sealLoad t b f q x sparse
    let scaleAt (w r p : Nat) : Nat × Bool :=
      d1.bitsAt (8 * (x.brickAddr w + planeBytes x.fmt + 2 * r + p / 32)) 8
    let codeAt (w r p : Nat) : Nat × Bool :=
      let a := x.brickAddr w
      if d1.rowUnread x a r then (0, false) else d1.bitsAt (8 * (a + rowBytes x.fmt * r) + bits * p) bits
    ({ code := fun n => let (w, r, p) := x.spot n; codeAt w r p
       scale := fun n => let (w, r, p) := x.spot n; scaleAt w r p
       unread := fun n => let (w, r, _) := x.spot n; d1.rowUnread x (x.brickAddr w) r
       fail := fail
       val := fun n =>
         let (w, r, p) := x.spot n
         let a := x.brickAddr w
         if d1.rowUnread x a r then Num.zero
         else
           let (c, cp) := codeAt w r p
           let (s, sp) := scaleAt w r p
           if x.fmt = 0xA then
             let (v, bp) := (d1.sideBook x a).getD c (.nan, false)
             { val := v.scaled s, poison := cp || sp || bp }
           else
             let v := decodeElem x.fmt [] c
             if isScaled x.fmt then { val := v.scaled s, poison := cp || sp } else { val := v, poison := cp } }, d2)
  else
    let d1 := d.touch t q x.plainBytes
    let codeAt (n : Nat) : Nat × Bool := match x.bitAt n with | some p => d1.bitsAt p bits | none => (0, false)
    ({ code := codeAt, scale := fun _ => (0x7F, false), unread := fun _ => false, fail := false
       val := fun n =>
         match x.bitAt n with
         | none => Num.zero
         | some _ => let (c, p) := codeAt n; { val := decodeElem x.fmt [] c, poison := p } }, d1)

/-- The element with the failure of a seal check added as poison (R357). -/
def Loaded.num (l : Loaded) (n : Nat) : Num := let v := l.val n; { v with poison := v.poison || l.fail }

/-! ### Stores (R128, R129, R136, R350, R355) -/

/-- Pack the codes of one run of elements into bytes, a poisoned element poisoning every byte it touches (R350). -/
def packRun (bits : Nat) (cs : List (Nat × Bool)) : List (Nat × Bool) :=
  let word := (cs.zipIdx).foldl (fun n c => n + (c.1.1 % 2 ^ bits) <<< (bits * c.2)) 0
  (upTo ((cs.length * bits + 7) / 8)).map (fun j =>
    (fld word (8 * j) 8, (upTo ((8 * j + 7) / bits + 1 - 8 * j / bits)).any (fun k => (cs.getD (8 * j / bits + k) (0, false)).2)))

/-- Store codes through a plain descriptor, masked to its elements (R121, R136, R350). -/
def Dev.storePlain (t : TimeUnit) (q : Req) (x : Desc) (code : Nat → Nat × Bool) (d : Dev) : Dev :=
  let bits := elemBits x.fmt
  if 8 ≤ bits then
    d.putBytes t q ((upTo x.count).flatMap (fun n =>
      match x.bitAt n with
      | none => []
      | some p =>
        let (c, bad) := code n
        ((toBytes (bits / 8) c).zipIdx).map (fun y => (p / 8 + y.2, y.1, bad))))
  else
    d.putBytes t q ((upTo (x.count / x.e 0)).flatMap (fun r =>
      match x.bitAt (r * x.e 0) with
      | none => []
      | some p =>
        ((packRun bits ((upTo (x.e 0)).map (fun k => code (r * x.e 0 + k)))).zipIdx).map (fun y =>
          (p / 8 + y.2, y.1.1, y.1.2))))

/-- What a brick store writes besides its codes: course scales, codebook entries, the sparse tag fields. -/
structure Side where
  scale : Nat → Nat × Bool
  book : List (Nat × Bool)
  sparse : Option Nat

/-- A side plane without scales, codebook or index plane (R128). -/
def plainSide : Side := { scale := fun _ => (0x7F, false), book := [], sparse := none }

/-- The tag of a stored brick (R127, R258). -/
def makeTag (x : Desc) (inner : Bool) (sparse : Option Nat) : Nat :=
  x.fmt + 16 * b2n inner + 128 + 1024 * b2n (isScaled x.fmt) +
  (match sparse with | some k => 32 + k * 256 + granulesOf x.fmt * 4096 | none => 0)

/-- The 256 bytes of a side plane, with their poison (R126, R128). -/
def sideBytes (x : Desc) (s : Side) (occ crc : Nat) : List (Nat × Bool) :=
  (upTo 128).map s.scale ++ (toBytes 4 crc ++ toBytes 4 (makeTag x x.inner s.sparse) ++ toBytes 8 occ).map (fun v => (v, false)) ++
  (upTo 16).flatMap (fun c => let e := s.book.getD c (0, false); (toBytes 2 e.1).map (fun v => (v, e.2))) ++
  List.replicate 80 (0, false)

/-- Store a part of brick `w`: `code` gives the code at a row and position, `zero` whether it stands for ±0 there, `only` selects
the code-plane rows that are written, `sel` the positions of this part, and `fin` says that the side plane goes with it (R128, R129,
R136, R167, R355). -/
def Dev.storePart (t : TimeUnit) (q : Req) (x : Desc) (w : Nat) (valid : Nat → Nat → Bool) (code : Nat → Nat → Nat × Bool)
    (zero : Nat → Nat → Bool) (side : Side) (only : Bool) (sel : Nat → Nat → Bool) (fin : Bool) (d : Dev) : Dev :=
  let a := x.brickAddr w
  let bits := elemBits x.fmt
  let occ := (upTo 64).foldl (fun o r =>
    if (upTo 64).any (fun p => valid r p && ((code r p).2 || !zero r p)) then setBit o r else o) 0
  let rowOf (r : Nat) : List (Nat × Bool) :=
    packRun bits ((upTo 64).map (fun p => if valid r p then code r p else (0, false)))
  let live (r j : Nat) : Bool := (bytePositions x.fmt j).any (valid r)
  let seen := (upTo 64).flatMap (fun r =>
    ((rowOf r).zipIdx.filter (fun y => live r y.2)).map (fun y => if y.1.2 || !bit occ r then 0 else y.1.1))
  let head := sideBytes x side occ 0
  let feed := seen ++ ((head.zipIdx.filter (fun y => !(decide (128 ≤ y.2) && decide (y.2 < 132)))).map (fun y =>
    if y.1.2 then 0 else y.1.1))
  let plane := (upTo 64).flatMap (fun r =>
    if only ∧ !bit occ r then []
    else
      let part (j : Nat) : Bool := (bytePositions x.fmt j).any (fun p => valid r p && sel r p)
      ((rowOf r).zipIdx.filter (fun y => part y.2)).map (fun y => (a + rowBytes x.fmt * r + y.2, y.1.1, y.1.2)))
  let d1 := d.putBytes t q plane
  if fin then
    d1.putBytes t q ((sideBytes x side occ (crc32c feed)).zipIdx.map (fun y => (a + planeBytes x.fmt + y.2, y.1.1, y.1.2)))
  else d1

/-- Store brick `w` whole. -/
def Dev.storeBrick (t : TimeUnit) (q : Req) (x : Desc) (w : Nat) (valid : Nat → Nat → Bool) (code : Nat → Nat → Nat × Bool)
    (zero : Nat → Nat → Bool) (side : Side) (only : Bool) (d : Dev) : Dev :=
  d.storePart t q x w valid code zero side only (fun _ _ => true) true

/-- Whether a code of a format other than CB4 encodes ±0 (R129). -/
def zeroCode (f c : Nat) : Bool :=
  if isFloatFmt f then fld c 0 (mantBits f + expBits f) == 0 else c % 2 ^ elemBits f == 0

/-- Store codes through a brick descriptor, with the side plane of each brick besides its codes and which codes stand for ±0
(R128, R129). -/
def Dev.storeSided (t : TimeUnit) (q : Req) (x : Desc) (side : Nat → Side) (zero : Nat → Bool) (code : Nat → Nat × Bool) (d : Dev) :
    Dev :=
  (upTo x.bricks).foldl (fun d w =>
    d.storeBrick t q x w (x.validAt w)
      (fun r p => match x.elemAt w r p with | some n => code n | none => (0, false))
      (fun r p => match x.elemAt w r p with | some n => zero (code n).1 | none => true) (side w) false) d

/-- Store elements of a format that is not course-scaled through a brick descriptor (R128). -/
def Dev.storeBricks (t : TimeUnit) (q : Req) (x : Desc) (code : Nat → Nat × Bool) (d : Dev) : Dev :=
  d.storeSided t q x (fun _ => plainSide) (zeroCode x.fmt) code

/-- Store codes through a descriptor of a format that is not course-scaled. -/
def Dev.storeCodes (t : TimeUnit) (q : Req) (x : Desc) (code : Nat → Nat × Bool) (d : Dev) : Dev :=
  if x.brick then d.storeBricks t q x code else d.storePlain t q x code

end Sys2Proof.Machine
end

