-- ==== Sys2Proof/Machine/Codebook.lean ====
section
/-! DEFINITION. Codebooks as instructions capture them at issue (R83, R170, R171, R501). -/

namespace Sys2Proof.Machine

/-- A captured codebook: its 16 codes, their poison, its values. -/
structure Book where
  codes : List Nat
  bad : List Bool
deriving DecidableEq, Repr

/-- The 16 entries from the 32 bytes at an address (R170, R171). -/
def bookOf (bs : List Byte) (ps : List Bool) : Book :=
  { codes := (upTo 16).map (fun c => ofBytes (natBytes ((bs.drop (2 * c)).take 2)))
    bad := (upTo 16).map (fun c => ps.getD (2 * c) false || ps.getD (2 * c + 1) false) }

/-- Entry `c` as a value. -/
def Book.val (k : Book) (c : Nat) : Val := decodeFloat 2 (k.codes.getD c 0)

/-- The largest magnitude among the finite entries, if any is finite (R170). -/
def Book.cmax (k : Book) : Option Val :=
  (upTo 16).foldl (fun (m : Option Val) c =>
    let v := (k.val c).abs
    if !v.isFin then m else match m with | none => some v | some w => some (if w.lt v then v else w)) none

/-- Whether entry `c` is nearer to `y` than entry `b`: ties to the larger magnitude, then to the lower index (R170). -/
def Book.nearer (k : Book) (y : Val) (c b : Nat) : Bool :=
  let dc := (y.sub (k.val c)).abs
  let db := (y.sub (k.val b)).abs
  dc.lt db || (!(db.lt dc) && (k.val b).abs.lt (k.val c).abs)

/-- The index of the finite entry nearest to `y` (R170). -/
def Book.nearest (k : Book) (y : Val) : Nat :=
  ((upTo 16).foldl (fun (m : Option Nat) c =>
    if !(k.val c).isFin then m else match m with | none => some c | some b => some (if k.nearer y c b then c else b)) none).getD 0

/-- The index of the largest or of the most negative finite entry (R159). -/
def Book.extreme (k : Book) (neg : Bool) : Nat :=
  ((upTo 16).foldl (fun (m : Option Nat) c =>
    if !(k.val c).isFin then m
    else match m with
      | none => some c
      | some b => some (if (if neg then (k.val c).lt (k.val b) else (k.val b).lt (k.val c)) then c else b)) none).getD 0

/-- The lowest-index finite zero entry (R170). -/
def Book.zeroAt (k : Book) : Nat := ((upTo 16).find? (fun c => (k.val c).isZero)).getD 0

/-! ### Capture at issue (R83, R170, R171) -/

/-- Capture the codebook at MX_CODEBOOK for a flight that has just issued. One that lies behind a window, or in memory that serves no
request now, has been asked for only when the flight has its effect, and is captured then. -/
def Dev.captureBook (t : TimeUnit) (b : Nat) (f : Flight) (d : Dev) : Dev :=
  match d.attempt t Await.none (fun _ d =>
      let (r, d1) := d.fetch t (f.req 0x05 b) f.cfg.codebook.toNat 32
      d1.modBay b (fun y => y.modFlight f.id (fun f => { f with book := some (r.1, r.2) }))) with
  | (none, d1) => d1
  | (some _, _) => d

/-- The codebook of a flight: what it captured, or what it reads now, which it then keeps. -/
def Dev.flightBook (t : TimeUnit) (b : Nat) (f : Flight) (d : Dev) : Book × Dev :=
  match ((d.bay b).flights.find? (fun g => g.id = f.id)).bind (·.book) with
  | some r => (bookOf r.1 r.2, d)
  | none =>
    let (r, d1) := d.fetch t (f.req 0x05 b) f.cfg.codebook.toNat 32
    (bookOf r.1 r.2, d1.modBay b (fun y => y.modFlight f.id (fun f => { f with book := some (r.1, r.2) })))

/-- Take `n` fresh free values (DESIGN CHOICE, log entry 3). -/
def Dev.takeFrees (n : Nat) (d : Dev) : (Nat → Nat) × Dev :=
  (fun k => (Config.freeValue (d.free + k)).toNat, { d with free := d.free + n })

end Sys2Proof.Machine
end

