-- ==== Sys2Proof/Machine/Move.lean ====
section
/-! DEFINITION. DLOAD and MOVE: descriptor loads, copies, conversions and accumulation (R95, R99, R101, R102, R110, R118,
R122, R123, R128, R138, R319, R504). -/

namespace Sys2Proof.Machine

/-! ### DLOAD (R95, R99) -/

/-- The number of entries that a DLOAD loads. -/
def dloadCount (w : Nat) : Nat := fld w 60 8 + 1

/-- DLOAD's refusals: FIRST + COUNT above 255 and a misaligned ADDR are OPERAND, an address outside the windows is SCOPE
(R99, R110). -/
def dloadFault (i : Issue) (d : Dev) : Option FaultInfo :=
  let a := fld i.w 0 52
  if 255 < fld i.w 52 8 + fld i.w 60 8 then some (unitRefuse 0x06 causeOperand 60 0)
  else if a % 64 ≠ 0 then some (unitRefuse 0x06 causeOperand 0 0)
  else
    match i.part with
    | none => some (unitRefuse 0x06 causeScope 0 0)
    | some q => if (d.part q).inside false a (64 * dloadCount i.w) then none else some (unitRefuse 0x06 causeScope 0 0)

/-- Put one descriptor with its poison into a stream's table. -/
def Stream.putDesc (x : Stream) (slot : Nat) (bs : List Byte) (ps : List Bool) : Stream :=
  { x with
    desc := tabSet 0 x.desc slot (BitVec.ofNat 512 (ofBytes (natBytes bs)))
    descPoison := ((upTo 64).filter (fun k => ps.getD k false)).foldl (fun s k => setPut s (64 * slot + k) true)
      (x.descPoison.filter (fun k => k / 64 != slot)) }

/-- Read the entries and write them to the table, without a shadow (R95). -/
def dloadEffect (t : TimeUnit) (i : Issue) (f : Flight) (d : Dev) : Dev :=
  let n := dloadCount i.w
  let (r, d1) := d.fetch t (f.req 0x06 i.b) (fld i.w 0 52) (64 * n)
  (d1.modStream i.b i.s (fun x => (upTo n).foldl (fun x k =>
    x.putDesc (fld i.w 52 8 + k) ((r.1.drop (64 * k)).take 64) ((r.2.drop (64 * k)).take 64)) x)).finish i.b f.id

def dloadBody (t : TimeUnit) (i : Issue) (d : Dev) : Dev := d.unitIssue t i [] (dloadFault i d) (dloadEffect t i)

/-! ### MOVE's checks (R101, R102, R118, R123, R138) -/

/-- The formats that MOVE converts among (R102). -/
def isConv (f : Nat) : Bool := f == 0 || f == 1 || f == 2 || f == 0xB || f == 0xC || f == 8 || f == 0xD

/-- The formats that an accumulating MOVE writes (R102). -/
def isAccum (f : Nat) : Bool := f == 0 || f == 1 || f == 0xB

/-- Whether an operand fits a tile register (R138). -/
def Desc.fitsTile (x : Desc) : Bool :=
  decide (x.e 0 ≤ 64) && decide (x.e 1 ≤ 64) && x.e 2 == 1 && x.e 3 == 1 && x.e 4 == 1

/-- Whether two descriptors have the same extents. -/
def Desc.sameExt (x y : Desc) : Bool := (upTo 5).all (fun k => x.e k == y.e k)

/-- MOVE's own checks of order 2: counts, tile shapes, a tile as accumulating destination. -/
def moveTwo (s o : Opd) (acc : Nat) : Option FaultInfo :=
  match s, o with
  | _, .tile _ =>
    if acc ≠ 0 then some (unitRefuse 0x06 causeOperand 9 0)
    else
      match s with
      | .desc x => if x.fitsTile then none else some (unitRefuse 0x06 causeOperand 0 x.slot)
      | .tile _ => none
  | .tile _, .desc y => if y.fitsTile then none else some (unitRefuse 0x06 causeOperand 9 y.slot)
  | .desc x, .desc y => if x.count = y.count then none else some (unitRefuse 0x06 causeOperand 9 y.slot)

/-- Whether a MOVE is a brick copy (R128). -/
def isCopy (s o : Opd) : Bool :=
  match s, o with
  | .desc x, .desc y => x.brick && y.brick && x.fmt == y.fmt
  | _, _ => false

/-- MOVE's own checks of order 3: the same format is always copied, any other pair must be one that MOVE converts (R102, R128). -/
def moveThree (s o : Opd) (acc : Nat) : Option FaultInfo :=
  let no (slot : Nat) : Option FaultInfo := some (unitRefuse 0x06 causeFormat 9 slot)
  match s, o with
  | .tile _, .tile _ => none
  | .desc x, .tile _ => if isConv x.fmt then none else some (unitRefuse 0x06 causeFormat 0 x.slot)
  | .tile _, .desc y => if !isConv y.fmt ∨ (acc ≠ 0 ∧ !isAccum y.fmt) then no y.slot else none
  | .desc x, .desc y =>
    if acc ≠ 0 ∧ !isAccum y.fmt then no y.slot
    else if x.fmt = y.fmt ∨ (isConv x.fmt ∧ isConv y.fmt) then none
    else no y.slot

/-- Every refusal of a MOVE. -/
def moveFault (i : Issue) (d : Dev) : Option FaultInfo :=
  let s := i.opd 0
  let o := i.opd 9
  let acc := fld i.w 18 2
  let ops := s.walked 0 { loadUse with window := true } ++ o.walked 9 { storeUse with accum := acc != 0 }
  firstFault [i.tilesFault [0, 9], walkerFault d i.part ops (moveTwo s o acc) (moveThree s o acc) true]

/-! ### MOVE's effect -/

/-- A cell of a tile as a value: an integer for an integer destination, else FP32 (R138). -/
def Bay.cellNum (y : Bay) (int : Bool) (n r c : Nat) : Num :=
  let v := (y.cell n r c).toNat
  { val := if int then Val.ofInt (sx 32 v) else f32 v, poison := y.cellPoison n r c }

/-- The cell format of a tile that receives elements of a format (R138). -/
def cellFmt (f : Nat) : Nat := if isIntFmt f then 0xB else 0

/-- The memory-side operation of an accumulating MOVE (R319). -/
def accCode (f acc : Nat) : Nat :=
  if f = 0 then [0, 1, 5, 6].getD acc 0 else if f = 1 then [0, 2, 7, 8].getD acc 0 else [0, 3, 9, 0xA].getD acc 0

/-- Cut elements in walk order into the requests of an accumulating store: consecutive ones, at rising addresses, in one 64-byte
block, so that no request meets one element twice (R122, R141). -/
def groupRises : List (Nat × Nat × Bool) → List (List (Nat × Nat × Bool))
  | [] => []
  | x :: rest =>
    match groupRises rest with
    | (y :: ys) :: gs => if x.1 / 64 = y.1 / 64 ∧ x.1 < y.1 then (x :: y :: ys) :: gs else [x] :: (y :: ys) :: gs
    | gs => [x] :: gs

/-- Combine the elements of one request, as address, code and poison, into their destinations: by the memory-side unit in an HBM range,
here or at a peer, and else by a read, a combination and a write of the walker (R122, R317, R319, R350, R379, R381). -/
def Dev.accumulate (t : TimeUnit) (q : Req) (f acc : Nat) (xs : List (Nat × Nat × Bool)) (d : Dev) : Dev :=
  let n := elemBits f / 8
  let lo := (xs.headD (0, 0, false)).1
  let len := (xs.getLastD (0, 0, false)).1 + n - lo
  let at' (i : Nat) : Option (Nat × Nat × Bool) := xs.find? (fun x => decide (x.1 ≤ lo + i) && decide (lo + i < x.1 + n))
  let byte (v : Nat × Nat × Bool) (i : Nat) : Byte := BitVec.ofNat 8 (v.2.1 / 256 ^ (lo + i - v.1))
  let mask := (upTo len).map (fun i => (at' i).isSome)
  if d.hbmSide lo then
    d.atomic t q (accCode f acc) lo ((upTo len).map (fun i => match at' i with | some x => byte x i | none => 0))
      ((upTo len).map (fun i => match at' i with | some x => x.2.2 | none => false)) mask
  else
    let (old, d1) := d.readMask t q lo len (fun a => (at' (a - lo)).isSome)
    let new := xs.map (fun x =>
      (x.1, msOp (accCode f acc) (ofBytes (natBytes ((old.1.drop (x.1 - lo)).take n))) x.2.1,
       x.2.2 || ((old.2.drop (x.1 - lo)).take n).any id))
    let of' (i : Nat) : Option (Nat × Nat × Bool) := new.find? (fun x => decide (x.1 ≤ lo + i) && decide (lo + i < x.1 + n))
    d1.write t q lo ((upTo len).map (fun i => match of' i with | some x => byte x i | none => 0))
      ((upTo len).map (fun i => match of' i with | some x => x.2.2 | none => false)) mask

/-- An accumulating store of codes, in the walk order of the destination (R122). -/
def Dev.accumulateAll (t : TimeUnit) (q : Req) (z : Desc) (acc : Nat) (src : Nat → Nat × Bool) (d : Dev) : Dev :=
  (groupRises ((upTo z.count).filterMap (fun k => (z.bitAt k).map (fun p => (p / 8, src k))))).foldl
    (fun (d : Dev) g => d.accumulate t q z.fmt acc g) d

/-- Copy a brick to a destination brick: the occupied rows' valid bytes and the side plane, unchanged; after a failed seal check
every byte of the copy is poisoned (R128, R357, R504). -/
def Dev.copyBrick (t : TimeUnit) (q : Req) (x y : Desc) (w : Nat) (fail : Bool) (d : Dev) : Dev :=
  let a := x.brickAddr w
  let b := y.brickAddr w
  let rb := rowBytes x.fmt
  let rows := (upTo 64).flatMap (fun r =>
    if d.rowUnread x a r ∧ !fail then []
    else ((upTo rb).filter (x.byteValid w r)).map (fun j =>
      let (v, p) := if d.rowUnread x a r then (0, false) else d.peek (a + rb * r + j)
      (b + rb * r + j, v.toNat &&& x.keepBits w r j, p || fail)))
  let side := (upTo 256).map (fun k =>
    let (v, p) := d.peek (a + planeBytes x.fmt + k)
    (b + planeBytes y.fmt + k, v.toNat, p || fail))
  (d.putBytes t q rows).putBytes t q side

/-- Copy codes to a brick of the same format whose bricks do not match the source's: elements go in the order of the walk, and the
side plane of brick `w` is that of the source's brick `w`; a brick that the source does not have takes free values (R101, R128;
DESIGN CHOICE, log entry 133). -/
def Dev.copyAcross (t : TimeUnit) (q : Req) (x z : Desc) (src : Nat → Nat × Bool) (fail : Bool) (w : Nat) (d : Dev) : Dev :=
  let b := z.brickAddr w
  let rb := rowBytes z.fmt
  let rows := (upTo 64).flatMap (fun r =>
    (((packRun (elemBits z.fmt) ((upTo 64).map (fun p => match z.elemAt w r p with | some n => src n | none => (0, false)))).zipIdx).filter
      (fun y => z.byteValid w r y.2)).map (fun y => (b + rb * r + y.2, y.1.1, y.1.2)))
  let (fv, d1) := d.takeFrees 256
  let side := (upTo 256).map (fun k =>
    let (v, p) : Nat × Bool := if w < x.bricks then (let y := d.peek (x.brickAddr w + planeBytes x.fmt + k); (y.1.toNat, y.2))
      else (fv k % 256, false)
    (b + planeBytes z.fmt + k, v, p || fail))
  (d1.putBytes t q rows).putBytes t q side

/-- Store codes that MOVE gives, through a plain or a brick descriptor. The quantiser takes no part, so a course-scaled brick's scales
have no stated value and are free; CB4 keeps the codebook in force (R101, R128, R170; DESIGN CHOICE, log entry 134). -/
def Dev.moveCodes (t : TimeUnit) (b : Nat) (f : Flight) (z : Desc) (code : Nat → Nat × Bool) (d : Dev) : Dev :=
  let q := f.req 0x06 b
  if !(z.brick && isScaled z.fmt) then d.storeCodes t q z code
  else
    let (k, d1) := if z.fmt = 0xA then d.flightBook t b f else (({ codes := [], bad := [] } : Book), d)
    let (fv, d2) := d1.takeFrees (128 * z.bricks)
    d2.storeSided t q z
      (fun w => { scale := fun j => (fv (128 * w + j) % 256, false), sparse := none
                  book := if z.fmt = 0xA then (upTo 16).map (fun c => (k.codes.getD c 0, k.bad.getD c false)) else [] })
      (fun c => if z.fmt = 0xA then (k.val c).isZero else zeroCode z.fmt c) code

/-- What MOVE does when it executes (R101). -/
def moveEffect (t : TimeUnit) (i : Issue) (f : Flight) (d : Dev) : Dev :=
  let q := f.req 0x06 i.b
  let acc := fld i.w 18 2
  let y := d.bay i.b
  let fin (d : Dev) : Dev := d.finish i.b f.id
  match f.opd 0, f.opd 9 with
  | .tile n, .tile m =>
    fin (d.modBay i.b (fun z => (upTo 4096).foldl (fun (z : Bay) k =>
      z.setCell m (k / 64) (k % 64) (y.cell n (k / 64) (k % 64)) (y.halfPoison n (k / 64) (k % 64) 0)
        (y.halfPoison n (k / 64) (k % 64) 1)) z))
  | .desc x, .tile m =>
    let (l, d1) := d.load t i.b f 0x06 x (sparseTag f.cfg)
    fin (d1.modBay i.b (fun z => z.setCells m ((upTo 4096).map (fun k =>
      let r := k / 64
      let c := k % 64
      if c < x.e 0 ∧ r < x.e 1 then
        let v := l.num (c + x.e 0 * r)
        (r, c, convertCode (cellFmt x.fmt) v.val, v.poison)
      else (r, c, 0, false)))))
  | .tile n, .desc z =>
    let src (k : Nat) : Nat × Bool :=
      let c := z.coord k
      let v := y.cellNum (isIntFmt z.fmt) n (c.getD 1 0) (c.getD 0 0)
      (convertCode z.fmt v.val, v.poison)
    fin (if acc = 0 then d.moveCodes t i.b f z src else d.accumulateAll t q z acc src)
  | .desc x, .desc z =>
    let (l, d1) := d.load t i.b f 0x06 x (sparseTag f.cfg)
    let copied (k : Nat) : Nat × Bool := let c := l.code k; (c.1, c.2 || l.fail)
    if isCopy (.desc x) (.desc z) then
      fin ((upTo z.bricks).foldl (fun (d : Dev) w =>
        if x.inner = z.inner ∧ x.sameExt z then d.copyBrick t q x z w l.fail else d.copyAcross t q x z copied l.fail w) d1)
    else
      let src (k : Nat) : Nat × Bool :=
        if x.fmt = z.fmt ∧ !isConv x.fmt then copied k else let v := l.num k; (convertCode z.fmt v.val, v.poison)
      fin (if acc = 0 then d1.moveCodes t i.b f z src else d1.accumulateAll t q z acc src)

/-- A MOVE that stores CB4 bricks captures its codebook at issue (R83, R170). -/
def moveStart (t : TimeUnit) (b : Nat) (f : Flight) (d : Dev) : Dev :=
  match f.opd 0, f.opd 9 with
  | .desc x, .desc z => if z.brick ∧ z.fmt = 0xA ∧ !x.brick then d.captureBook t b f else d
  | _, _ => d

/-- A MOVE: its checks and its effect. -/
def moveBody (t : TimeUnit) (i : Issue) (d : Dev) : Dev :=
  d.unitStart t i [0, 9] (moveFault i d) (moveStart t i.b) (moveEffect t i)

end Sys2Proof.Machine
end

