-- ==== Sys2Proof/Machine/Quantiser.lean ====
section
/-! DEFINITION. The quantiser: the per-tensor exponent, courses, CB4 encoding, stash compression, sparse stores, the amax
record and the counters (R105, R106, R153 to R170, R255 to R258, R351, R501). -/

namespace Sys2Proof.Machine

/-! ### The per-tensor exponent (R154) -/

/-- The reference magnitude of a format: its max, or Cmax (R154). -/
def quantRef (f : Nat) (k : Book) : Option Val :=
  if f = 0xA then (match k.cmax with | some v => if v.isZero then none else some v | none => none)
  else let m := narrowMax f; some (.fin false m.1 m.2)

/-- m of R154 from the usable history words; poisoned words are ignored like NaN (R351). -/
def tensorExponent (f : Nat) (k : Book) (hist : List (Val × Bool)) : Int :=
  let h := hist.foldl (fun (m : Val) v => if v.2 || !v.1.isFin || v.1.neg? then m else if m.lt v.1 then v.1 else m) Val.zero
  if h.isZero then 0
  else
    match quantRef f k with
    | none => 0
    | some r =>
      let m := r.exponent - h.exponent - (if (r.shift (-r.exponent)).lt (h.shift (-h.exponent)) then 1 else 0)
      Min.min (Max.max m (-126)) 126

/-! ### Courses (R156 to R159) -/

/-- What a quantiser instruction counts (R156, R163). -/
structure QCount where
  sat : Nat
  flush : Nat
  nanc : Nat
  infc : Nat
  high : Nat
  low : Nat
deriving DecidableEq, Repr

def QCount.zero : QCount := { sat := 0, flush := 0, nanc := 0, infc := 0, high := 0, low := 0 }

def QCount.add (a b : QCount) : QCount :=
  { sat := a.sat + b.sat, flush := a.flush + b.flush, nanc := a.nanc + b.nanc, infc := a.infc + b.infc,
    high := a.high + b.high, low := a.low + b.low }

/-- A quantised course: its scale, whether it is poisoned, its codes, which of them stand for ±0, its counts. -/
structure Course where
  scale : Nat
  bad : Bool
  codes : List Nat
  zeros : List Bool
  count : QCount
deriving DecidableEq, Repr

/-- emax(F) of R156. -/
def emaxOf (f : Nat) (k : Book) : Int :=
  if f = 0xA then ((k.cmax).getD Val.one).exponent else ([8, 15, 4, 2, 2, 6, 2].getD (f - 3) 0 : Nat)

/-- overflows(v, F) of R156 for a non-negative value. -/
def quantOver (f : Nat) (k : Book) (v : Val) : Bool :=
  if f = 0xA then ((k.cmax).getD Val.zero).lt v
  else
    let th : Val := match f with
      | 3 => .fin false 464 0
      | 4 => .fin false 61440 0
      | 5 => .fin false 30 0
      | 6 => .fin false 31 (-2)
      | 7 => .fin false 7 0
      | 8 => .fin false 255 (-1)
      | _ => .fin false 15 (-1)
    !(v.lt th)

/-- encode(y, F): the code, whether it overflowed, whether it is a zero code (R158, R159, R170). -/
def quantEncode (f : Nat) (satinf : Bool) (k : Book) (y : Val) : Nat × Bool × Bool :=
  if f = 0xA then
    match y with
    | .inf n => (k.extreme n, true, false)
    | _ =>
      let c := k.nearest y
      (c, ((k.cmax).getD Val.zero).lt y.abs, (k.val c).isZero)
  else
    let r := encodeNarrow f satinf y
    (r.1, r.2, zeroCode f r.1)

/-- One course of 32 positions; none marks a position without a valid element (R156 to R159, R170, R351). -/
def quantCourse (f : Nat) (satinf : Bool) (k : Book) (m : Int) (xs : List (Option Num)) : Course :=
  let live := xs.filterMap id
  let good := (live.filter (fun v => !v.poison)).map (·.val)
  let bad := live.any (·.poison)
  let isBook : Bool := f == 0xA
  if live = [] then { scale := 0x7F, bad := false, codes := xs.map (fun _ => 0), zeros := xs.map (fun _ => true), count := QCount.zero }
  else if good ≠ [] ∧ (good.any Val.isNan || (isBook && k.cmax.isNone)) then
    { scale := 0xFF, bad := bad, codes := xs.map (fun x => if x.isSome then onesCode f else 0),
      zeros := xs.map (fun _ => false), count := { QCount.zero with nanc := 1 } }
  else if good ≠ [] ∧ isBook ∧ ((k.cmax).getD Val.one).isZero then
    { scale := 0x7F, bad := bad, codes := xs.map (fun x => if x.isSome then k.zeroAt else 0), zeros := xs.map (fun _ => true)
      count := { QCount.zero with
        flush := (good.filter (fun v => v.isFin && !v.isZero)).length
        infc := (good.filter Val.isInf).length, low := 1 } }
  else
    let a := good.foldl (fun (m : Val) v => if v.isFin && m.lt v.abs then v.abs else m) Val.zero
    let x0 : Int :=
      if a.isZero then 0
      else
        let x := a.exponent + m - emaxOf f k
        if quantOver f k (a.shift (m - x)) then x + 1 else x
    let high : Bool := decide (127 < x0)
    let low : Bool := decide (x0 < -127)
    let x := Min.min (Max.max x0 (-127)) 127
    let enc (v : Val) : Nat × Bool × Bool := quantEncode f satinf k (v.shift (m - x))
    let code (o : Option Num) : Nat × Bool × Bool :=
      match o with
      | some v => if v.poison then (0, false, false) else enc v.val
      | none => (0, false, true)
    { scale := (x + 127).toNat, bad := bad, codes := xs.map (fun o => (code o).1), zeros := xs.map (fun o => (code o).2.2)
      count := { QCount.zero with
        sat := (good.filter (fun v => v.isFin && (enc v).2.1)).length
        infc := (good.filter Val.isInf).length
        flush := if low then (good.filter (fun v => v.isFin && !v.isZero && (enc v).2.2)).length else 0
        high := b2n high, low := b2n low } }

/-! ### Sparse selection (R256, R257) -/

/-- The k of MX_MODE (R92). -/
def modeK (mode : Nat) : Nat := 4 * (fld mode 2 2 + 1)

/-- Whether a value ranks above another by magnitude: NaN, then ±inf, then finite (R257). -/
def outranks (a b : Val) : Bool := (a.isNan && !b.isNan) || (!b.isNan && b.abs.lt a.abs)

/-- The kept positions of a group of 16, in ascending order (R257). -/
def keptOf (k : Nat) (g : List Val) : List Nat :=
  (upTo 16).filter (fun p =>
    let v := g.getD p Val.zero
    decide (((upTo 16).filter (fun q =>
      let u := g.getD q Val.zero
      q != p && (outranks u v || (!(outranks v u) && decide (q < p))))).length < k))

/-- EXT1 that a sparse store of `n` dense positions needs (R256). -/
def sparseExt (k n : Nat) : Nat :=
  let per := 64 / k
  let g := ceilDiv n 16
  let b := ceilDiv g per
  (b - 1) * 64 + k * (g - (b - 1) * per)

/-- The 64 stored positions of a brick row: each a kept element with its 4-bit index, or none for an unused position. `at'`
delivers the row's element at a dense position (R257; DEDUCED, log entry 23: a poisoned element poisons every kept one of its
group). -/
def sparseRow (k first n : Nat) (at' : Nat → Num) : List (Option Num × Nat) :=
  let per := 64 / k
  let groups := (upTo per).flatMap (fun g =>
    let base := 16 * (first + g)
    if n ≤ base then (upTo k).map (fun _ => (none, 0))
    else
      let vs := (upTo 16).map (fun p => if base + p < n then at' (base + p) else Num.zero)
      let bad := vs.any (·.poison)
      let keep := keptOf k (vs.map (fun v => if v.poison then Val.zero else v.val))
      keep.map (fun p => (some { (vs.getD p Num.zero) with poison := bad }, p)))
  groups ++ (upTo (64 - k * per)).map (fun _ => (none, 0))

/-! ### Stores (R153, R167, R170, R258) -/

/-- What a quantiser instruction stores: the destination, the mode, the history choice, and per brick the 64 rows of 64
positions with the index of each. -/
structure QStore where
  x : Desc
  stash : Bool
  hist : Bool
  sparse : Option Nat
  rows : Nat → List (List (Option Num × Nat))

/-- Rows of a dense store: the elements of brick `w` from a source by plain walk (R125). -/
def Desc.quantRows (x : Desc) (src : Nat → Num) (w : Nat) : List (List (Option Num × Nat)) :=
  (upTo 64).map (fun r => (upTo 64).map (fun p => ((x.elemAt w r p).map src, 0)))

/-- The two courses of each row of one brick (R156, R351, R501). -/
def QStore.courses (s : QStore) (k : Book) (m : Int) (w : Nat) : List (Course × Course) :=
  let bad : Bool := s.x.fmt == 0xA && k.bad.any id
  (s.rows w).map (fun row =>
    let row := if bad then row.map (fun e => (e.1.map (fun v => { v with poison := true }), e.2)) else row
    let half (h : Nat) := quantCourse s.x.fmt s.x.satinf k m (((row.drop (32 * h)).take 32).map (·.1))
    (half 0, half 1))

/-- What the courses of one brick count. -/
def QStore.count (s : QStore) (k : Book) (m : Int) (w : Nat) : QCount :=
  (s.courses k m w).foldl (fun (a : QCount) e => (a.add e.1.count).add e.2.count) QCount.zero

/-- Store the courses of a part of one brick, with its side plane when `fin` is set (R126, R128, R156, R167, R258, R351,
R501). -/
def Dev.quantPart (t : TimeUnit) (q : Req) (s : QStore) (k : Book) (m : Int) (w : Nat) (sel : Nat → Nat → Bool) (fin : Bool)
    (d : Dev) : Dev :=
  let x := s.x
  let book : Bool := x.fmt == 0xA
  let bookBad : Bool := book && k.bad.any id
  let rows := s.courses k m w
  let empty : Course := { scale := 0x7F, bad := false, codes := [], zeros := [], count := QCount.zero }
  let at' (r p : Nat) : Course := let e := rows.getD r (empty, empty); if p < 32 then e.1 else e.2
  let side : Side :=
    { scale := fun j => let c := at' (j / 2) (32 * (j % 2)); (if c.bad || bookBad then 0 else c.scale, c.bad || bookBad)
      book := if book then (upTo 16).map (fun c => (k.codes.getD c 0, k.bad.getD c false)) else []
      sparse := s.sparse }
  let d1 := d.storePart t q x w (x.validAt w)
    (fun r p => let c := at' r p; (if c.bad then 0 else c.codes.getD (p % 32) 0, c.bad))
    (fun r p => let c := at' r p; !c.bad && c.scale != 0xFF && c.zeros.getD (p % 32) true) side s.stash sel fin
  match s.sparse with
  | none => d1
  | some _ =>
    let base := x.brickAddr w + 256 * granulesOf x.fmt
    d1.putBytes t q ((s.rows w).zipIdx.flatMap (fun (row, r) =>
      (upTo 32).map (fun j =>
        (base + 32 * r + j, (row.getD (2 * j) (none, 0)).2 + 16 * (row.getD (2 * j + 1) (none, 0)).2, false))))

/-- The largest |x| over finite good elements (R160, R351). -/
def amaxOf (vs : List Num) : Val :=
  vs.foldl (fun (m : Val) v => if !v.poison && v.val.isFin && m.lt v.val.abs then v.val.abs else m) Val.zero

/-- The QUANT_RANGE record of an instruction (R163). -/
def quantRange (b : Nat) (f : Flight) (x : Desc) (n : QCount) : EvRec :=
  { f.record 0x0A (baySrc 0x05 b) with
    desc := BitVec.ofNat 8 x.slot, addr := BitVec.ofNat 52 x.base, count := w64 (n.sat + n.flush)
    detail := detail [(48, 4, n.high), (52, 4, n.low), (56, 4, n.sat), (60, 4, n.flush)] }

/-- Add an instruction's counts to the bay's counters (R162). -/
def Bay.quantCount (y : Bay) (n : QCount) : Bay :=
  { y with qCnt := vmod (vmod y.qCnt 0 (fun c => (c.addLo n.sat).addHi n.flush)) 1 (fun c => (c.addLo n.nanc).addHi n.infc) }

/-- What a quantiser instruction begins with: its codebook and the per-tensor exponent (R154, R170). -/
def Dev.quantBegin (t : TimeUnit) (b : Nat) (f : Flight) (fmt : Nat) (hist : Bool) (d : Dev) : (Book × Int) × Dev :=
  let q := f.req 0x05 b
  let c := f.cfg
  let (h, d1) :=
    if hist then
      let n := c.qlen.toNat
      let (r, d1) := d.fetch t q c.qhist.toNat (4 * n)
      ((upTo n).map (fun j =>
        (f32 (ofBytes (natBytes ((r.1.drop (4 * j)).take 4))), ((r.2.drop (4 * j)).take 4).any id)), d1)
    else (([] : List (Val × Bool)), d)
  let (k, d2) := if fmt = 0xA then d1.flightBook t b f else (({ codes := [], bad := [] } : Book), d1)
  ((k, tensorExponent fmt k h), d2)

/-- What a quantiser instruction ends with: the counters, the QUANT_RANGE record, and the amax update that it now owes (R160, R162,
R163). -/
def Dev.quantEnd (t : TimeUnit) (b : Nat) (f : Flight) (x : Desc) (m : Int) (n : QCount) (amax : Val) (d : Dev) : Dev :=
  let d1 := d.modBay b (fun y => y.quantCount n)
  let d2 := if 0 < n.high + n.low then d1.emit t f.part (quantRange b f x n) else d1
  d2.modBay b (fun y => y.modFlight f.id (fun f =>
    { f with amax := [floatCode 0 amax, floatCode 0 (.fin false 1 (-m)), n.sat, n.flush, n.nanc, n.infc, 0] }))

/-- The counts of all courses of an instruction. -/
def QStore.total (s : QStore) (k : Book) (m : Int) : QCount :=
  (upTo s.x.bricks).foldl (fun (a : QCount) w => a.add (s.count k m w)) QCount.zero

/-- A quantiser instruction: the history read, the courses, the counters, the QUANT_RANGE record, and the amax update that
it now owes (R153, R154, R155, R160, R162, R163). -/
def Dev.quantise (t : TimeUnit) (b : Nat) (f : Flight) (s : QStore) (amax : Val) (d : Dev) : Dev :=
  let ((k, m), d1) := d.quantBegin t b f s.x.fmt s.hist
  ((upTo s.x.bricks).foldl (fun (d : Dev) w => d.quantPart t (f.req 0x06 b) s k m w (fun _ _ => true) true) d1).quantEnd t b f s.x m
    (s.total k m) amax

/-! ### The amax record (R160, R161) -/

/-- One request that updates the 32-byte record: FP32 maximum, DECODE, INT32 adds, STEP (R160, R317). -/
def Dev.amaxUpdate (t : TimeUnit) (q : Req) (a : Nat) (xs : List Nat) (step : W64) (d : Dev) : Dev :=
  let r := d.regionAt a
  if d.mustWait a 32 then d.stalls a 32
  else match r with
  | .hbm s _ =>
    let d0 := d.chargeHbm t q s a 32 (fun _ => 64)
    if d0.isFailed r ∨ d0.isRetired r then d0
    else
      let d1 := (d0.mergeReads t q s (fun _ => if xs.getD 6 0 = 1 then 24 else 20) [a]).modStack s (fun k => k.touch a)
      d1.modMem (fun m =>
        let m1 := m.combine 5 a (byteList (toBytes 4 (xs.getD 0 0))) [] []
        let m2 := if xs.getD 6 0 = 1 then m1
          else (m1.putAll (a + 4) (byteList (toBytes 4 (xs.getD 1 0))) [] []).combine 3 (a + 8)
            (byteList ((upTo 4).flatMap (fun j => toBytes 4 (xs.getD (2 + j) 0)))) [] []
        m2.putAll (a + 24) (byteList (toBytes 8 step.toNat)) [] [])
  | _ => d

/-- AMAX_RECORD_UPDATE: the oldest quantiser instruction of bay `b` that owes its update sends it, unless its memory serves no
request now (R160, R321). -/
def amaxRecordUpdate (b : Nat) (t : TimeUnit) (d : Dev) : Dev :=
  match (d.bay b).flights.find? (fun f => f.amax != []) with
  | none => d
  | some f =>
    match d.attempt t f.await (fun w => Dev.amaxUpdate t { f.req 0x05 b with await := w } f.cfg.qamax.toNat f.amax f.step) with
    | (none, d1) => d1.modBay b (fun y => y.modFlight f.id (fun f => { f with amax := [], done := true }))
    | (some (w, _), d1) => d1.modBay b (fun y => y.modFlight f.id (fun f => { f with await := w }))

/-- R161: OPERAND, then SCOPE, then FORMAT. -/
def quantChecks (d : Dev) (part : Option Nat) (c : Cfg) (hist : Bool) (fmt : Nat) : Option FaultInfo :=
  let a := c.qamax.toNat
  let h := c.qhist.toNat
  let n := 4 * c.qlen.toNat
  let no (cause : Nat) : Option FaultInfo := some (unitRefuse 0x05 cause 0xFF 0)
  let hbm : Bool := match regionOf a with | .hbm _ _ => true | _ => false
  let inside (wr : Bool) (a n : Nat) : Bool := match part with | some q => (d.part q).inside wr a n | none => false
  if a % 32 ≠ 0 ∨ !hbm ∨ (hist ∧ (h % 4 ≠ 0 ∨ (h < a + 32 ∧ a < h + n))) then no causeOperand
  else if !inside true a 32 ∨ (hist ∧ !inside false h n) then no causeScope
  else if fmt = 0xA ∧ c.codebook = 0 then no causeFormat
  else if fmt = 0xA ∧ !inside false c.codebook.toNat 32 then no causeScope
  else none

/-! ### QUANT (R105, R106, R153, R255, R256) -/

/-- Whether a QUANT of mode 0 stores sparse bricks (R255). -/
def Issue.sparse (i : Issue) : Bool := fld i.w 18 2 == 0 && fld i.x.live.mode.toNat 0 2 == 2

/-- QUANT's own checks of order 2: a brick-mode DST, paired extents. -/
def quantTwo (i : Issue) (s o : Opd) : Option FaultInfo :=
  let k := modeK i.x.live.mode.toNat
  match o with
  | .tile _ => some (unitRefuse 0x06 causeOperand 0 0)
  | .desc y =>
    let no : Option FaultInfo := some (unitRefuse 0x06 causeOperand 0 y.slot)
    if !y.brick then no
    else if i.sparse then
      let same : Bool := match s with
        | .tile _ => y.e 0 == 64 && y.e 1 == sparseExt k 64 && y.e 2 == 1 && y.e 3 == 1 && y.e 4 == 1
        | .desc x => [0, 2, 3, 4].all (fun j => x.e j == y.e j) && y.e 1 == sparseExt k (x.e 1)
      if same then none else no
    else
      match s with
      | .tile _ => if y.fitsTile then none else no
      | .desc x => if x.count = y.count then none else no

/-- QUANT's own checks of order 3 (R153, R255). -/
def quantThree (i : Issue) (s o : Opd) : Option FaultInfo :=
  let mode := fld i.w 18 2
  let dst : Option FaultInfo := match o with
    | .tile _ => none
    | .desc y =>
      let no : Option FaultInfo := some (unitRefuse 0x06 causeFormat 0 y.slot)
      if mode = 2 then none
      else if !isScaled y.fmt then no
      else if mode = 1 ∧ fld i.x.live.mode.toNat 0 2 = 2 then no
      else if i.sparse ∧ (!y.inner ∨ y.fmt = 0xA) then no
      else none
  let src : Option FaultInfo := match s with
    | .tile _ => none
    | .desc x => if x.fmt ≤ 2 ∨ (x.brick ∧ isScaled x.fmt) then none else some (unitRefuse 0x06 causeFormat 9 x.slot)
  firstFault [dst, src]

/-- Every refusal of a QUANT. -/
def quantFault (i : Issue) (d : Dev) : Option FaultInfo :=
  let mode := fld i.w 18 2
  let hist := bit i.w 20
  let s := i.opd 9
  let o := i.opd 0
  let use := if i.sparse then { storeUse with extra := 8 } else storeUse
  if mode = 3 then some (unitRefuse 0x05 causeReserved 18 0)
  else if mode = 2 then
    if fld i.w 0 9 ≠ 0 then some (unitRefuse 0x05 causeFormat 0 0)
    else firstFault [i.tilesFault [9], walkerFault d i.part (s.walked 9 loadUse) none (quantThree i s (.tile 0)) false,
      quantChecks d i.part i.x.live hist 0]
  else
    firstFault [i.tilesFault [0, 9],
      walkerFault d i.part (o.walked 0 use ++ s.walked 9 loadUse) (quantTwo i s o) (quantThree i s o) false,
      quantChecks d i.part i.x.live hist (match o with | .desc y => y.fmt | .tile _ => 0)]

/-- The source elements of a QUANT or TURN: a load with the device after it (R153). -/
def Dev.quantSource (t : TimeUnit) (b : Nat) (f : Flight) (s : Opd) (d : Dev) : (Nat → Num) × Dev :=
  match s with
  | .tile n => let y := d.bay b; (fun k => y.cellNum false n (k / 64) (k % 64), d)
  | .desc x => let (l, d1) := d.load t b f 0x06 x (sparseTag f.cfg); (l.num, d1)

/-- What QUANT does when it executes (R153, R160, R167, R257). -/
def quantEffect (t : TimeUnit) (i : Issue) (f : Flight) (d : Dev) : Dev :=
  let mode := fld i.w 18 2
  let s := f.opd 9
  let (src, d1) := d.quantSource t i.b f s
  match f.opd 0, decide (mode = 2) with
  | .desc y, false =>
    let count := match s with | .tile _ => 4096 | .desc x => x.count
    let k := modeK f.cfg.mode.toNat
    let pick (n : Nat) : Num := match s with
      | .tile _ => let c := y.coord n; src (64 * c.getD 1 0 + c.getD 0 0)
      | .desc _ => src n
    if i.sparse then
      let dense := match s with | .tile _ => 64 | .desc x => x.e 1
      let rows (w : Nat) : List (List (Option Num × Nat)) :=
        let bi := y.brickIdx w
        (upTo 64).map (fun r =>
          let i0 := 64 * bi.getD 0 0 + r
          if y.e 0 ≤ i0 then (upTo 64).map (fun _ => (none, 0))
          else sparseRow k (64 / k * bi.getD 1 0) dense (fun p => match s with
            | .tile _ => src (64 * p + i0)
            | .desc x => src (x.place i0 p (bi.getD 2 0) (bi.getD 3 0) (bi.getD 4 0))))
      let all := match s with
        | .tile _ => (upTo 64).flatMap (fun p => (upTo (y.e 0)).map (fun i0 => src (64 * p + i0)))
        | .desc _ => (upTo count).map src
      d1.quantise t i.b f { x := y, stash := false, hist := bit i.w 20, sparse := some (fld f.cfg.mode.toNat 2 2), rows := rows }
        (amaxOf all)
    else
      d1.quantise t i.b f { x := y, stash := mode = 1, hist := bit i.w 20, sparse := none, rows := y.quantRows pick }
        (amaxOf ((upTo y.count).map pick))
  | _, _ =>
    let n := match s with | .tile _ => 4096 | .desc x => x.count
    d1.modBay i.b (fun y => y.modFlight f.id (fun f =>
      { f with amax := [floatCode 0 (amaxOf ((upTo n).map src)), 0, 0, 0, 0, 0, 1] }))

/-- An instruction whose operand at a field is a CB4 brick that the quantiser writes captures its codebook at issue (R83, R170). -/
def bookStart (lo : Nat) (t : TimeUnit) (b : Nat) (f : Flight) (d : Dev) : Dev :=
  match f.opd lo with
  | .desc y => if y.brick ∧ y.fmt = 0xA then d.captureBook t b f else d
  | .tile _ => d

def quantBody (t : TimeUnit) (i : Issue) (d : Dev) : Dev :=
  if fld i.w 18 2 = 2 then d.unitIssue t i [9] (quantFault i d) (quantEffect t i)
  else d.unitStart t i [0, 9] (quantFault i d) (bookStart 0 t i.b) (quantEffect t i)

end Sys2Proof.Machine
end

