-- ==== Sys2Proof/Machine/Layout.lean ====
section
/-! DEFINITION. The turntable and the seal unit: TURN and SEAL (R105, R106, R142 to R144, R355 to R358, R500). -/

namespace Sys2Proof.Machine

/-! ### TURN (R142 to R144) -/

/-- The extents of an operand; a tile register stands for 64 × 64 (R142). -/
def Opd.ext (o : Opd) (k : Nat) : Nat := match o with | .tile _ => [64, 64, 1, 1, 1].getD k 1 | .desc x => x.e k

/-- TURN's own checks of order 2: transposed extents, a brick-mode DST with RQ. -/
def turnTwo (rq : Bool) (s o : Opd) : Option FaultInfo :=
  let fits := o.ext 0 == s.ext 1 && o.ext 1 == s.ext 0 && [2, 3, 4].all (fun k => o.ext k == s.ext k)
  if !fits ∨ (rq ∧ o.isTile) then some (unitRefuse 0x06 causeOperand 0 o.slot) else none

/-- TURN's own checks of order 3 (R106, R142, R144). -/
def turnThree (rq : Bool) (s o : Opd) : Option FaultInfo :=
  let src : Option FaultInfo := match s with
    | .tile _ => none
    | .desc x =>
      if (!x.brick ∧ elemBits x.fmt < 8) ∨ (x.brick ∧ isScaled x.fmt ∧ !rq) then some (unitRefuse 0x06 causeFormat 9 x.slot)
      else none
  let dst : Option FaultInfo :=
    let no : Option FaultInfo := some (unitRefuse 0x06 causeFormat 0 o.slot)
    if rq then (match o with | .desc y => if y.brick ∧ isScaled y.fmt then none else no | .tile _ => no)
    else
      match s, o with
      | .tile _, .tile _ => none
      | .tile _, .desc y => if elemBits y.fmt = 32 then none else no
      | .desc x, .tile _ => if elemBits x.fmt = 32 then none else no
      | .desc x, .desc y => if x.fmt = y.fmt ∧ !(y.brick && isScaled y.fmt) then none else no
  firstFault [src, dst]

/-- Every refusal of a TURN. -/
def turnFault (i : Issue) (d : Dev) : Option FaultInfo :=
  let rq := bit i.w 18
  let s := i.opd 9
  let o := i.opd 0
  firstFault [i.tilesFault [0, 9],
    walkerFault d i.part (o.walked 0 storeUse ++ s.walked 9 loadUse) (turnTwo rq s o) (turnThree rq s o) false,
    if rq then (match o with | .desc y => quantChecks d i.part i.x.live y.hist y.fmt | .tile _ => none) else none]

/-- The element of SRC that goes to a place of DST: its place in the plain walk of SRC (R142). -/
def turnFrom (s o : Opd) (n : Nat) : Nat :=
  match s, o with
  | .desc x, .desc y =>
    let c := y.coord n
    x.place (c.getD 1 0) (c.getD 0 0) (c.getD 2 0) (c.getD 3 0) (c.getD 4 0)
  | _, _ =>
    let e := o.ext 0
    n / e + s.ext 0 * (n % e)

/-- The last tile that passed through stays in the turntable's cells. -/
def Bay.turned (y : Bay) (e0 e1 : Nat) (code : Nat → Nat × Bool) : Bay :=
  let r0 := (e1 - 1) / 64 * 64
  let c0 := (e0 - 1) / 64 * 64
  let at' (k : Nat) : Nat × Bool :=
    let r := r0 + k / 64
    let c := c0 + k % 64
    if r < e1 ∧ c < e0 then code (c + e0 * r) else (0, false)
  { y with
    turntable := (upTo 4096).filterMap (fun k => let v := (at' k).1; if v = 0 then none else some (k, w32 v))
    turnPoison := (upTo 4096).filter (fun k => (at' k).2) }

/-- What TURN does when it executes (R142, R144). -/
def turnEffect (t : TimeUnit) (i : Issue) (f : Flight) (d : Dev) : Dev :=
  let rq := bit i.w 18
  let s := f.opd 9
  let o := f.opd 0
  let q := f.req 0x06 i.b
  if rq then
    let (src, d1) := d.quantSource t i.b f s
    match o with
    | .tile _ => d1
    | .desc y =>
      let pick (n : Nat) : Num := let v := src (turnFrom s o n); { v with val := rnd v.val }
      (d1.modBay i.b (fun z => z.turned (s.ext 0) (s.ext 1) (fun n => let v := src n; (floatCode 0 v.val, v.poison)))).quantise
        t i.b f { x := y, stash := false, hist := y.hist, sparse := none, rows := y.quantRows pick }
        (amaxOf ((upTo y.count).map pick))
  else
    let (code, d1) : (Nat → Nat × Bool) × Dev := match s with
      | .tile n => let y := d.bay i.b; (fun k => ((y.cell n (k / 64) (k % 64)).toNat, y.cellPoison n (k / 64) (k % 64)), d)
      | .desc x => let (l, d1) := d.load t i.b f 0x06 x (sparseTag f.cfg); (fun k => let c := l.code k; (c.1, c.2 || l.fail), d1)
    let d2 := d1.modBay i.b (fun z => z.turned (s.ext 0) (s.ext 1) code)
    let out (n : Nat) : Nat × Bool := code (turnFrom s o n)
    (match o with
    | .tile m => d2.modBay i.b (fun z => z.setCells m ((upTo 4096).map (fun k => (k / 64, k % 64, (out k).1, (out k).2))))
    | .desc y => d2.storeCodes t q y out).finish i.b f.id

def turnBody (t : TimeUnit) (i : Issue) (d : Dev) : Dev :=
  d.unitStart t i [0, 9] (turnFault i d) (if bit i.w 18 then bookStart 0 t i.b else fun _ d => d) (turnEffect t i)

/-! ### SEAL (R105, R106, R355 to R358, R500) -/

/-- Every refusal of a SEAL. -/
def sealFault (i : Issue) (d : Dev) : Option FaultInfo :=
  match i.opd 0 with
  | .tile _ => some (unitRefuse 0x09 causeOperand 0 0)
  | .desc x =>
    let verify := bit i.w 9
    let two := if x.brick then none else some (unitRefuse 0x09 causeOperand 0 x.slot)
    let (lo, hi) := x.range 0
    let inside (wr : Bool) (a n : Nat) : Bool := match i.part with | some q => (d.part q).inside wr a n | none => false
    let scope :=
      if ((!verify ∨ bit i.w 10) ∧ !inside true lo.toNat (hi - lo).toNat) ∨
          (x.sealAddr ≠ 0 ∧ !inside (!verify) x.sealAddr (4 * x.bricks)) then
        some (unitRefuse 0x09 causeScope 0 x.slot)
      else none
    firstFault [walkerFault d i.part [{ field := 0, x := x, use := loadUse }] two none false, scope]

/-- SEAL with OP = 0: compute and write the seal of every brick (R355, R500). -/
def sealComputeEffect (t : TimeUnit) (i : Issue) (f : Flight) (d : Dev) : Dev :=
  match f.opd 0 with
  | .tile _ => d
  | .desc x =>
    let q := f.req 0x09 i.b
    ((upTo x.bricks).foldl (fun (d : Dev) w =>
      let d1 := d.touchBrick t q x w
      let bs := byteList (toBytes 4 (d1.sealOf x w))
      let d2 := d1.store t q (x.brickAddr w + planeBytes x.fmt + 128) bs [] []
      if x.sealAddr = 0 then d2 else d2.store t q (x.sealAddr + 4 * w) bs [] []) d).finish i.b f.id

/-- Poison over every valid code-plane byte of brick `w` (R358). -/
def Dev.poisonBrick (t : TimeUnit) (q : Req) (x : Desc) (w : Nat) (d : Dev) : Dev :=
  d.putBytes t q ((upTo 64).flatMap (fun r =>
    ((upTo (rowBytes x.fmt)).filter (x.byteValid w r)).map (fun j => (x.brickAddr w + rowBytes x.fmt * r + j, 0, true))))

/-- SEAL with OP = 1: check the bricks in walk order; `false` once a mismatch has faulted (R356, R358). `seen` holds what the reads
so far gave, by brick address: a recurrence that R141 delivers is not read again. -/
def sealVerifyFrom (t : TimeUnit) (i : Issue) (f : Flight) (x : Desc) (seen : List (Nat × Nat × Nat × Nat)) :
    List Nat → Dev → Bool × Dev
  | [], d => (true, d)
  | w :: rest, d =>
    let q := f.req 0x09 i.b
    let a := x.brickAddr w
    let held := if d.brickHeld x w then (seen.find? (fun e => e.1 = a)).map (·.2) else none
    let d1 := if held.isSome then d else d.touchBrick t q x w
    let d2 := if x.sealAddr = 0 then d1 else (d1.read t q (x.sealAddr + 4 * w) 4).2
    let got := held.getD (d2.sealRead x w)
    let seen := (a, got) :: seen.filter (fun e => e.1 != a)
    match d2.sealJudge x w (sparseTag f.cfg) got with
    | none => sealVerifyFrom t i f x seen rest d2
    | some (which, comp, stored) =>
      if bit i.w 10 then
        sealVerifyFrom t i f x seen rest
          ((d2.emit t f.part (sealRecord i.b f x w which comp stored)).poisonBrick t q x w)
      else
        (false, (d2.modBay i.b (fun y => y.leave f.id)).runFault t i.b i.s f.word f.iptr f.occ
          { cls := 0x05, cause := 0, field := 0xFF, unit := 0x09, datum := w, desc := x.slot, addr := x.brickAddr w })

def sealVerifyEffect (t : TimeUnit) (i : Issue) (f : Flight) (d : Dev) : Dev :=
  match f.opd 0 with
  | .tile _ => d
  | .desc x =>
    let (ok, d1) := sealVerifyFrom t i f x [] (upTo x.bricks) d
    if ok then d1.finish i.b f.id else d1

def sealComputeBody (t : TimeUnit) (i : Issue) (d : Dev) : Dev :=
  d.unitIssue t i [0] (sealFault i d) (sealComputeEffect t i)

def sealVerifyBody (t : TimeUnit) (i : Issue) (d : Dev) : Dev :=
  d.unitIssue t i [0] (sealFault i d) (sealVerifyEffect t i)

end Sys2Proof.Machine
end

