-- ==== Sys2Proof/Machine/Matrix.lean ====
section
/-! DEFINITION. The matrix array: MLOAD, the stationary change, MMUL, the drain and its write-out (R101, R102, R172 to R201,
R259 to R261). -/

namespace Sys2Proof.Machine

/-! ### Modes and format pairs (R92, R175) -/

def mxMode (m : Nat) : Nat := fld m 0 2
def mxStat (m : Nat) : Nat := fld m 4 4
def mxMov (m : Nat) : Nat := fld m 8 4

/-- ρ of a format pair as rows and steps of one beat; none for a pair that R175 does not list. -/
def mxRate (mode s a : Nat) : Option (Nat × Nat) :=
  let f8 (f : Nat) : Bool := decide (3 ≤ f) && decide (f ≤ 7)
  let i8 (f : Nat) : Bool := f == 8 || f == 9
  if mode = 1 then (if s ≤ 4 ∧ a = 0xA then some (8, 1) else none)
  else if s = a ∧ (s = 1 ∨ s = 2) then (if mode = 0 then some (1, 2) else none)
  else if f8 s && f8 a then (if s = 7 ∧ a = 7 then some (2, 1) else some (1, 1))
  else if i8 s && i8 a then (if s = 9 ∧ a = 9 then some (2, 1) else some (1, 1))
  else none

/-- A refusal by the sequencer after the walker's checks (R199). -/
def mxRefuse (cause field desc : Nat) : Option FaultInfo :=
  some { cls := 0x10, cause := cause, field := field, unit := 0x01, datum := 0, desc := desc }

/-! ### MLOAD (R134, R171, R173, R182, R193, R195, R199) -/

/-- Every refusal of an MLOAD. -/
def mloadFault (i : Issue) (d : Dev) : Option FaultInfo :=
  let m := i.x.live.mode.toNat
  let mode := mxMode m
  let pt := bit i.w 9
  let s := i.opd 0
  let book := i.x.live.codebook.toNat
  let bookIn : Bool := match i.part with | some q => (d.part q).inside false book 32 | none => false
  let pair := match s with
    | .tile n => if n % 2 = 1 then some (unitRefuse 0x06 causeOperand 0 0) else none
    | .desc _ => none
  let r1 := if pt ≠ decide (mode = 1) then mxRefuse causeFormat 9 0 else none
  let r2 :=
    let bad : Bool := match s with
      | .tile _ => !((mode == 0 && (mxStat m == 1 || mxStat m == 2)) || (mode == 1 && mxStat m == 0))
      | .desc x => x.fmt != mxStat m || (mode == 2 && !x.brick) || (x.brick && !x.inner)
    if bad ∨ (mxRate mode (mxStat m) (mxMov m)).isNone ∨ (pt ∧ book = 0) then mxRefuse causeFormat 0 s.slot else none
  let r3 := match s with
    | .desc x => if x.ndim ≠ 2 ∨ 128 < x.e 0 ∨ 64 < x.e 1 then mxRefuse causeOperand 0 x.slot else none
    | .tile _ => none
  let r4 := if pt ∧ !bookIn then mxRefuse causeScope 0xFF 0 else none
  let use := match s with | .desc x => if mode = 2 ∧ x.brick then { loadUse with extra := 8 } else loadUse | .tile _ => loadUse
  firstFault [i.tilesFault [0], walkerFault d i.part (s.walked 0 use) pair none false, r1, r2, r3, r4]

/-- The first byte of the index plane of brick `w`, by IDXOFF of its tag, and whether IDXOFF is poisoned: it lies in bytes 133 to
135 of the side plane (R127, R132, R504). -/
def Dev.indexPlane (d : Dev) (x : Desc) (w : Nat) : Nat × Bool :=
  let a := x.brickAddr w
  let (tag, p) := d.bitsAt (8 * (a + planeBytes x.fmt + 133)) 24
  (((a : Int) + 256 * sx 20 (fld tag 4 20)).toNat, p)

/-- The index of stored position `j` of column `n` of a sparse stationary (R132, R504). -/
def Dev.indexAt (d : Dev) (x : Desc) (n j : Nat) : Nat × Bool :=
  let (base, p) := d.indexPlane x (n / 64)
  let (v, p') := d.bitsAt (8 * (base + 32 * (n % 64)) + 4 * j) 4
  (v, p || p')

/-- What MLOAD stages (R134, R171, R182). -/
def Dev.stationary (t : TimeUnit) (i : Issue) (f : Flight) (d : Dev) : Stationary × Dev :=
  let m := f.cfg.mode
  let mode := mxMode m.toNat
  let st := mxStat m.toNat
  let (book, d1) :=
    if bit i.w 9 then
      let (k, d1) := d.flightBook t i.b f
      ((upTo 16).map (fun c => ({ val := k.val c, poison := k.bad.getD c false } : Num)), d1)
    else (([] : List Num), d)
  match f.opd 0 with
  | .tile n =>
    let y := d1.bay i.b
    ({ mode := m, book := book, index := [], poisoned := false
       weights := (upTo 8192).map (fun k =>
         let v := y.cellNum false (n + k % 128 / 64) (k / 128) (k % 64)
         (k, { v with val := roundTo st v.val })) }, d1)
  | .desc x =>
    let (l, d2) := d1.load t i.b f 0x02 x (sparseTag f.cfg)
    let cells := (upTo (x.e 1)).flatMap (fun k => (upTo (x.e 0)).map (fun n => (k, n)))
    let d3 := if mode = 2 then (d2.brickReads x).foldl (fun (d : Dev) w =>
        d.touch t (f.req 0x02 i.b) ((upTo (32 * Nat.min 64 (x.e 0 - 64 * w))).map ((d.indexPlane x w).1 + ·))) d2
      else d2
    ({ mode := m, book := book, poisoned := l.fail
       weights := cells.map (fun c => (128 * c.1 + c.2, l.val (c.2 + x.e 0 * c.1)))
       index := if mode = 2 then cells.map (fun c => (128 * c.1 + c.2, d3.indexAt x c.2 c.1)) else [] }, d3)

/-- What MLOAD does as it issues: its mode is the one that later MMULs are held to, and with PT it captures the codebook (R171,
R199). -/
def mloadStart (t : TimeUnit) (i : Issue) (f : Flight) (d : Dev) : Dev :=
  let d1 := d.modBay i.b (fun y => { y with loadMode := f.cfg.mode })
  if bit i.w 9 then d1.captureBook t i.b f else d1

/-- Staging is complete; the array takes the tile at STATIONARY_SWAP. -/
def mloadEffect (t : TimeUnit) (i : Issue) (f : Flight) (d : Dev) : Dev :=
  let (st, d1) := d.stationary t i f
  d1.modBay i.b (fun y => { y with staged := y.staged ++ [(f.id, st)] })

/-- MLOAD: stage SRC; the swap is STATIONARY_SWAP (R182). -/
def mloadBody (t : TimeUnit) (i : Issue) (d : Dev) : Dev := d.unitStart t i [0] (mloadFault i d) (mloadStart t i) (mloadEffect t i)

/-- Draw cycles from the array or vector meter of an occurrence (R56, R200, R227). -/
def Dev.chargeCycles (code index n : Nat) (occ : Option OccKey) (d : Dev) : Dev :=
  match occ with
  | some k => d.draw k code index n
  | none => d

/-- STATIONARY_SWAP: the oldest staged tile shifts into the cells, and the next MLOAD leaves the queue; `stall` is the unhidden
staging (R182, R183, R200, R201). -/
def stationarySwap (b stall : Nat) (d : Dev) : Dev :=
  match (d.bay b).staged with
  | [] => d
  | (id, st) :: rest =>
    let occ := ((d.bay b).flights.find? (fun f => f.id = id)).bind (·.occ)
    (((d.chargeCycles 1 b (64 + stall) occ).modBay b (fun y =>
      { y with array := st, staged := rest, mxCnt := vmod y.mxCnt 0 (fun c => c.addHi (64 + stall)) })).finish b id).modBay b
      (·.beginNext)

/-! ### MMUL's shape and checks (R173, R185, R197, R199) -/

/-- Moving rows, K, slot rows of an MMUL (R173, R185). -/
structure MShape where
  m : Nat
  k : Nat
  rows : Nat
deriving DecidableEq, Repr

def mmulShape (mode : Nat) (a : Opd) : MShape :=
  let (m, k) := match a with
    | .tile _ => (64, 64)
    | .desc x => (x.e (x.ndim - 1), (upTo (x.ndim - 1)).foldl (fun n j => n * x.e j) 1)
  { m := m, k := k, rows := if mode = 1 then ceilDiv m 8 else m }

/-- Whether an allocation of `rows` slot rows from the pointer reaches a slot of any open block (R199). -/
def Bay.reachesOpen (y : Bay) (rows : Nat) : Bool :=
  let mine := (upTo rows).map (fun r => (y.drainPtr + r) % 1024)
  y.openBlocks.toList.any (fun k => match k with | some k => k.slots.any mine.contains | none => false)

/-- The stationary that MMULs issued now use: the last staged tile, or the array's (R183). -/
def Bay.stationaryNow (y : Bay) : Stationary := ((y.staged.getLast?).map (·.2)).getD y.array

/-- Every refusal of an MMUL. -/
def mmulFault (i : Issue) (d : Dev) : Option FaultInfo :=
  let w := i.w
  let c := i.x.live
  let m := c.mode.toNat
  let mode := mxMode m
  let y := d.bay i.b
  let a := i.opd 0
  let o := i.opd 9
  let init := fld w 18 2
  let last := bit w 24
  let ncol := fld w 25 7
  let sh := mmulShape mode a
  let openb := vget none y.openBlocks i.s
  let ops := a.walked 0 { loadUse with emptyK := true, window := true } ++ (if last then o.walked 9 storeUse else [])
  let pair :=
    if (match o with | .tile n => last && n % 2 == 1 | .desc _ => false) then some (unitRefuse 0x06 causeOperand 9 0)
    else if init = 1 ∧ fld w 20 4 % 2 = 1 then some (unitRefuse 0x06 causeOperand 20 0)
    else if sh.m = 0 then some (unitRefuse 0x06 causeOperand 0 a.slot)
    else none
  let rate := mxRate mode (mxStat m) (mxMov m)
  let r1 := if mode ≠ mxMode y.loadMode.toNat ∨ mxStat m ≠ mxStat y.loadMode.toNat then mxRefuse causeFormat 0xFF 0 else none
  let r2 :=
    if bit w 32 ≠ decide (mode = 2) then mxRefuse causeFormat 32 0
    else
      let bad : Bool := match a with
        | .tile _ => !(mode == 0 && (mxMov m == 1 || mxMov m == 2))
        | .desc x => x.fmt != mxMov m || (x.brick && x.inner)
      if bad ∨ rate.isNone then mxRefuse causeFormat 0 a.slot else none
  let r3 :=
    let most := if mode = 2 then 16 * (64 / modeK m) else 64
    let nd : Bool := match a with | .desc x => x.brick && x.ndim != 2 | .tile _ => false
    if most < sh.k ∨ (if mode = 1 then 4096 else 512) < sh.m ∨ nd then mxRefuse causeOperand 0 a.slot
    else if mode = 1 ∧ 15 < ncol then mxRefuse causeOperand 25 0
    else none
  let r4 :=
    if init = 3 then mxRefuse causeReserved 18 0
    else if fld w 20 4 ≠ 0 ∧ init ≠ 1 then mxRefuse causeReserved 20 0
    else if fld w 9 9 ≠ 0 ∧ !last then mxRefuse causeReserved 9 0
    else none
  let r5 := if 64 < sh.rows ∧ (init = 1 ∨ (last ∧ o.isTile)) then mxRefuse causeOperand (if init = 1 then 18 else 9) 0 else none
  let r6 :=
    let bad : Bool :=
      if init = 2 then (match openb with
        | none => true
        | some k => k.m != sh.m || k.ncol != ncol || mxMode k.mode.toNat != mode)
      else openb.isSome || y.reachesOpen sh.rows
    if bad then mxRefuse causeOperand 18 0 else none
  let r7 := match o with
    | .desc x =>
      if last ∧ (x.ndim ≠ 2 ∨ x.e 0 ≠ ncol + 1 ∨ x.e 1 ≠ sh.m ∨ !x.rq) then mxRefuse causeOperand 9 x.slot
      else if last then quantChecks d i.part c x.hist x.fmt else none
    | .tile _ => none
  firstFault [i.tilesFault [0, 9], walkerFault d i.part ops pair none false, r1, r2, r3, r4, r5, r6, r7]

/-! ### The block sum (R174, R189 to R191, R194, R195, R260) -/

/-- The moving operand of an MMUL: element (m, k) as a value, its code, whether its course is removed, and whether its row
takes no beat. -/
structure Moving where
  val : Nat → Nat → Num
  code : Nat → Nat → Nat × Bool
  scale : Nat → Nat → Nat × Bool
  unread : Nat → Nat → Bool
  cut : Nat → Nat → Bool
  skip : Nat → Bool
  fail : Bool

/-- Load the moving operand. A course is removed by its scale, so a padded position of a removed course is removed with it (R135,
R173, R197, R259, R260). -/
def Dev.moving (t : TimeUnit) (i : Issue) (f : Flight) (sh : MShape) (d : Dev) : Moving × Dev :=
  let mov := mxMov f.cfg.mode.toNat
  match f.opd 0 with
  | .tile n =>
    let y := d.bay i.b
    ({ val := fun m k => let v := y.cellNum false n m k; { v with val := roundTo mov v.val }
       code := fun _ _ => (0, false), scale := fun _ _ => (0x7F, false), unread := fun _ _ => false
       cut := fun _ _ => false, skip := fun _ => false, fail := false }, d)
  | .desc x =>
    let sparse := if mxMode f.cfg.mode.toNat = 2 then none else sparseTag f.cfg
    let (l, d1) := d.load t i.b f 0x02 x sparse
    let at' (m k : Nat) : Nat := k + sh.k * m
    let th := f.cfg.cskip.toNat
    let cut (m k : Nat) : Bool :=
      let s := l.scale (at' m (k / 32 * 32))
      bit i.w 34 && x.brick && th != 0 && decide (k / 32 * 32 < sh.k) && !s.2 && decide (s.1 < th) && s.1 != 0xFF
    let ks := upTo sh.k
    ({ val := fun m k => if k < sh.k then l.val (at' m k) else Num.zero
       code := fun m k => l.code (at' m k), scale := fun m k => l.scale (at' m k)
       unread := fun m k => l.unread (at' m k), cut := cut
       skip := fun m => x.brick && decide (0 < sh.k) &&
         ((bit i.w 33 && ks.all (fun k => l.unread (at' m k))) || ks.all (cut m))
       fail := l.fail }, d1)

/-- acc plus the exact sum of some terms, rounded once; with no terms, acc bit for bit (R189, R190). -/
def blockAdd (acc : Nat) (terms : List Val) : Nat :=
  if terms = [] then acc else floatCode 0 (terms.foldl Val.add (f32 acc))

/-- The terms of result (m, n), with the poison of their operands (R174, R194, R195). -/
def mmulTerms (st : Stationary) (mode kk : Nat) (sh : MShape) (mv : Moving) (m n : Nat) : List Num :=
  let w (k n : Nat) : Num := tabGet Num.zero st.weights (128 * k + n)
  if mv.skip m then []
  else if mode = 1 then
    let col := 16 * (m % 8) + n
    ((upTo sh.k).filter (fun k => !mv.cut m k)).map (fun k =>
      let a := w k col
      if mv.unread m k then { val := a.val.mul Val.zero, poison := a.poison }
      else
        let (c, cp) := mv.code m k
        let (s, sp) := mv.scale m k
        let e := st.book.getD c Num.zero
        { val := (a.val.mul e.val).scaled s, poison := a.poison || e.poison || cp || sp })
  else if mode = 2 then
    ((upTo (kk * (64 / kk))).filterMap (fun j =>
      let g := j / kk
      let (ix, ip) := tabGet (0, false) st.index (128 * j + n)
      let k := 16 * g + ix
      if ceilDiv sh.k 16 ≤ g ∨ mv.cut m k then none
      else
        let a := mv.val m k
        let b := w j n
        some { val := a.val.mul b.val, poison := a.poison || b.poison || ip }))
  else
    ((upTo sh.k).filter (fun k => !mv.cut m k)).map (fun k =>
      let a := mv.val m k
      let b := w k n
      { val := a.val.mul b.val, poison := a.poison || b.poison })

/-! ### The drain (R185 to R188) -/

def Bay.drainCell (y : Bay) (slot col : Nat) : Nat × Bool :=
  ((tabGet 0 y.drain (128 * slot + col)).toNat, y.drainPoison.contains (128 * slot + col))

/-- The slot row and column that hold result (m, n) of a block (R185, R194). -/
def Block.cell (k : Block) (m n : Nat) : Nat × Nat :=
  if mxMode k.mode.toNat = 1 then ((k.base + m / 8) % 1024, 16 * (m % 8) + n) else ((k.base + m) % 1024, n)

/-- The result that a slot row `r` and column `c` of a block hold, if the block computes one there. -/
def Block.result (k : Block) (r c : Nat) : Option (Nat × Nat) :=
  if mxMode k.mode.toNat = 1 then
    let m := 8 * r + c / 16
    if m < k.m ∧ c % 16 ≤ k.ncol then some (m, c % 16) else none
  else if r < k.m ∧ c ≤ k.ncol then some (r, c) else none

/-- Put the results of a block into the drain. -/
def Bay.putDrain (y : Bay) (xs : List (Nat × Nat × Nat × Bool)) : Bay :=
  xs.foldl (fun (y : Bay) x =>
    let k := 128 * x.1 + x.2.1
    { y with drain := tabSet 0 y.drain k (w32 x.2.2.1), drainPoison := setPut y.drainPoison k x.2.2.2 }) y

/-- The closed block whose slot rows were allocated first (R187). -/
def Bay.oldestClosed (y : Bay) : Option Block :=
  y.closed.foldl (fun (m : Option Block) k => match m with | none => some k | some j => some (if k.base < j.base then k else j)) none

/-- The values of slot row `r` of a block that the quantiser takes, moving row by moving row. -/
def Bay.takeRow (y : Bay) (k : Block) (r : Nat) : List (W32 × Bool) :=
  let per := if mxMode k.mode.toNat = 1 then 8 else 1
  (upTo (Nat.min per (k.m - per * r))).flatMap (fun j => (upTo (k.ncol + 1)).map (fun n =>
    let c := k.cell (per * r + j) n
    let v := y.drainCell c.1 c.2
    (w32 v.1, v.2)))

/-- Store what slot row `r` of a block completes in a descriptor DST: every course whose last element it holds, and the side plane
of every brick whose last course it holds (R126, R128, R187). `k` holds the values taken so far. -/
def Dev.storeRow (t : TimeUnit) (b : Nat) (f : Flight) (k : Block) (s : QStore) (bk : Book) (m : Int) (r : Nat) (d : Dev) : Dev :=
  let x := s.x
  let per := if mxMode k.mode.toNat = 1 then 8 else 1
  let now (last : Nat) : Bool := decide (per * r ≤ last) && decide (last < Nat.min k.m (per * (r + 1)))
  (upTo x.bricks).foldl (fun (d : Dev) w =>
    let m0 := 64 * (x.brickIdx w).getD 1 0
    let sel (row pos : Nat) : Bool :=
      now (if x.inner then Nat.min k.m (m0 + (pos / 32 + 1) * 32) - 1 else m0 + row)
    let fin := now (Nat.min k.m (m0 + 64) - 1)
    if fin || (upTo 64).any (fun j => sel j j) then d.quantPart t (f.req 0x06 b) s bk m w sel fin else d) d

/-- Write out slot row `r` of a closed block into a descriptor DST (R153, R154, R187). -/
def Dev.rowToDesc (t : TimeUnit) (b : Nat) (f : Flight) (x : Desc) (k : Block) (done : Bool) (d : Dev) : Dev :=
  let ((bk, m), d1) := match k.exp with
    | some m => let (bk, d1) := if x.fmt = 0xA then d.flightBook t b f else (({ codes := [], bad := [] } : Book), d); ((bk, m), d1)
    | none => d.quantBegin t b f x.fmt x.hist
  let k1 := { k with exp := some m, taken := k.taken ++ (d1.bay b).takeRow k k.written, written := k.written + 1 }
  let pick (n : Nat) : Num := let v := k1.taken.getD n (0, false); { val := f32 v.1.toNat, poison := v.2 }
  let s : QStore := { x := x, stash := false, hist := x.hist, sparse := none, rows := x.quantRows pick }
  let d2 := (d1.modBay b (fun y => { y with closed := y.closed.map (fun j => if j.base = k.base then k1 else j) })).storeRow t b f k1 s
    bk m k.written
  if done then d2.quantEnd t b f x m (s.total bk m) (amaxOf ((upTo x.count).map pick)) else d2

/-- Write out the next slot row of a closed block, through the MMUL that closed it; its last row completes DST (R187). -/
def Dev.writeRow (t : TimeUnit) (b : Nat) (k : Block) (f : Flight) (d : Dev) : Dev :=
  let r := k.written
  let done : Bool := decide (k.rows ≤ r + 1)
  let drop (y : Bay) : Bay := if done then { y with closed := y.closed.filter (fun j => j.base != k.base) } else y
  match f.opd 9 with
  | .tile n =>
    let row (r : Nat) (y : Bay) : Bay := (upTo 128).foldl (fun (z : Bay) c =>
      let v : Nat × Bool := if r < k.rows ∧ (k.result r c).isSome then y.drainCell ((k.base + r) % 1024) c else (0, false)
      z.setCell (n + c / 64) r (c % 64) (w32 v.1) v.2 v.2) y
    let d2 := d.modBay b (fun y => drop (row r { y with
      closed := y.closed.map (fun j => if j.base = k.base then { j with written := r + 1 } else j) }))
    if done then
      (d2.modBay b (fun y => ((upTo 64).filter (k.rows ≤ ·)).foldl (fun (y : Bay) r => row r y) y)).finish b f.id
    else d2
  | .desc x => (d.rowToDesc t b f x k done).modBay b drop

/-- Whether a read that a flight has made through a window is unanswered (R381). -/
def Dev.awaitsRead (d : Dev) (b id : Nat) : Bool :=
  let mine (w : Outstanding) : Bool := w.flight == some (b, id) && (w.typ == 0x10 || w.typ == 3)
  (upTo 32).any (fun l => (d.link l).waiting.any mine) || (upTo 4).any (fun v => (d.portOf v).waiting.any mine)

/-- DRAIN_WRITEOUT: one slot row of the oldest closed block of bay `b`, unless it must wait for its history words or for memory that
serves no request now (R187, R321, R381). -/
def drainWriteout (b : Nat) (t : TimeUnit) (d : Dev) : Dev :=
  match (d.bay b).oldestClosed with
  | none => d
  | some k =>
    match (d.bay b).flights.find? (fun f => f.id = k.flight) with
    | none => d.modBay b (fun y => { y with closed := y.closed.filter (fun j => j.base != k.base) })
    | some f =>
      if d.awaitsRead b f.id then d
      else
        match d.attempt t f.await (fun w d => d.writeRow t b k { f with await := w }) with
        | (none, d1) => d1.modBay b (fun y => y.modFlight f.id (fun f => { f with await := Await.none }))
        | (some (w, _), d1) => d1.modBay b (fun y => y.modFlight f.id (fun f => { f with await := w }))

/-! ### MMUL (R101, R102, R174, R185, R198, R200, R201) -/

/-- What MMUL does as it issues: it takes the slot rows of a block that opens, in issue order, or the block that its stream holds
open, and with LAST the stream holds none open any more (R185). -/
def mmulStart (i : Issue) (f : Flight) (d : Dev) : Dev :=
  let sh := mmulShape (mxMode f.cfg.mode.toNat) (f.opd 0)
  let more : Bool := decide (fld i.w 18 2 = 2)
  d.modBay i.b (fun y =>
    let k : Block := match vget none y.openBlocks i.s, more with
      | some k, true => { k with flight := f.id }
      | _, _ => { stream := i.s, rows := sh.rows, m := sh.m, ncol := fld i.w 25 7, base := y.drainPtr, mode := f.cfg.mode,
                  flight := f.id, written := 0, exp := none, taken := [] }
    { y.modFlight f.id (fun f => { f with block := some k }) with
      drainPtr := if more then y.drainPtr else y.drainPtr + sh.rows
      openBlocks := vmod y.openBlocks i.s (fun _ => if bit i.w 24 then none else some k) })

/-- The slot rows of closed blocks that have not been written out. -/
def Bay.unwritten (y : Bay) : List Nat := y.closed.flatMap (fun k => k.slots.drop k.written)

/-- The block of a flight. -/
def Bay.blockOf (y : Bay) (id : Nat) : Option Block := (y.flights.find? (fun f => f.id = id)).bind (·.block)

/-- What MMUL does: add one block sum to each entry of its block, and close it with LAST. While a slot row of a block that opens
holds what has not been written out, the array freezes: the MMUL waits for the drain (R178, R186). `dry`, `full` and `wait` are the
freeze and drain-wait cycles of its beats (R178, R186, R201). -/
def mmulEffect (dry full wait : Nat) (t : TimeUnit) (i : Issue) (f : Flight) (d : Dev) : Dev :=
  let w := i.w
  let mode := mxMode f.cfg.mode.toNat
  let sh := mmulShape mode (f.opd 0)
  let init := fld w 18 2
  let ncol := fld w 25 7
  let (mv, d1) := d.moving t i f sh
  let y := d1.bay i.b
  match y.blockOf f.id with
  | none => d1
  | some k =>
    if init ≠ 2 ∧ y.unwritten.any k.slots.contains then d1.stalls 0 0
    else
      let st := y.stationaryNow
      let acc (m n : Nat) : Nat × Bool :=
        let c := k.cell m n
        if init = 2 then y.drainCell c.1 c.2
        else if init = 1 then
          let r := if mode = 1 then m / 8 else m
          ((y.cell (fld w 20 4 + c.2 / 64) r (c.2 % 64)).toNat, y.cellPoison (fld w 20 4 + c.2 / 64) r (c.2 % 64))
        else (0, false)
      let cells := (upTo sh.m).flatMap (fun m => (upTo (ncol + 1)).map (fun n =>
        let c := k.cell m n
        let a := acc m n
        let ts := mmulTerms st mode (modeK f.cfg.mode.toNat) sh mv m n
        (c.1, c.2, blockAdd a.1 (ts.map (·.val)), a.2 || ts.any (·.poison) || mv.fail || (ts != [] && st.poisoned))))
      let skipped := ((upTo sh.m).filter mv.skip).length
      let beats := if sh.k = 0 then 0
        else match mxRate mode (mxStat f.cfg.mode.toNat) (mxMov f.cfg.mode.toNat) with
          | some (n, s) => s * ceilDiv (sh.m - skipped) n
          | none => 0
      let d2 := d1.modBay i.b (fun y =>
        { y.putDrain cells with
          closed := if bit w 24 then y.closed ++ [k] else y.closed
          mxCnt := vmod (vmod (vmod y.mxCnt 0 (fun c => c.addLo beats)) 1 (fun c => (c.addLo dry).addHi full)) 2
            (fun c => (c.addLo wait).addHi skipped) })
      let d3 := d2.chargeCycles 1 i.b (beats + dry + full + wait) f.occ
      if bit w 24 then d3 else d3.finish i.b f.id

def mmulBody (dry full wait : Nat) (t : TimeUnit) (i : Issue) (d : Dev) : Dev :=
  d.unitStart t { i with ops := [dry, full, wait] } (if bit i.w 24 then [0, 9] else [0]) (mmulFault i d) (mmulStart i)
    (mmulEffect dry full wait t i)

end Sys2Proof.Machine
end

