-- ==== Sys2Proof/Machine/Points.lean ====
section
/-! DEFINITION. The points unit: ROUTE top-k, gather and combine, the dispatch list and its counters (R107, R262 to R274,
R353). -/

namespace Sys2Proof.Machine

/-! ### Issue checks (R262, R267, R269, R270, R272) -/

/-- Experts per token that a top-k ROUTE asks for (R107). -/
def routeK (w : Nat) : Nat := fld w 29 3 + 1

/-- The bytes of a dispatch list (R267). -/
def listSize (T E K : Nat) : Nat := 64 + 8 * E + 24 * T * K

/-- Whether a descriptor has a form that R267 allows a dispatch list. -/
def Desc.isList (x : Desc) : Bool :=
  !x.brick && x.fmt == 0xD && x.base % 64 == 0 && (x.ndim == 1 || (x.ndim == 2 && x.s 0 == 1 && x.s 1 == (x.e 0 : Int)))

/-- The rows of the expert layout: E × C, or T × K when C = 0, with the captured configuration (R269, R272). -/
def expertRows (c : Cfg) (K T R : Nat) : Bool :=
  R == (if c.capacity = 0 then T * K else c.experts.toNat * c.capacity.toNat)

/-- FP32, BF16 or FP16. -/
def isRouteFmt (f : Nat) : Bool := decide (f ≤ 2)

/-- A refusal of a ROUTE by the sequencer. -/
def routeRefuse (cause field desc : Nat) : Option FaultInfo := some (unitRefuse 0x01 cause field desc)

/-- The checks of a top-k (R262, R267, R272). -/
def topkFault (i : Issue) (y x : Desc) (a : Opd) : Option FaultInfo :=
  let E := i.x.live.experts.toNat
  let K := routeK i.w
  if E = 0 then routeRefuse causeOperand 0xFF 0
  else if E < K then routeRefuse causeOperand 29 0
  else if x.ndim ≠ 2 ∨ x.e 0 ≠ E ∨ 1048576 < x.e 1 then routeRefuse causeOperand 9 x.slot
  else if (match a with | .desc z => z.ndim != 1 || z.e 0 != E | .tile _ => false) then routeRefuse causeOperand 18 a.slot
  else if !y.isList ∨ y.count < listSize (x.e 1) E K then routeRefuse causeOperand 0 y.slot
  else if x.brick ∨ !isRouteFmt x.fmt then routeRefuse causeFormat 9 x.slot
  else if (match a with | .desc z => z.brick || z.fmt != 0 | .tile _ => false) then routeRefuse causeFormat 18 a.slot
  else none

/-- The checks of a gather (R267, R269, R272). -/
def gatherFault (i : Issue) (y x z : Desc) : Option FaultInfo :=
  if i.x.live.experts = 0 then routeRefuse causeOperand 0xFF 0
  else if !z.isList ∨ z.count < listSize (x.e 1) i.x.live.experts.toNat (routeK i.w) then routeRefuse causeOperand 18 z.slot
  else if x.ndim ≠ 2 ∨ 1048576 < x.e 1 then routeRefuse causeOperand 9 x.slot
  else if y.ndim ≠ 2 ∨ y.e 0 ≠ x.e 0 ∨ !expertRows i.x.live (routeK i.w) (x.e 1) (y.e 1) then routeRefuse causeOperand 0 y.slot
  else if x.fmt ≠ y.fmt ∨ x.brick ≠ y.brick then routeRefuse causeFormat 9 x.slot
  else if x.brick ∧ x.inner then routeRefuse causeFormat 9 x.slot
  else if y.brick ∧ y.inner then routeRefuse causeFormat 0 y.slot
  else none

/-- The checks of a combine (R267, R270, R272). -/
def combineFault (i : Issue) (y x z : Desc) : Option FaultInfo :=
  if i.x.live.experts = 0 then routeRefuse causeOperand 0xFF 0
  else if !z.isList ∨ z.count < listSize (y.e 1) i.x.live.experts.toNat (routeK i.w) then routeRefuse causeOperand 18 z.slot
  else if y.ndim ≠ 2 ∨ 1048576 < y.e 1 then routeRefuse causeOperand 0 y.slot
  else if x.ndim ≠ 2 ∨ x.e 0 ≠ y.e 0 ∨ !expertRows i.x.live (routeK i.w) (y.e 1) (x.e 1) then routeRefuse causeOperand 9 x.slot
  else if !isRouteFmt x.fmt ∧ !(x.brick && isScaled x.fmt) then routeRefuse causeFormat 9 x.slot
  else if x.brick ∧ x.inner then routeRefuse causeFormat 9 x.slot
  else if y.brick ∨ !isRouteFmt y.fmt then routeRefuse causeFormat 0 y.slot
  else none

/-- Every refusal of a ROUTE: operand kinds, the walker's checks, then R272 in the order of its table. -/
def routeFault (i : Issue) (d : Dev) : Option FaultInfo :=
  let op := fld i.w 27 2
  let aux := i.opd 18
  match i.opd 0, i.opd 9 with
  | .desc y, .desc x =>
    if fld i.w 18 9 ≠ 0 ∧ aux.isTile then routeRefuse causeOperand 18 0
    else
      let ops := [({ field := 0, x := y, use := storeUse } : Walked), { field := 9, x := x, use := loadUse }] ++
        aux.walked 18 loadUse
      firstFault [walkerFault d i.part ops none none false,
        if op = 3 then routeRefuse causeReserved 27 0
        else if i.x.live.policy = 3 then routeRefuse causeReserved 0xFF 0
        else if op ≠ 0 ∧ fld i.w 29 3 ≠ 0 then routeRefuse causeReserved 29 0
        else if op = 0 then topkFault i y x aux
        else
          match aux with
          | .tile _ => routeRefuse causeOperand 18 0
          | .desc z => if op = 1 then gatherFault i y x z else combineFault i y x z]
  | .tile _, _ => routeRefuse causeOperand 0 0
  | _, .tile _ => routeRefuse causeOperand 9 0

/-! ### Top-k (R262 to R268) -/

/-- One expert as a token sees it: its number, its selection score, its score. -/
structure Scored where
  expert : Nat
  key : Val
  score : Val
deriving DecidableEq, Repr

/-- What the unit makes of one token: whether it is a NaN token, whether poison made it so, its selectable experts, its
choices by rank. -/
structure Token where
  nan : Bool
  poison : Bool
  able : List Scored
  choices : List Scored
deriving DecidableEq, Repr

/-- The best of some experts, ties to the lower expert index. -/
def bestOf : List Scored → Option Scored
  | [] => none
  | x :: rest =>
    match bestOf rest with
    | none => some x
    | some y => if x.key.lt y.key then some y else some x

/-- Up to `n` experts in descending selection score (R262). -/
def chooseTop : Nat → List Scored → List Scored
  | 0, _ => []
  | n + 1, xs =>
    match bestOf xs with
    | none => []
    | some x => x :: chooseTop n (xs.filter (fun y => y.expert != x.expert))

/-- Token `t` from the scores and the bias (R262, R263). -/
def makeToken (E K t : Nat) (score : Nat → Num) (bias : Option (Nat → Num)) : Token :=
  let s (e : Nat) : Num := score (e + E * t)
  let poison := (upTo E).any (fun e => (s e).poison || (match bias with | some b => (b e).poison | none => false))
  let nan := poison || (upTo E).any (fun e => (s e).val.isNan)
  let able := (upTo E).filterMap (fun e =>
    let v := (s e).val
    let key := match bias with | some b => rnd (v.add (b e).val) | none => v
    if key = .nan ∨ key = .inf true then none else some { expert := e, key := key, score := v })
  { nan := nan, poison := poison, able := able, choices := if nan then [] else chooseTop K able }

/-- A kept assignment: token, rank, expert with its score, and whether it spilled. -/
structure Kept where
  token : Nat
  rank : Nat
  target : Scored
  spilled : Bool
deriving DecidableEq, Repr

/-- Whether expert `e` still has room under capacity `c` (0: no limit). -/
def hasRoom (c e : Nat) (ks : List Kept) : Bool :=
  c == 0 || decide ((ks.filter (fun k => k.target.expert == e)).length < c)

/-- One assignment in turn: kept, spilled or dropped (R264, R265, R266). -/
def assign (c policy : Nat) (tok : Nat → Token) (ks : List Kept) (t r : Nat) : List Kept :=
  match (tok t).choices[r]? with
  | none => ks
  | some x =>
    if hasRoom c x.expert ks then { token := t, rank := r, target := x, spilled := false } :: ks
    else if policy = 1 then
      let held (e : Nat) : Bool := ks.any (fun k => k.token == t && k.target.expert == e)
      match bestOf ((tok t).able.filter (fun y =>
          !((tok t).choices.any (fun z => z.expert == y.expert)) && !held y.expert && hasRoom c y.expert ks)) with
      | some y => { token := t, rank := r, target := y, spilled := true } :: ks
      | none => ks
    else ks

/-- Insert a choice in descending selection score; an equal one stays behind those before it. -/
def insertBy (x : Val × Nat × Nat) : List (Val × Nat × Nat) → List (Val × Nat × Nat)
  | [] => [x]
  | y :: rest => if y.1.lt x.1 then x :: y :: rest else y :: insertBy x rest

/-- The order in which a policy takes the assignments: rank-major, or by descending selection score (R264, R266). -/
def takeOrder (policy T K : Nat) (tok : Nat → Token) : List (Nat × Nat) :=
  if policy = 2 then
    (((upTo T).flatMap (fun t => (upTo K).filterMap (fun r =>
      ((tok t).choices[r]?).map (fun x => (x.key, t, r))))).foldl (fun l x => insertBy x l) []).map (·.2)
  else (upTo K).flatMap (fun r => (upTo T).map (fun t => (t, r)))

/-- The slots of the expert order: for each expert its kept assignments in ascending token order (R268). -/
def slotOrder (E T : Nat) (ks : List Kept) : List Kept :=
  (upTo E).flatMap (fun e => (upTo T).filterMap (fun t => ks.find? (fun k => k.token == t && k.target.expert == e)))

/-- The counts of a top-k: kept, dropped, spilled, no route, NaN tokens (R267). -/
structure RouteCount where
  kept : Nat
  dropped : Nat
  spilled : Nat
  noroute : Nat
  nantok : Nat
deriving DecidableEq, Repr

/-- A dispatch list byte by byte, with poison, and its counts (R263, R267, R268). -/
def dispatchList (T E K : Nat) (cfg : Cfg) (step : Nat) (tok : Nat → Token) : List (Nat × Bool) × RouteCount :=
  let c := cfg.capacity.toNat
  let policy := cfg.policy.toNat
  let ks := (takeOrder policy T K tok).foldl (fun ks x => assign c policy tok ks x.1 x.2) []
  let slots := slotOrder E T ks
  let count (e : Nat) : Nat := (ks.filter (fun k => k.target.expert == e)).length
  let n : RouteCount :=
    { kept := ks.length, dropped := T * K - ks.length, spilled := (ks.filter (·.spilled)).length
      noroute := ((upTo T).filter (fun t => !ks.any (fun k => k.token == t))).length
      nantok := ((upTo T).filter (fun t => (tok t).nan)).length }
  let good (bs : List Nat) : List (Nat × Bool) := bs.map (fun b => (b, false))
  let header := toBytes 4 T ++ toBytes 2 E ++ [K, policy] ++ toBytes 4 c ++ toBytes 4 n.kept ++ toBytes 4 n.dropped ++
    toBytes 4 n.spilled ++ toBytes 4 n.noroute ++ toBytes 4 n.nantok ++ toBytes 8 step ++ List.replicate 24 0
  let experts := (upTo E).flatMap (fun e =>
    toBytes 4 (count e) ++ toBytes 4 ((upTo e).foldl (fun a j => a + count j) 0))
  let entry (t r : Nat) : List (Nat × Bool) :=
    let x := tok t
    let chosen := match x.choices[r]? with | some y => y.expert | none => 0xFFFF
    let bs := match ks.find? (fun k => k.token == t && k.rank == r) with
      | some k => toBytes 2 k.target.expert ++ [1 + 2 * b2n k.spilled, r] ++
          toBytes 4 ((slots.findIdx? (fun z => z == k)).getD 0) ++ toBytes 4 (floatCode 0 k.target.score) ++ toBytes 2 chosen ++
          [0, 0]
      | none => toBytes 2 chosen ++ [4 + 8 * b2n x.nan, r] ++ toBytes 4 0xFFFFFFFF ++ toBytes 4 0 ++ toBytes 2 chosen ++ [0, 0]
    bs.map (fun b => (b, x.poison))
  let slot (i : Nat) : List Nat := match slots[i]? with
    | some k => toBytes 4 k.token ++ toBytes 4 (floatCode 0 k.target.score)
    | none => toBytes 4 0xFFFFFFFF ++ toBytes 4 0
  (good (header ++ experts) ++ (upTo T).flatMap (fun t => (upTo K).flatMap (entry t)) ++ good ((upTo (T * K)).flatMap slot), n)

/-! ### The unit's requests, meter and counters (R56, R271, R273, R311) -/

/-- The requester that the points unit of a bay's pier is, working for a flight: what it asks for follows from the list. -/
def Flight.ptsReq (f : Flight) (b : Nat) : Req := { f.req 0x08 b with serial := true }

/-- Charge the cycles of a ROUTE and count them (R271, R273). -/
def Dev.ptsBusy (b : Nat) (f : Flight) (n : Nat) (d : Dev) : Dev :=
  (d.chargeCycles 7 (b / 16) n f.occ).modPier (b / 16) (fun p => { p with ptsCnt := vmod p.ptsCnt 2 (fun c => c.addHi n) })

/-- ⌈log₂(n) / 2⌉. -/
def halfLog (n : Nat) : Nat := ((upTo 33).find? (fun m => decide (n ≤ 4 ^ m))).getD 33

/-- The cycles of a top-k (R271). -/
def topkCycles (T E K policy : Nat) : Nat :=
  let p2 := ceilDiv (T * K) 8 * (if policy = 2 then halfLog (T * K) else 1)
  ceilDiv (T * E) 64 + p2 + ceilDiv (listSize T E K) 64 + 40

/-- ROUTE with OP 0 (R262 to R268). -/
def topkEffect (t : TimeUnit) (i : Issue) (f : Flight) (d : Dev) : Dev :=
  match f.opd 0, f.opd 9 with
  | .desc y, .desc x =>
    let E := f.cfg.experts.toNat
    let K := routeK f.word.toNat
    let T := x.e 1
    let (l, d1) := d.load t i.b f 0x08 x none
    let (bias, d2) : Option (Nat → Num) × Dev := match f.opd 18 with
      | .desc z => let (lb, d2) := d1.load t i.b f 0x08 z none; (some lb.num, d2)
      | .tile _ => (none, d1)
    let toks := (upTo T).map (fun j => makeToken E K j l.num bias)
    let (bs, n) := dispatchList T E K f.cfg f.step.toNat (fun j => toks.getD j { nan := true, poison := false, able := [], choices := [] })
    let d3 := d2.putBytes t (f.ptsReq i.b) (bs.zipIdx.filterMap (fun e => (y.bitAt e.2).map (fun p => (p / 8, e.1.1, e.1.2))))
    ((d3.ptsBusy i.b f (topkCycles T E K f.cfg.policy.toNat)).modPier (i.b / 16) (fun p =>
      { p with ptsCnt := vmod (vmod (vmod p.ptsCnt 0 (fun c => (c.addLo n.kept).addHi n.dropped))
          1 (fun c => (c.addLo n.spilled).addHi n.noroute)) 2 (fun c => c.addLo n.nantok) })).finish i.b f.id
  | _, _ => d

/-! ### Reading a dispatch list (R272, R353) -/

/-- The bytes of a list from byte `k`, with whether any is poisoned, after the requests that read them. -/
def Dev.listAt (d : Dev) (z : Desc) (k n : Nat) : Nat × Bool :=
  let bs := (upTo n).map (fun j => match z.bitAt (k + j) with | some p => d.peek (p / 8) | none => (0, false))
  (ofBytes (bs.map (fun b => b.1.toNat)), bs.any (·.2))

/-- The requests that read `n` bytes of a list from byte `k`. -/
def Dev.touchList (t : TimeUnit) (q : Req) (z : Desc) (k n : Nat) (d : Dev) : Dev :=
  d.touch t q ((upTo n).filterMap (fun j => (z.bitAt (k + j)).map (· / 8)))

/-- The header's check at execution: K when TOKENS, EXPERTS, K and CAPACITY agree with the captured configuration; a poisoned byte
bites (R272, R353). K of a gather or a combine is its K field, which must be zero, plus 1 (DEDUCED, log entry 72). -/
def Dev.checkList (t : TimeUnit) (i : Issue) (f : Flight) (z : Desc) (T : Nat) (d : Dev) : Option Nat × Dev :=
  let d1 := d.touchList t (f.ptsReq i.b) z 0 64
  let at' (k n : Nat) : Nat := (d1.listAt z k n).1
  let bad := (upTo 64).filter (fun k => (d1.listAt z k 1).2)
  match bad with
  | k :: _ =>
    let mb := match f.occ.bind d1.occ with | some o => o.te.mb | none => 0xFF
    (none, d1.emit t f.part { biteRecord (pierSrc 0x08 (i.b / 16)) 4 (((z.bitAt k).getD 0) / 8) bad.length (opc f.word.toNat) mb
      with stream := BitVec.ofNat 2 f.stream, desc := BitVec.ofNat 8 z.slot, iptr := f.iptr })
  | [] =>
    let K := routeK i.w
    if at' 0 4 = T ∧ at' 4 2 = f.cfg.experts.toNat ∧ at' 6 1 = K ∧ at' 8 4 = f.cfg.capacity.toNat then (some K, d1)
    else (none, d1)

/-- The fault of a header that does not agree, found at execution (R111, R272). -/
def Dev.listFault (t : TimeUnit) (i : Issue) (f : Flight) (z : Desc) (d : Dev) : Dev :=
  (d.modBay i.b (fun y => y.leave f.id)).runFault t i.b i.s f.word f.iptr f.occ
    { cls := 0x10, cause := causeOperand, field := 18, unit := 0x08, datum := 0, desc := z.slot }

/-! ### Gather (R269) -/

/-- What feeds a destination row: nothing, the source row of a token, a poisoned list entry, or an entry whose token lies
outside the source, for which the spec states nothing. -/
inductive RowFeed where
  | zero
  | token (t : Nat)
  | poison
  | open
deriving DecidableEq, Repr

/-- The feed of slot `k` of the slot array. -/
def Dev.slotFeed (d : Dev) (z : Desc) (T E K k : Nat) : RowFeed :=
  if T * K ≤ k then .open
  else
    let (v, p) := d.listAt z (64 + 8 * E + 16 * T * K + 8 * k) 8
    if p then .poison else if fld v 0 32 < T then .token (fld v 0 32) else .open

/-- The feed of destination row `r` (R269). -/
def Dev.rowFeed (d : Dev) (z : Desc) (T E K c r : Nat) : RowFeed :=
  if c = 0 then (if r < (d.listAt z 12 4).1 then d.slotFeed z T E K r else .zero)
  else
    let (v, p) := d.listAt z (64 + 8 * (r / c)) 8
    if p then .poison
    else if r % c < fld v 0 32 then d.slotFeed z T E K (fld v 32 32 + r % c)
    else .zero

/-- The bytes that a gather writes to DST, side planes included (R271). -/
def Desc.gatherBytes (y : Desc) : Nat :=
  if y.brick then
    (upTo y.bricks).foldl (fun n w =>
      n + 256 + ((upTo 64).foldl (fun m r => m + ((upTo (rowBytes y.fmt)).filter (y.byteValid w r)).length) 0)) 0
  else ceilDiv (y.count * elemBits y.fmt) 8

/-- ROUTE with OP 1; after a failed seal check of SRC all that it writes is poisoned (R269, R357). -/
def gatherEffect (t : TimeUnit) (i : Issue) (f : Flight) (d : Dev) : Dev :=
  match f.opd 0, f.opd 9, f.opd 18 with
  | .desc y, .desc x, .desc z =>
    let E := f.cfg.experts.toNat
    let c := f.cfg.capacity.toNat
    let T := x.e 1
    let W := x.e 0
    let q := f.ptsReq i.b
    match d.checkList t i f z T with
    | (none, d1) => d1.listFault t i f z
    | (some K, d1) =>
      let d2 := (if c = 0 then d1 else d1.touchList t q z 64 (8 * E)).touchList t q z (64 + 8 * E + 16 * T * K) (8 * T * K)
      let feeds := (upTo (y.e 1)).map (d2.rowFeed z T E K c)
      let feed (n : Nat) : RowFeed := feeds.getD (n / W) .zero
      let (l, d3) := d2.load t i.b f 0x08 x (sparseTag f.cfg)
      let rowBad := (upTo T).map (fun r => l.fail || (upTo W).any (fun j =>
        let n := j + W * r
        (l.code n).2 || (x.brick && (l.scale n).2)))
      let f0 := d3.free
      let open' (n : Nat) : Nat := (Config.freeValue (f0 + n)).toNat
      let code (n : Nat) : Nat × Bool := match feed n with
        | .zero => (0, l.fail)
        | .poison => (0, true)
        | .open => (open' n % 2 ^ elemBits y.fmt, l.fail)
        | .token k => ((l.code (n % W + W * k)).1, rowBad.getD k false)
      let scale (n : Nat) : Nat × Bool := match feed n with
        | .zero => (0x7F, l.fail)
        | .poison => (0, true)
        | .open => (open' (y.count + n) % 256, l.fail)
        | .token k => ((l.scale (n % W + W * k)).1, rowBad.getD k false)
      let d4 : Dev := { d3 with free := if feeds.contains .open then f0 + 2 * y.count else f0 }
      let d5 :=
        if y.brick then
          let (k, d4) := if y.fmt = 0xA then d4.flightBook t i.b f
            else (({ codes := [], bad := [] } : Book), d4)
          let zero (n : Nat) : Bool := match feed n with
            | .zero => !l.fail
            | .poison => false
            | .token r => l.unread (n % W + W * r) || ((scale n).1 != 0xFF &&
                (if y.fmt = 0xA then (decodeFloat 2 (k.codes.getD (code n).1 0)).isZero else zeroCode y.fmt (code n).1))
            | .open => zeroCode y.fmt (code n).1
          (upTo y.bricks).foldl (fun (d : Dev) w =>
            d.storeBrick t q y w (y.validAt w)
              (fun r p => match y.elemAt w r p with | some n => code n | none => (0, false))
              (fun r p => match y.elemAt w r p with | some n => zero n | none => true)
              { scale := fun j =>
                  match y.elemAt w (j / 2) (32 * (j % 2)) with
                  | some n => if isScaled y.fmt then scale n else (0x7F, l.fail)
                  | none => (0x7F, l.fail)
                book := if y.fmt = 0xA then (upTo 16).map (fun e => (k.codes.getD e 0, k.bad.getD e false || l.fail)) else []
                sparse := none } false) d4
        else d4.storePlain t q y code
      (d5.ptsBusy i.b f (ceilDiv y.gatherBytes 256 + 40)).finish i.b f.id
  | _, _, _ => d

/-! ### Combine (R270) -/

/-- One entry of the token table as combine reads it. -/
structure ListEntry where
  expert : Nat
  kept : Bool
  nan : Bool
  pos : Nat
  weight : Val
  poison : Bool
deriving DecidableEq, Repr

/-- The entry of token `t` and rank `r` (R268). -/
def Dev.listEntry (d : Dev) (z : Desc) (E K t r : Nat) : ListEntry :=
  let (v, p) := d.listAt z (64 + 8 * E + 16 * (t * K + r)) 16
  { expert := fld v 0 16, kept := bit v 16, nan := bit v 19, pos := fld v 32 32, weight := f32 (fld v 64 32), poison := p }

/-- The source row of a kept entry: the row, or none when the list names a row outside SRC; and the poison of what was read
to find it. -/
def Dev.entryRow (d : Dev) (z : Desc) (E c R : Nat) (e : ListEntry) : Option Nat × Bool :=
  if c = 0 then (if e.pos < R then some e.pos else none, false)
  else if E ≤ e.expert then (none, false)
  else
    let (first, p) := d.listAt z (64 + 8 * e.expert + 4) 4
    let row := (e.expert * c + e.pos : Nat) - (first : Int)
    (if 0 ≤ row ∧ row < (R : Int) then some row.toNat else none, p)

/-- ROUTE with OP 2 (R270). -/
def combineEffect (t : TimeUnit) (i : Issue) (f : Flight) (d : Dev) : Dev :=
  match f.opd 0, f.opd 9, f.opd 18 with
  | .desc y, .desc x, .desc z =>
    let E := f.cfg.experts.toNat
    let c := f.cfg.capacity.toNat
    let T := y.e 1
    let W := y.e 0
    let R := x.e 1
    let q := f.ptsReq i.b
    match d.checkList t i f z T with
    | (none, d1) => d1.listFault t i f z
    | (some K, d1) =>
      let d2 := (if c = 0 then d1 else d1.touchList t q z 64 (8 * E)).touchList t q z (64 + 8 * E) (16 * T * K)
      let (l, d3) := d2.load t i.b f 0x08 x (sparseTag f.cfg)
      let rowBad := (upTo R).map (fun r => (upTo W).any (fun j => (l.num (j + W * r)).poison))
      let f0 := d3.free
      let toks := (upTo T).map (fun k =>
        let es := (upTo K).map (d2.listEntry z E K k)
        let used := (es.filter (·.kept)).map (fun e => (e, d2.entryRow z E c R e))
        let bad := l.fail || es.any (·.poison) || used.any (fun u => u.2.2 || (match u.2.1 with
          | some r => rowBad.getD r false
          | none => false))
        (es.any (·.nan), bad, used.map (fun u => (u.1.weight, u.2.1))))
      let code (n : Nat) : Nat × Bool :=
        match toks[n / W]? with
        | none => (0, false)
        | some (nan, bad, used) =>
          if nan then (floatCode y.fmt .nan, bad)
          else if used.any (fun u => u.2.isNone) then ((Config.freeValue (f0 + n)).toNat % 2 ^ elemBits y.fmt, bad)
          else
            let acc := used.foldl (fun (a : Val) u => rnd ((u.1.mul (l.num (n % W + W * u.2.getD 0)).val).add a)) Val.zero
            (floatCode y.fmt acc, bad)
      let d4 : Dev := { d3 with free := if toks.any (fun u => u.2.2.any (fun v => v.2.isNone)) then f0 + y.count else f0 }
      ((d4.storePlain t q y code).ptsBusy i.b f (ceilDiv (T * K * W) 128 + 40)).finish i.b f.id
  | _, _, _ => d

/-! ### The three commands -/

def routeTopkBody (t : TimeUnit) (i : Issue) (d : Dev) : Dev :=
  d.unitIssue t i [0, 9, 18] (routeFault i d) (topkEffect t i)

def routeGatherBody (t : TimeUnit) (i : Issue) (d : Dev) : Dev :=
  d.unitStart t i [0, 9, 18] (routeFault i d) (bookStart 0 t i.b) (gatherEffect t i)

def routeCombineBody (t : TimeUnit) (i : Issue) (d : Dev) : Dev :=
  d.unitIssue t i [0, 9, 18] (routeFault i d) (combineEffect t i)

end Sys2Proof.Machine
end

