-- ==== Sys2Proof/Machine/Update.lean ====
section
/-! DEFINITION. The update unit: UPD's issue checks, its prologue, body and epilogue (R107, R275 to R300). -/

namespace Sys2Proof.Machine

/-! ### Issue (R299, R300) -/

/-- Every refusal of a UPD: operand kinds, the walker's checks, then R299 in the order of its table. -/
def updFault (i : Issue) (d : Dev) : Option FaultInfo :=
  let lazy := bit i.w 36
  let rows := i.opd 18
  let no := routeRefuse
  match i.opd 0, i.opd 9 with
  | .desc st, .desc g =>
    if lazy ∧ rows.isTile then no causeOperand 18 0
    else
      let ops := [({ field := 0, x := st, use := loadUse } : Walked), { field := 9, x := g, use := loadUse }] ++
        rows.walked 18 loadUse
      let rowsBad : Bool := match rows with
        | .desc r => r.brick || r.fmt != 0xB || r.ndim != 1
        | .tile _ => true
      firstFault [walkerFault d i.part ops none none false,
        if !lazy ∧ fld i.w 18 9 ≠ 0 then no causeReserved 18 rows.slot
        else if st.brick ∨ st.fmt ≠ 0xD ∨ st.ndim ≠ 1 ∨ st.e 0 ≠ 256 ∨ st.base % 256 ≠ 0 then no causeOperand 0 st.slot
        else if !g.brick ∨ (g.fmt ≠ 3 ∧ g.fmt ≠ 4) then no causeFormat 9 g.slot
        else if lazy ∧ (g.ndim ≠ 2 ∨ g.inner) then no causeOperand 9 g.slot
        else if lazy ∧ rowsBad then no causeOperand 18 rows.slot
        else if (d.pier (i.b / 16)).ctab = 0 then no causeConfig 0xFF 0
        else none]
  | .tile _, _ => no causeOperand 0 0
  | _, .tile _ => no causeOperand 9 0

/-- UPD at issue: it captures UPD_CTAB and waits in its queue for the update unit (R80, R300). -/
def updBody (t : TimeUnit) (i : Issue) (d : Dev) : Dev :=
  d.unitStart t i [0, 9, 18] (updFault i d) (fun f d =>
    d.modBay i.b (fun y => y.modFlight f.id (fun f => { f with ctab := (d.pier (i.b / 16)).ctab.toNat * 0x4000 }))) (fun _ d => d)

/-- The requester that the update unit is, working for a flight: what it asks for follows from what it has read. -/
def Flight.updReq (f : Flight) (b : Nat) : Req := { f.req 0x07 b with serial := true }

/-! ### Reads of the prologue (R287, R295) -/

/-- Why a UPD stops: a fault, or a bite at an address with the poisoned bytes of its request. -/
inductive UpdStop where
  | fault (f : FaultInfo)
  | bite (addr bytes : Nat)
deriving DecidableEq, Repr

/-- A step of the prologue: its result or a stop, and the device after its reads. -/
abbrev Upd (α : Type) := Except UpdStop α × Dev

/-- Carry on after a step that has not stopped. -/
def Upd.andThen {α β : Type} (r : Upd α) (f : α → Dev → Upd β) : Upd β :=
  match r with
  | (.error e, d) => (.error e, d)
  | (.ok a, d) => f a d

/-- Stop when a check fails. -/
def Upd.check (bad : Bool) (e : UpdStop) (d : Dev) : Upd Unit := (if bad then .error e else .ok (), d)

/-- The first poisoned of some bytes at `a`, and the poisoned ones in its 64-byte block. -/
def firstBite (a : Nat) (ps : List Bool) : Option (Nat × Nat) :=
  (ps.findIdx? id).map (fun i =>
    (a + i, ((upTo ps.length).filter (fun j => ps.getD j false && (a + j) / 64 == (a + i) / 64)).length))

/-- Read `n` bytes; a poisoned one bites (R295). -/
def Dev.updRead (t : TimeUnit) (q : Req) (a n : Nat) (d : Dev) : Upd (List Nat) :=
  let (r, d1) := d.fetch t q a n
  match firstBite a r.2 with
  | some (x, k) => (.error (.bite x k), d1)
  | none => (.ok (natBytes r.1), d1)

/-- The little-endian number in some bytes. -/
def bytesAt (bs : List Nat) (k n : Nat) : Nat := ofBytes ((bs.drop k).take n)

/-- The NONE of a step (R276). -/
def noneStep : Nat := 0xFFFFFFFFFFFFFFFF

/-- Datum of a STEP_MISMATCH record (R288). -/
def stepDatum (stored k : Nat) : Nat :=
  if stored = noneStep then 0x7FFFFFFF
  else unsx 32 (max (-2147483648) (min 2147483647 ((stored : Int) - k)))

/-- A fault that the update unit finds in execution (R111, R287). -/
def updBad (cause desc : Nat) : UpdStop :=
  .fault { cls := 0x10, cause := cause, field := 0xFF, unit := 0x07, datum := 0, desc := desc }

/-- A STEP_MISMATCH (R286, R288). -/
def updMismatch (desc addr stored : Nat) (k : W64) : UpdStop :=
  .fault { cls := 0x12, cause := 0, field := 0xFF, unit := 0x07, datum := stepDatum stored k.toNat, desc := desc, addr := addr,
           step := some k }

/-! ### Shards (R275 to R278) -/

/-- Granules of a line (R276). -/
def lineGranules (planes B rows lmax : Nat) : Nat :=
  1 + 33 * B + 17 * B * (fld planes 0 1 + fld planes 1 1) + (if bit planes 2 then ceilDiv rows 16 + ceilDiv lmax 64 else 0)

/-- First granules of the moment planes, the row table and the touched list (R276). -/
def firstM1 (B : Nat) : Nat := 1 + 33 * B
def firstM2 (planes B : Nat) : Nat := 1 + 33 * B + 17 * B * fld planes 0 1
def firstRows (planes B : Nat) : Nat := 1 + 33 * B + 17 * B * (fld planes 0 1 + fld planes 1 1)
def firstList (planes B rows : Nat) : Nat := firstRows planes B + ceilDiv rows 16

/-- A plane of a line as a descriptor: the bricks of GRAD, laid one after the other (R276, R277, R278). -/
def planeDesc (g : Desc) (slot base fmt : Nat) : Desc :=
  let n : Int := granulesOf fmt
  { g with
    slot := slot, base := base, fmt := fmt, sealAddr := 0, rq := false, hist := false, satinf := false
    str := [n, n * g.nb0, n * g.nb0 * g.nb1, n * g.nb0 * g.nb1 * g.e 2, n * g.nb0 * g.nb1 * g.e 2 * g.e 3] }

/-! ### The curve and the coefficients (R279, R280, R284, R285) -/

/-- Knot `i` of the curve at `a`: KSTEP and VALUE. -/
def Dev.knot (t : TimeUnit) (q : Req) (a i : Nat) (d : Dev) : Upd (Nat × Val) :=
  (d.updRead t q (a + 16 + 16 * i) 12).andThen (fun bs d => (.ok (bytesAt bs 0 8, f32 (bytesAt bs 8 4)), d))

/-- The search of R285: the largest knot at or below `k` between lo and hi. -/
def Dev.knotSearch (t : TimeUnit) (q : Req) (a k : Nat) : Nat → Nat → Nat → Dev → Upd Nat
  | 0, lo, _, d => (.ok lo, d)
  | fuel + 1, lo, hi, d =>
    if lo < hi then
      let mid := (lo + hi + 1) / 2
      (d.knot t q a mid).andThen (fun v d => if v.1 ≤ k then d.knotSearch t q a k fuel mid hi else d.knotSearch t q a k fuel lo (mid - 1))
    else (.ok lo, d)

/-- The value of the curve at step `k` (R285). -/
def Dev.curve (t : TimeUnit) (q : Req) (a n k : Nat) (d : Dev) : Upd Val :=
  (d.knot t q a 0).andThen (fun k0 d =>
    if k < k0.1 then (.ok k0.2, d)
    else
      (d.knotSearch t q a k 13 0 (n - 1)).andThen (fun i d =>
        (d.knot t q a i).andThen (fun ki d =>
          if i = n - 1 then (.ok ki.2, d)
          else
            (d.knot t q a (i + 1)).andThen (fun kn d =>
              if kn.1 ≤ ki.1 then (.ok ki.2, d)
              else
                let f := roundDiv 0 (Val.ofInt ((k : Int) - ki.1)) (Val.ofInt ((kn.1 : Int) - ki.1))
                let dv := rnd (kn.2.sub ki.2)
                (.ok (rnd ((dv.mul f).add ki.2)), d)))))

/-- pw(b, n) (R280). -/
def powVal (b : Val) (n : Nat) : Val :=
  ((upTo (Nat.log2 n + 1)).reverse).foldl (fun (r : Val) i =>
    let r := rnd (r.mul r)
    if bit n i then rnd (r.mul b) else r) Val.one

/-- c1 and c2 for an update count (R280). -/
def biasFactor (on : Bool) (b : Val) (n : Nat) : Val :=
  if on then roundDiv 0 Val.one (rnd (Val.one.sub (powVal b n))) else Val.one

/-- The coefficient row's own checks of order 4 (R287). -/
def coefBad (planes flags n : Nat) (curve : Bool) (cs : List Val) (gm : Val) : Bool :=
  let m1 := bit planes 0
  let m2 := bit planes 1
  let c (i : Nat) : Val := cs.getD i Val.zero
  let unit (v : Val) : Bool := (v.isZero || !v.neg?) && v.lt Val.one
  let negative (v : Val) : Bool := v.neg? && !v.isZero
  flags / 64 != 0 || ((bit flags 2 || bit flags 0) && !m1) || ((bit flags 1 || bit flags 3 || bit flags 4) && !m2) ||
  (bit flags 0 && !unit (c 0)) || (bit flags 1 && !unit (c 2)) || negative (c 2) || negative (c 3) || negative (c 4) ||
  cs.any (fun v => !v.isFin) || !gm.isFin || (curve && (n == 0 || decide (4096 < n)))

/-! ### The prologue (R286, R287) -/

/-- Whether `n` bytes at `a` lie in the yard of pier `p`. -/
def Dev.inYard (d : Dev) (p a n : Nat) : Bool :=
  match d.regionAt a, d.regionAt (a + n - 1) with
  | .yard x _, .yard y _ => x == p && y == p
  | _, _ => false

/-- A list of row indices: strictly ascending entries below R, then sentinels (R287, R290). -/
def rowsOf (R : Nat) : List Nat → Option (List Nat)
  | [] => some []
  | x :: rest =>
    if x = 0xFFFFFFFF then (if rest.all (· == 0xFFFFFFFF) then some [] else none)
    else
      match rowsOf R rest with
      | none => none
      | some l => if decide (x < R) && (match l with | y :: _ => decide (x < y) | [] => true) then some (x :: l) else none

/-- What the prologue has read of the shard and its lines. -/
structure Shard where
  planes : Nat
  blocks : Nat
  origin : Nat
  rows : Nat
  lmax : Nat
  mask : Nat
  up : Nat
  down : Nat
  upStep : Nat
  upCount : Nat
  downStep : Nat
deriving DecidableEq, Repr

/-- Order 1: the shard header and both line headers (R275, R276, R287). -/
def Dev.readShard (t : TimeUnit) (q : Req) (w : Nat) (st g : Desc) (d : Dev) : Upd Shard :=
  let lazy := bit w 36
  let down := fld w 35 1
  (d.updRead t q st.base 256).andThen (fun h d =>
    let line (k : Nat) : Nat := fld (bytesAt h (32 + 8 * k) 8) 0 52
    let planes := bytesAt h 2 1
    let B := bytesAt h 4 4
    let R := bytesAt h 16 4
    let lmax := bytesAt h 20 4
    let size := 256 * lineGranules planes B R lmax
    (d.updRead t q (line (1 - down)) 256).andThen (fun u d =>
      (d.updRead t q (line down) 256).andThen (fun v d =>
        let reserved := bytesAt h 3 1 != 0 || planes / 8 != 0 || (h.drop 48).any (· != 0) || (!lazy && (R != 0 || lmax != 0)) ||
          [24, 32, 40].any (fun k => bytesAt h k 8 / 2 ^ 52 != 0) || (u.drop 12).any (· != 0) || (v.drop 12).any (· != 0) ||
          line 0 % 256 != 0 || line 1 % 256 != 0
        let bad := bytesAt h 0 2 != 0x0100 || reserved || B != g.bricks || bit planes 2 != lazy || (lazy && R != g.e 1) ||
          decide (lmax < bytesAt u 8 4) || decide (lmax < bytesAt v 8 4) ||
          (decide (line 0 < line 1 + size) && decide (line 1 < line 0 + size))
        ((Upd.check bad (updBad causeOperand st.slot) d).andThen (fun _ d =>
          (.ok { planes := planes, blocks := B, origin := bytesAt h 8 8, rows := R, lmax := lmax, mask := fld (bytesAt h 24 8) 0 52,
                 up := line (1 - down), down := line down, upStep := bytesAt u 0 8, upCount := bytesAt u 8 4,
                 downStep := bytesAt v 0 8 }, d)) : Upd Shard))))

/-- Order 2: the windows and the yard. The coefficient row and the curve's header are looked at only for the addresses and the number
of knots that they name (R284, R287). -/
def Dev.scopeShard (f : Flight) (p : Nat) (s : Shard) (d : Dev) : Bool :=
  let inside (wr : Bool) (a n : Nat) : Bool := match f.part with | some q => (d.part q).inside wr a n | none => false
  let size := 256 * lineGranules s.planes s.blocks s.rows s.lmax
  let row := f.ctab + 64 * fld f.word.toNat 27 8
  let look (k : Nat) : Nat := ofBytes ((upTo 8).map (fun i => (d.peek (row + k + i)).1.toNat))
  let sched := fld (look 40) 0 52
  let gmul := fld (look 48) 0 52
  let knots := ofBytes ((upTo 4).map (fun i => (d.peek (sched + i)).1.toNat))
  let curve := 16 + 16 * (if knots ≤ 4096 then knots else 0)
  !(inside false s.up size && inside true s.down size && (s.mask == 0 || inside false s.mask (512 * s.blocks)) &&
    d.inYard p f.ctab 0x4000 && (sched == 0 || (d.inYard p sched 16 && d.inYard p sched curve)) && (gmul == 0 || inside false gmul 4))

/-- Order 3: the line checks of R286. -/
def stepShard (f : Flight) (st : Nat) (s : Shard) : Option UpdStop :=
  let k := f.step.toNat
  if bit f.word.toNat 36 then
    if k < s.upStep then some (updMismatch st s.up s.upStep f.step)
    else if s.downStep = noneStep ∨ s.downStep < s.upStep ∨ s.downStep = k + 1 then none
    else some (updMismatch st s.down s.downStep f.step)
  else if s.upStep ≠ k ∨ k < s.origin then some (updMismatch st s.up s.upStep f.step)
  else none

/-- Order 4: the coefficient row, GMUL and the curve. Answers the flags, the FP32 codes of `UpdRun.coefs` and N (R279,
R280, R287). -/
def Dev.readCoefs (t : TimeUnit) (q : Req) (f : Flight) (st : Nat) (s : Shard) (d : Dev) : Upd (Nat × List Nat × Nat) :=
  let k := f.step.toNat
  (d.updRead t q (f.ctab + 64 * fld f.word.toNat 27 8) 64).andThen (fun row d =>
    let flags := bytesAt row 0 4
    let cs := (upTo 8).map (fun i => f32 (bytesAt row (4 + 4 * i) 4))
    let c (i : Nat) : Val := cs.getD i Val.zero
    let sched := fld (bytesAt row 40 8) 0 52
    let gmul := fld (bytesAt row 48 8) 0 52
    ((if sched = 0 then (.ok 1, d) else (d.updRead t q sched 16).andThen (fun h d => (.ok (bytesAt h 0 4), d)) : Upd Nat)).andThen
      (fun n d =>
        ((if gmul = 0 then (.ok Val.one, d)
          else (d.updRead t q gmul 4).andThen (fun h d => (.ok (f32 (bytesAt h 0 4)), d)) : Upd Val)).andThen (fun gm d =>
          (Upd.check (coefBad s.planes flags n (sched != 0) cs gm) (updBad causeOperand st) d).andThen (fun _ d =>
            ((if sched = 0 then (.ok Val.one, d) else d.curve t q sched n k : Upd Val)).andThen (fun sv d =>
              let eta := rnd ((c 5).mul sv)
              let dw := rnd (Val.one.sub (eta.mul (c 6)))
              let n1 := k - s.origin + 1
              let lazy := bit f.word.toNat 36
              let c1 := if lazy then Val.one else biasFactor (bit flags 0) (c 0) n1
              let c2 := if lazy then Val.one else biasFactor (bit flags 1) (c 2) n1
              (.ok (flags, [c 0, c 1, c 2, c 3, c 4, c 7, eta, dw, gm, c1, c2].map (floatCode 0), if sched = 0 then 0 else n),
                d))))))

/-- The row record of row `r` in a line (R276). -/
def Dev.readRecord (t : TimeUnit) (q : Req) (s : Shard) (line r : Nat) (d : Dev) : Upd RowRec :=
  (d.updRead t q (line + 256 * firstRows s.planes s.blocks + 16 * r) 16).andThen (fun bs d =>
    (.ok { row := r, last := bytesAt bs 0 8, cnt := bytesAt bs 8 4 }, d))

/-- The row records of some rows. -/
def Dev.readRecords (t : TimeUnit) (q : Req) (s : Shard) (line : Nat) : List Nat → Dev → Upd (List RowRec)
  | [], d => (.ok [], d)
  | r :: rest, d =>
    (d.readRecord t q s line r).andThen (fun x d =>
      (d.readRecords t q s line rest).andThen (fun xs d => (.ok (x :: xs), d)))

/-- Read a list of 4-byte entries one address at a time. -/
def Dev.readEntries (t : TimeUnit) (q : Req) : List Nat → Dev → Upd (List Nat)
  | [], d => (.ok [], d)
  | a :: rest, d =>
    (d.updRead t q a 4).andThen (fun bs d =>
      (d.readEntries t q rest).andThen (fun xs d => (.ok (ofBytes bs :: xs), d)))

/-- Orders 5 and 6 of a lazy UPD: the lists, the row records and the row checks (R286, R287, R290, R291). Answers the
listed rows with their records and the rows to copy with theirs. -/
def Dev.readLists (t : TimeUnit) (q : Req) (f : Flight) (st : Nat) (rows : Desc) (s : Shard) (d : Dev) :
    Upd (List Nat × List RowRec × List RowRec) :=
  let k := f.step.toNat
  let bad := updBad causeOperand st
  (d.readEntries t q ((upTo rows.count).filterMap (fun n => (rows.bitAt n).map (· / 8)))).andThen (fun xs d =>
    (d.readEntries t q ((upTo s.upCount).map (fun n => s.up + 256 * firstList s.planes s.blocks s.rows + 4 * n))).andThen (fun ys d =>
      match rowsOf s.rows xs, rowsOf s.rows ys with
      | some listed, some old =>
        if s.lmax < rows.count then (.error bad, d)
        else
          (d.readRecords t q s s.up listed).andThen (fun recs d =>
            (d.readRecords t q s s.up (old.filter (fun r => !listed.contains r))).andThen (fun copied d =>
              match recs.find? (fun r => r.last != noneStep && decide (k ≤ r.last)) with
              | some r => (.error (updMismatch st (s.up + 256 * firstRows s.planes s.blocks + 16 * r.row) r.last f.step), d)
              | none => (.ok (listed, recs, copied), d)))
      | _, _ => (.error bad, d)))

/-- Charge cycles of the update unit and count them (R297, R298, R300). -/
def Dev.updBusy (p n : Nat) (occ : Option OccKey) (d : Dev) : Dev :=
  (d.chargeCycles 6 p n occ).modPier p (fun x => { x with updCnt := vmod x.updCnt 2 (fun c => c.addLo n) })

/-- The TE_MB of a flight's occurrence, 0xFF without one. -/
def Dev.mbOf (d : Dev) (f : Flight) : Nat := match f.occ.bind d.occ with | some o => o.te.mb | none => 0xFF

/-- A bite stops the UPD, which completes (R295, R354). -/
def Dev.updBite (t : TimeUnit) (b : Nat) (f : Flight) (addr bytes : Nat) (d : Dev) : Dev :=
  let p := b / 16
  let r := biteRecord (pierSrc 0x07 p) 1 addr bytes (opc f.word.toNat) (d.mbOf f)
  (((d.emit t f.part { f.record 0x02 (pierSrc 0x07 p) with
      poison := true, addr := r.addr, count := r.count, detail := r.detail }).modPier p (fun x =>
    { x with upd := none, updCnt := vmod x.updCnt 3 (fun c => c.addLo 1) })).finish b f.id)

/-- Whether an address lies in an HBM stack range. -/
def Dev.inHbm (d : Dev) (a : Nat) : Bool := match d.regionAt a with | .hbm _ _ => true | _ => false

/-- The whole prologue of a flight (R287): its plan and its cycles, or why it stops. -/
def Dev.prologue (t : TimeUnit) (b extra : Nat) (f : Flight) (st g : Desc) (d : Dev) : Upd (UpdRun × Nat) :=
  let p := b / 16
  let q := f.updReq b
  let w := f.word.toNat
  (d.readShard t q w st g).andThen (fun s d =>
    (Upd.check (d.scopeShard f p s) (updBad causeScope st.slot) d).andThen (fun _ d =>
      match stepShard f st.slot s with
      | some e => (.error e, d)
      | none =>
        (d.readCoefs t q f st.slot s).andThen (fun c d =>
          let lists : Upd (List Nat × List RowRec × List RowRec) := match f.opd 18 with
            | .desc r => if bit w 36 then d.readLists t q f st.slot r s else (.ok ([], [], []), d)
            | .tile _ => (.ok ([], [], []), d)
          lists.andThen (fun l d =>
            let hbm : Bool := d.inHbm st.base || d.inHbm s.up || d.inHbm s.down
            let cycles := 128 + (if c.2.2 = 0 then 0 else 24 * (Nat.log2 c.2.2 + 1)) +
              (if bit w 36 then ceilDiv (l.1.length + s.upCount) 16 else 0) + (if hbm then min extra 240 else 0)
            (.ok ({ bay := b, flight := f.id, phase := 0, planes := s.planes, blocks := s.blocks, rows := s.rows, lmax := s.lmax,
                    mask := s.mask, up := s.up, down := s.down, flags := c.1, coefs := c.2.1, listed := l.1, recs := l.2.1,
                    copied := l.2.2, spoil := false }, cycles),
              d.store t q s.down (byteList (List.replicate 8 0xFF)) [] [])))))

/-- The UPD at the front of a bay's PIER queue: one that has not left it, with nothing before it there (R80, R107). -/
def Bay.nextUpd (y : Bay) : Option Flight :=
  (y.flights.find? (fun f => f.queue == 5 && !f.begun)).filter (fun f => f.op == 0x60)

/-- A UPD leaves the queue: the update unit has it. -/
def Bay.beginFlight (y : Bay) (id : Nat) : Bay :=
  (y.modFlight id (fun f => { f with begun := true, await := Await.none })).beginNext

/-- What the prologue of a UPD comes to (R287, R288, R295, R297). -/
def updPrologueEffect (b extra : Nat) (t : TimeUnit) (f : Flight) (st g : Desc) (d : Dev) : Dev :=
  let p := b / 16
  match d.prologue t b extra f st g with
  | (.ok (u, n), d1) => (d1.updBusy p n f.occ).modPier p (fun x => { x with upd := some u })
  | (.error (.bite a n), d1) => (d1.updBusy p 128 f.occ).updBite t b f a n
  | (.error (.fault e), d1) =>
    ((d1.updBusy p 128 f.occ).modBay b (fun y => y.leave f.id)).runFault t b f.stream f.word f.iptr f.occ e

/-- UPD_PROLOGUE: the idle update unit of bay `b`'s pier begins the UPD at the front of the bay's PIER queue, unless its reads must
wait; `extra` are the cycles that headers in HBM cost (R287, R288, R295, R297, R321, R381). -/
def updPrologue (b extra : Nat) (t : TimeUnit) (d : Dev) : Dev :=
  match (d.pier (b / 16)).upd, (d.bay b).nextUpd with
  | none, some f =>
    match f.opd 0, f.opd 9 with
    | .desc st, .desc g =>
      if d.awaits b f.id then d
      else
        match d.attempt t f.await (fun w d =>
            updPrologueEffect b extra t { f with await := w } st g (d.modBay b (·.beginFlight f.id))) with
        | (none, d1) => d1
        | (some (w, _), d1) => d1.modBay b (fun y => y.modFlight f.id (fun f => { f with await := w }))
    | _, _ => d
  | _, _ => d

/-! ### The recurrence (R281, R283, R289, R292) -/

/-- What one parameter becomes: its master code, its moments, whether it was carried over, and why. -/
structure ParamOut where
  code : Nat × Bool
  m : Num
  v : Num
  frozen : Bool
  skipped : Bool
deriving DecidableEq, Repr

/-- R281 for one parameter that is not frozen; none when NANSKIP carries it over (R283). -/
def recurrence (planes flags : Nat) (cs : List Val) (c1 c2 : Val) (w m v G : Val) : Option (Val × Val × Val) :=
  let c (i : Nat) : Val := cs.getD i Val.zero
  let m1 := bit planes 0
  let m2 := bit planes 1
  let lin (a b e f : Val) : Val := rnd ((a.mul b).add (e.mul f))
  let g0 := rnd ((c 8).mul G)
  let g := if (c 5).isZero then g0 else rnd (((c 5).mul w).add g0)
  if bit flags 5 ∧ !g.isFin then none
  else
    let m' := if m1 then lin (c 0) m (c 1) g else g
    let sq := if bit flags 3 then g.abs else rnd (g.mul g)
    let v' := if m2 then (lin (c 2) v (c 3) sq).max Val.zero else Val.zero
    let n := rnd (c1.mul (if bit flags 2 then lin (c 0) m' (c 1) g else m'))
    let dn :=
      if m2 ∧ bit flags 4 then roundRoot 0 (rnd ((c2.mul v').add (c 4)))
      else if m2 then rnd ((roundRoot 0 (rnd (c2.mul v'))).add (c 4))
      else Val.one
    let u := roundDiv 0 n dn
    some (roundTo 1 (((c 7).mul w).sub ((c 6).mul u)), m', v')

/-- Code and course scale of a brick's position as a load delivers them (R168). -/
def Dev.brickCode (d : Dev) (x : Desc) (j r u : Nat) : Nat × Bool :=
  let a := x.brickAddr j
  if d.rowUnread x a r then (0, false) else d.bitsAt (8 * (a + rowBytes x.fmt * r) + elemBits x.fmt * u) (elemBits x.fmt)
def Dev.brickScale (d : Dev) (x : Desc) (j r u : Nat) : Nat × Bool :=
  d.bitsAt (8 * (x.brickAddr j + planeBytes x.fmt + 2 * r + u / 32)) 8

/-- The scaled value at a brick's position (R150, R168). -/
def Dev.brickNum (d : Dev) (x : Desc) (j r u : Nat) : Num :=
  if d.rowUnread x (x.brickAddr j) r then Num.zero
  else
    let (c, cp) := d.brickCode x j r u
    if isScaled x.fmt then
      let (s, sp) := d.brickScale x j r u
      { val := (decodeElem x.fmt [] c).scaled s, poison := cp || sp }
    else { val := decodeElem x.fmt [] c, poison := cp }

/-- The operands of a UPD's body: GRAD and the planes of both lines. -/
structure UpdOps where
  grad : Desc
  upW : Desc
  upM : Option Desc
  upV : Option Desc
  dnW : Desc
  dnM : Option Desc
  dnV : Option Desc

/-- The planes that a plan names (R276). -/
def UpdRun.ops (u : UpdRun) (g : Desc) (slot : Nat) : UpdOps :=
  let plane (line first fmt : Nat) : Desc := planeDesc g slot (line + 256 * first) fmt
  let m1 := bit u.planes 0
  let m2 := bit u.planes 1
  { grad := g
    upW := plane u.up 1 1, dnW := plane u.down 1 1
    upM := if m1 then some (plane u.up (firstM1 u.blocks) 3) else none
    dnM := if m1 then some (plane u.down (firstM1 u.blocks) 3) else none
    upV := if m2 then some (plane u.up (firstM2 u.planes u.blocks) 3) else none
    dnV := if m2 then some (plane u.down (firstM2 u.planes u.blocks) 3) else none }

/-- Whether parameter (j, r, u) is frozen (R289). -/
def Dev.isFrozen (d : Dev) (x : UpdRun) (j r u : Nat) : Bool :=
  x.mask != 0 && ((d.peek (x.mask + 512 * j + 8 * r + u / 8)).1.toNat).testBit (u % 8)

/-- The first poisoned byte that bites in brick row `r` of brick `j`: mask bytes, then codes and scales of parameters that
are not frozen, in the Up line, in GRAD where it is read, and in a lazy UPD in the row of the Down line that it merges into (R289,
R293, R295). -/
def Dev.rowBite (d : Dev) (x : UpdRun) (o : UpdOps) (grad lazy : Bool) (j r : Nat) : Option (Nat × Nat) :=
  let live := (upTo 64).filter (fun u => o.grad.validAt j r u && !d.isFrozen x j r u)
  let plane (y : Desc) : List Nat :=
    let a := y.brickAddr j
    if d.rowUnread y a r then []
    else
      live.flatMap (fun u => bytesOfBits (8 * (a + rowBytes y.fmt * r) + elemBits y.fmt * u) (elemBits y.fmt)) ++
      (if isScaled y.fmt then ([0, 1].filter (fun h => live.any (fun u => u / 32 == h))).map (fun h => a + planeBytes y.fmt + 2 * r + h)
       else [])
  let mask := if x.mask = 0 then [] else (upTo 8).map (fun k => x.mask + 512 * j + 8 * r + k)
  let line (w : Desc) (m v : Option Desc) : List Nat := plane w ++ (m.map plane).getD [] ++ (v.map plane).getD []
  let bad := (mask ++ line o.upW o.upM o.upV ++ (if grad then plane o.grad else []) ++
    (if lazy then line o.dnW o.dnM o.dnV else [])).filter (fun a => (d.peek a).2)
  bad.head?.map (fun a => (a, (bad.filter (fun b => b / 64 == a / 64)).length))

/-- What the parameters of brick row `r` of brick `j` become; `rec` is the record of its lazy row (R280, R281, R289, R292). -/
def Dev.rowOut (d : Dev) (x : UpdRun) (o : UpdOps) (step : Nat) (rec : Option RowRec) (j r : Nat) : List (Option ParamOut) :=
  let cs := x.coefs.map f32
  let c (i : Nat) : Val := cs.getD i Val.zero
  let gap := match rec with | some e => if e.last = noneStep then 0 else min (step - e.last - 1) (2 ^ 24) | none => 0
  let (c1, c2) := match rec with
    | some e => (biasFactor (bit x.flags 0) (c 0) (e.cnt + 1), biasFactor (bit x.flags 1) (c 2) (e.cnt + 1))
    | none => (c 9, c 10)
  let late (b : Val) (y : Val) : Val := if gap = 0 then y else rnd ((powVal b gap).mul y)
  (upTo 64).map (fun u =>
    if !o.grad.validAt j r u then none
    else
      let code := d.brickCode o.upW j r u
      let m := match o.upM with | some y => d.brickNum y j r u | none => Num.zero
      let v := match o.upV with | some y => d.brickNum y j r u | none => Num.zero
      let carry (sk : Bool) : ParamOut := { code := code, m := m, v := v, frozen := !sk, skipped := sk }
      if d.isFrozen x j r u then some (carry false)
      else
        match recurrence x.planes x.flags cs c1 c2 (late (c 7) (decodeFloat 1 code.1)) (late (c 0) m.val) (late (c 2) v.val)
            (d.brickNum o.grad j r u).val with
        | none => some (carry true)
        | some (w', m', v') =>
          some { code := (floatCode 1 w', false), m := { val := m', poison := false }, v := { val := v', poison := false },
                 frozen := false, skipped := false })

/-! ### Writing the Down line (R278, R282, R293, R294) -/

/-- What the body has counted, the brick rows that it has handled among them, and where a course was first clamped. -/
structure UpdCount where
  q : QCount
  rows : Nat
  clamp : Option Nat
  nanp : Nat
  frozen : Nat
  skip : Nat
deriving DecidableEq, Repr

def UpdCount.zero : UpdCount := { q := QCount.zero, rows := 0, clamp := none, nanp := 0, frozen := 0, skip := 0 }

/-- The two courses of a brick row of moments (R282). -/
def momentRow (ps : List (Option Num)) : Course × Course :=
  let k : Book := { codes := [], bad := [] }
  (quantCourse 3 false k 0 (ps.take 32), quantCourse 3 false k 0 (ps.drop 32))

/-- Count a moment row stored to a brick. -/
def UpdCount.moment (n : UpdCount) (brick : Nat) (c : Course × Course) : UpdCount :=
  let q := c.1.count.add c.2.count
  { n with q := n.q.add q, clamp := if n.clamp.isNone ∧ 0 < q.high + q.low then some brick else n.clamp }

/-- Count the parameters of a row (R283, R289, R300). -/
def UpdCount.params (n : UpdCount) (ps : List (Option ParamOut)) : UpdCount :=
  let xs := ps.filterMap id
  { n with
    rows := n.rows + b2n (xs != [])
    nanp := n.nanp + (xs.filter (fun p => !p.code.2 && !(decodeFloat 1 p.code.1).isFin)).length
    frozen := n.frozen + (xs.filter (·.frozen)).length
    skip := n.skip + (xs.filter (·.skipped)).length }

/-- Code, poison and zero test of position `u` of a moment row. -/
def courseAt (c : Course × Course) (u : Nat) : (Nat × Bool) × Bool :=
  let e := if u < 32 then c.1 else c.2
  ((if e.bad then 0 else e.codes.getD (u % 32) 0, e.bad), !e.bad && e.scale != 0xFF && e.zeros.getD (u % 32) true)

/-- Store a whole brick of a moment plane. -/
def Dev.storeMoment (t : TimeUnit) (q : Req) (y : Desc) (j : Nat) (rows : List (Course × Course)) (d : Dev) : Dev :=
  let none' : Course := { scale := 0x7F, bad := false, codes := [], zeros := [], count := QCount.zero }
  let at' (r : Nat) : Course × Course := rows.getD r (none', none')
  d.storeBrick t q y j (y.validAt j) (fun r u => (courseAt (at' r) u).1) (fun r u => (courseAt (at' r) u).2)
    { scale := fun k => let c := at' (k / 2); let e := if k % 2 = 0 then c.1 else c.2; (if e.bad then 0 else e.scale, e.bad)
      book := [], sparse := none } false

/-- Poison a result when a seal check of the UPD has failed (R357). -/
def ParamOut.spoil (bad : Bool) (p : ParamOut) : ParamOut :=
  { p with code := (p.code.1, p.code.2 || bad), m := { p.m with poison := p.m.poison || bad },
           v := { p.v with poison := p.v.poison || bad } }

/-- The planes that the update of a row reads: GRAD where it is listed, and the Up line. -/
def UpdOps.reads (o : UpdOps) (grad : Bool) : List Desc :=
  (if grad then [o.grad] else []) ++ [o.upW] ++ o.upM.toList ++ o.upV.toList

/-- The dense update of brick `j`, or the bite that stops it; `known` says that the seal checks have read its bricks. -/
def Dev.denseBrick (t : TimeUnit) (q : Req) (x : UpdRun) (o : UpdOps) (step : Nat) (known bad : Bool) (j : Nat) (n : UpdCount)
    (d : Dev) : Option (Nat × Nat) × UpdCount × Dev :=
  let d0 := if x.mask = 0 then d else d.touch t q ((upTo 512).map (x.mask + 512 * j + ·))
  let d1 := if known then d0 else (o.reads true).foldl (fun (d : Dev) y => d.touchBrick t q y j) d0
  match (upTo 64).findSome? (fun r => d1.rowBite x o true false j r) with
  | some e => (some e, n, d1)
  | none =>
    let rows := (upTo 64).map (fun r => (d1.rowOut x o step none j r).map (fun p => p.map (ParamOut.spoil bad)))
    let at' (r u : Nat) : Option ParamOut := (rows.getD r []).getD u none
    let n1 := rows.foldl (fun (n : UpdCount) ps => n.params ps) n
    let d2 := d1.storeBrick t q o.dnW j (o.dnW.validAt j)
      (fun r u => match at' r u with | some p => p.code | none => (0, false))
      (fun r u => match at' r u with | some p => zeroCode 1 p.code.1 | none => true) plainSide false
    let moment (y : Option Desc) (f : ParamOut → Num) (s : UpdCount × Dev) : UpdCount × Dev :=
      match y with
      | none => s
      | some y =>
        let cs := rows.map (fun ps => momentRow (ps.map (fun p => p.map f)))
        (cs.foldl (fun (n : UpdCount) c => n.moment (y.brickAddr j) c) s.1, s.2.storeMoment t q y j cs)
    let (n2, d3) := moment o.dnV (·.v) (moment o.dnM (·.m) (n1, d2))
    (none, n2, d3)

/-- Write one brick row into a brick of the Down line, whose row and side plane have been read, with its scales, its OCC bit and the
tag, and mend the seal by the difference. Where the old tag did not make OCC valid, the other rows count as occupied (R278, R293;
DEDUCED, log entry 137). -/
def Dev.mergeRow (t : TimeUnit) (q : Req) (y : Desc) (j r : Nat) (cs : List (Option (Nat × Bool))) (scales : List (Nat × Bool))
    (occ : Bool) (d : Dev) : Dev :=
  let a := y.brickAddr j
  let side := a + planeBytes y.fmt
  let before := d.sealOf y j
  let old := (upTo 4).map (fun k => d.peek (side + 128 + k))
  let row := ((packRun (elemBits y.fmt) (cs.map (fun c => c.getD (0, false)))).zipIdx.filter (fun e => y.byteValid j r e.2)).map
    (fun e => (a + rowBytes y.fmt * r + e.2, e.1.1, e.1.2))
  let (_, occs, valid) := d.tagOcc y a
  let rest := if valid then occs else 2 ^ 64 - 1
  let d1 := (d.putBytes t q row).putBytes t q
    (scales.zipIdx.map (fun e => (side + 2 * r + e.2, e.1.1, e.1.2)) ++
     ((toBytes 4 (makeTag y y.inner none) ++ toBytes 8 (if occ then setBit rest r else clrBit rest r)).zipIdx).map (fun e =>
       (side + 132 + e.2, e.1, false)))
  let new := ofBytes (old.map (fun v => v.1.toNat)) ^^^ before ^^^ d1.sealOf y j
  d1.putBytes t q (((toBytes 4 new).zipIdx).map (fun e => (side + 128 + e.2, e.1, (old.getD e.2 (0, false)).2)))

/-- One brick row of a listed row: updated and merged into the Down line (R291, R292). -/
def Dev.lazyRow (t : TimeUnit) (q : Req) (x : UpdRun) (o : UpdOps) (step : Nat) (bad : Bool) (rec : RowRec) (j r : Nat)
    (n : UpdCount) (d : Dev) : UpdCount × Dev :=
  let ps := (d.rowOut x o step (some rec) j r).map (fun p => p.map (ParamOut.spoil bad))
  let n1 := n.params ps
  let d1 := d.mergeRow t q o.dnW j r (ps.map (fun p => p.map (·.code))) [(0x7F, false), (0x7F, false)]
    (ps.any (fun p => match p with | some p => p.code.2 || !zeroCode 1 p.code.1 | none => false))
  let moment (y : Option Desc) (f : ParamOut → Num) (s : UpdCount × Dev) : UpdCount × Dev :=
    match y with
    | none => s
    | some y =>
      let c := momentRow (ps.map (fun p => p.map f))
      (s.1.moment (y.brickAddr j) c,
       s.2.mergeRow t q y j r (ps.zipIdx.map (fun p => p.1.map (fun _ => (courseAt c p.2).1)))
        [(if c.1.bad then 0 else c.1.scale, c.1.bad), (if c.2.bad then 0 else c.2.scale, c.2.bad)]
        (ps.zipIdx.any (fun p => p.1.isSome && !(courseAt c p.2).2)))
  moment o.dnV (·.v) (moment o.dnM (·.m) (n1, d1))

/-- One brick row of a row of the Up line's list: copied to the Down line (R291). -/
def Dev.copyRow (t : TimeUnit) (q : Req) (o : UpdOps) (bad : Bool) (j r : Nat) (d : Dev) : Dev :=
  let one (a b : Option Desc) (d : Dev) : Dev :=
    match a, b with
    | some x, some y =>
      let cs := (upTo 64).map (fun u => if o.grad.validAt j r u then (let c := d.brickCode x j r u; some (c.1, c.2 || bad)) else none)
      let scale (h : Nat) : Nat × Bool :=
        if isScaled x.fmt ∧ o.grad.validAt j r (32 * h) then (let s := d.brickScale x j r (32 * h); (s.1, s.2 || bad)) else (0x7F, false)
      d.mergeRow t q y j r cs [scale 0, scale 1]
        (cs.zipIdx.any (fun c => match c.1 with
          | some e => e.2 || !zeroCode x.fmt e.1 || (isScaled x.fmt && (scale (c.2 / 32)).1 == 0xFF &&
              !d.rowUnread x (x.brickAddr j) r)
          | none => false))
    | _, _ => d
  one o.upV o.dnV (one o.upM o.dnM (one (some o.upW) (some o.dnW) d))

/-- A lazy UPD's brick rows in the order of R277: brick and row, with the row's record and whether it is listed. -/
def UpdRun.lazyRows (x : UpdRun) (g : Desc) : List (Nat × Nat × RowRec × Bool) :=
  (upTo g.bricks).flatMap (fun j => (upTo 64).filterMap (fun r =>
    let row := 64 * (j / g.nb0) + r
    match x.recs.find? (fun e => e.row == row), x.copied.find? (fun e => e.row == row) with
    | some e, _ => some (j, r, e, true)
    | none, some e => some (j, r, e, false)
    | none, none => none))

/-- The requests for one row of a brick: its side plane, then the row where it is read (R168, R293). -/
def Dev.touchRow (t : TimeUnit) (q : Req) (y : Desc) (j r : Nat) (d : Dev) : Dev :=
  let a := y.brickAddr j
  let d1 := d.touch t q ((upTo 256).map (a + planeBytes y.fmt + ·))
  d1.touch t q (if d1.rowUnread y a r then []
    else ((upTo (rowBytes y.fmt)).filter (y.byteValid j r)).map (a + rowBytes y.fmt * r + ·))

/-- The lazy body over some brick rows; a bite stops it. `known` says that the seal checks have read the bricks of the Up line and
of GRAD. -/
def Dev.lazyFrom (t : TimeUnit) (q : Req) (x : UpdRun) (o : UpdOps) (step : Nat) (known bad : Bool) :
    List (Nat × Nat × RowRec × Bool) → UpdCount → Dev → Option (Nat × Nat) × UpdCount × Dev
  | [], n, d => (none, n, d)
  | (j, r, e, listed) :: rest, n, d =>
    let d0 := if x.mask = 0 then d else d.touch t q ((upTo 8).map (x.mask + 512 * j + 8 * r + ·))
    let reads := (if known then [] else o.reads listed) ++ [o.dnW] ++ o.dnM.toList ++ o.dnV.toList
    let d1 := reads.foldl (fun (d : Dev) y => d.touchRow t q y j r) d0
    match d1.rowBite x o listed true j r with
    | some e => (some e, n, d1)
    | none =>
      if listed then
        let (n2, d2) := d1.lazyRow t q x o step bad e j r n
        d2.lazyFrom t q x o step known bad rest n2
      else (d1.copyRow t q o bad j r).lazyFrom t q x o step known bad rest { n with rows := n.rows + 1 }

/-- The dense body over some bricks; a bite stops it. -/
def Dev.denseFrom (t : TimeUnit) (q : Req) (x : UpdRun) (o : UpdOps) (step : Nat) (known bad : Bool) :
    List Nat → UpdCount → Dev → Option (Nat × Nat) × UpdCount × Dev
  | [], n, d => (none, n, d)
  | j :: rest, n, d =>
    match d.denseBrick t q x o step known bad j n with
    | (some e, n1, d1) => (some e, n1, d1)
    | (none, n1, d1) => d1.denseFrom t q x o step known bad rest n1

/-- The bricks of one plane that a UPD reads: all of a dense one, those with a row to update or to copy of a lazy one; of GRAD only
those with a row to update. -/
def UpdRun.bricksRead (x : UpdRun) (g : Desc) (lazy grad : Bool) : List Nat :=
  if lazy then (upTo g.bricks).filter (fun j => (x.lazyRows g).any (fun e => e.1 == j && (e.2.2.2 || !grad))) else upTo g.bricks

/-- The seal checks of every brick that the body loads; the Down-line bricks that a lazy UPD merges into are not checked (R278, R293,
R356, R357; DEDUCED, log entry 137). -/
def Dev.updSeals (t : TimeUnit) (b : Nat) (f : Flight) (q : Req) (u : UpdRun) (o : UpdOps) (d : Dev) : Bool × Dev :=
  if !f.cfg.sealchk then (false, d)
  else
    let lazy := bit f.word.toNat 36
    let check (grad : Bool) (want : Option Nat) (s : Bool × Dev) (x : Desc) : Bool × Dev :=
      let d0 := if x.sealAddr = 0 then s.2 else s.2.touch t q ((upTo (4 * x.bricks)).map (x.sealAddr + ·))
      (u.bricksRead o.grad lazy grad).foldl (fun (s : Bool × Dev) w =>
        let d1 := s.2.touchBrick t q x w
        match d1.sealCheck x w want with
        | none => (s.1, d1)
        | some (which, comp, stored) => (true, d1.emit t f.part (sealRecord b f x w which comp stored))) (s.1, d0)
    (o.reads false).foldl (check false none) (check true (sparseTag f.cfg) (false, d) o.grad)

/-- The row table and the touched list of the Down line; after a failed seal check they are poisoned as every result is (R291,
R357). -/
def Dev.writeLists (t : TimeUnit) (q : Req) (x : UpdRun) (step : Nat) (bad : Bool) (d : Dev) : Dev :=
  let put (a : Nat) (bs : List Nat) (d : Dev) : Dev := d.store t q a (byteList bs) (List.replicate bs.length bad) []
  let rec' (e : RowRec) (d : Dev) : Dev :=
    put (x.down + 256 * firstRows x.planes x.blocks + 16 * e.row) (toBytes 8 e.last ++ toBytes 4 e.cnt ++ [0, 0, 0, 0]) d
  let d1 := x.recs.foldl (fun (d : Dev) e => rec' { e with last := step, cnt := e.cnt + 1 } d) d
  let d2 := x.copied.foldl (fun (d : Dev) e => rec' e d) d1
  put (x.down + 256 * firstList x.planes x.blocks x.rows) (x.listed.flatMap (toBytes 4)) d2

/-- The flight of the UPD that a unit runs. -/
def Dev.updFlight (d : Dev) (u : UpdRun) : Option Flight := (d.bay u.bay).flights.find? (fun f => f.id = u.flight)

/-- The counters and the QUANT_RANGE record of what a body has written (R282, R283, R289, R300). -/
def Dev.updCounts (t : TimeUnit) (p : Nat) (f : Flight) (slot : Nat) (n : UpdCount) (d : Dev) : Dev :=
  let d1 := d.modPier p (fun x =>
    { x with
      updCnt := vmod (vmod (vmod x.updCnt 0 (fun c => (c.addLo n.q.sat).addHi n.q.flush))
        1 (fun c => (c.addLo n.nanp).addHi n.frozen)) 3 (fun c => c.addHi n.skip) })
  match n.clamp with
  | none => d1
  | some a =>
    d1.emit t f.part { f.record 0x0A (pierSrc 0x07 p) with
      desc := BitVec.ofNat 8 slot, addr := BitVec.ofNat 52 a, count := w64 (n.q.sat + n.q.flush)
      detail := detail [(48, 4, n.q.high), (52, 4, n.q.low), (56, 4, n.q.sat), (60, 4, n.q.flush)] }

/-- What the body of a UPD does; a bite stops it where it stands, with its counts (R277 to R283, R289 to R298). -/
def updRunEffect (p stall : Nat) (t : TimeUnit) (u : UpdRun) (f : Flight) (st g : Desc) (d : Dev) : Dev :=
  let q := f.updReq u.bay
  let o := u.ops g st.slot
  let lazy := bit f.word.toNat 36
  let (bad, d1) := d.updSeals t u.bay f q u o
  let known := f.cfg.sealchk
  let (stop, n, d2) := if lazy then d1.lazyFrom t q u o f.step.toNat known bad (u.lazyRows g) UpdCount.zero
    else d1.denseFrom t q u o f.step.toNat known bad (upTo g.bricks) UpdCount.zero
  let d3 := ((d2.updBusy p ((if lazy then 2 else 1) * n.rows + stall) f.occ).modPier p (fun x =>
    { x with updCnt := vmod x.updCnt 2 (fun c => c.addHi stall) })).updCounts t p f st.slot n
  match stop with
  | some (a, n) => d3.updBite t u.bay f a n
  | none =>
    (if lazy then d3.writeLists t q u f.step.toNat bad else d3).modPier p (fun x =>
      { x with upd := some { u with phase := 1, spoil := bad } })

/-- UPD_BODY: once the Down line's LSTEP holds NONE, the update unit of pier `p` writes the Down line's bricks, and the lists of a lazy
UPD, unless its requests must wait; `stall` are the cycles it waits for memory (R277 to R283, R287, R289 to R298, R301, R381). -/
def updRunBody (p stall : Nat) (t : TimeUnit) (d : Dev) : Dev :=
  match (d.pier p).upd with
  | none => d
  | some u =>
    match d.updFlight u with
    | none => d.modPier p (fun x => { x with upd := none })
    | some f =>
      if u.phase ≠ 0 ∨ d.awaits u.bay f.id then d
      else
        match f.opd 0, f.opd 9 with
        | .desc st, .desc g =>
          match d.attempt t f.await (fun w d => updRunEffect p stall t u { f with await := w } st g d) with
          | (none, d1) => d1.modBay u.bay (fun y => y.modFlight f.id (fun f => { f with await := Await.none }))
          | (some (w, _), d1) => d1.modBay u.bay (fun y => y.modFlight f.id (fun f => { f with await := w }))
        | _, _ => d

/-- UPD_EPILOGUE: once every store of the body is visible, the Down line's header gets LSTEP = k + 1, and LCOUNT for a lazy shard; the
UPD completes once that write is visible too (R294, R297, R357). -/
def updEpilogue (p : Nat) (t : TimeUnit) (d : Dev) : Dev :=
  match (d.pier p).upd with
  | none => d
  | some u =>
    match d.updFlight u with
    | none => d.modPier p (fun x => { x with upd := none })
    | some f =>
      if u.phase ≠ 1 ∨ d.awaits u.bay f.id then d
      else
        let bs := toBytes 8 (f.step + 1).toNat ++ (if bit f.word.toNat 36 then toBytes 4 u.listed.length else [])
        match d.attempt t f.await (fun w d =>
            ((((d.store t (({ f with await := w } : Flight).updReq u.bay) u.down (byteList bs) (List.replicate bs.length u.spoil) []).updBusy p 40
              f.occ).modPier p (fun x => { x with upd := none })).finish u.bay f.id)) with
        | (none, d1) => d1
        | (some (w, _), d1) => d1.modBay u.bay (fun y => y.modFlight f.id (fun f => { f with await := w }))

end Sys2Proof.Machine
end

