-- ==== Sys2Proof/Machine/Vector.lean ====
section
/-! DEFINITION. The vector engine: VOP, VRED, VSCAN and VPERM, with their operand forms, random numbers, reduction tree and
scan order (R103, R104, R202 to R230). -/

namespace Sys2Proof.Machine

/-! ### Philox4x32-10 (R214; constants PRESUMED, log entry 10) -/

/-- One round. -/
def philoxRound (k0 k1 : Nat) (c : Nat × Nat × Nat × Nat) : Nat × Nat × Nat × Nat :=
  let p0 := 0xD2511F53 * c.1
  let p1 := 0xCD9E8D57 * c.2.2.1
  ((p1 / 2 ^ 32) ^^^ c.2.1 ^^^ k0, p1 % 2 ^ 32, (p0 / 2 ^ 32) ^^^ c.2.2.2 ^^^ k1, p0 % 2 ^ 32)

/-- The four output words of a counter under a key. -/
def philox (c : Nat × Nat × Nat × Nat) (k0 k1 : Nat) : Nat × Nat × Nat × Nat :=
  (upTo 10).foldl (fun (c : Nat × Nat × Nat × Nat) n =>
    philoxRound ((k0 + 0x9E3779B9 * n) % 2 ^ 32) ((k1 + 0xBB67AE85 * n) % 2 ^ 32) c) c

/-- The draw u of element `i` (R214). -/
def draw (c : Cfg) (step : W64) (i : Nat) : Val :=
  let seed := c.rseed.toNat
  let r := philox (i / 4 % 2 ^ 32, c.rstream.toNat, step.toNat % 2 ^ 32, step.toNat / 2 ^ 32) (seed % 2 ^ 32) (seed / 2 ^ 32)
  .fin false ((match i % 4 with | 0 => r.1 | 1 => r.2.1 | 2 => r.2.2.1 | _ => r.2.2.2) / 256) (-24)

/-! ### VOP's operations (R210 to R212) -/

/-- Whether an operation draws random numbers. -/
def vopRandom (op : Nat) : Bool := op == 0x18 || op == 0x19

def Val.ofBool (b : Bool) : Val := if b then Val.one else Val.zero

/-- A float operation, exact; the caller rounds once (R210, R211). -/
def vopFloat (op : Nat) (a b c u : Val) : Val :=
  match op with
  | 0x00 => a
  | 0x01 => a.add b
  | 0x02 => a.sub b
  | 0x03 => a.mul b
  | 0x04 => (a.mul b).add c
  | 0x05 => (a.mul b).sub c
  | 0x06 => c.sub (a.mul b)
  | 0x07 => a.max b
  | 0x08 => a.min b
  | 0x09 => (a.max b).min c
  | 0x0A => a.abs
  | 0x0B => a.neg
  | 0x0C => if a.isNan then .nan else if Val.zero.lt a then a else Val.zero
  | 0x0D => if c.isZero then b else a
  | 0x0E => Val.ofBool (b.lt a)
  | 0x0F => Val.ofBool (!a.isNan && !b.isNan && !(a.lt b))
  | 0x10 => Val.ofBool (!a.isNan && !b.isNan && !(a.lt b) && !(b.lt a))
  | 0x18 => u
  | 0x19 => if u.lt c then a.mul b else Val.zero
  | _ => a

/-- An integer operation on 32-bit words (R210, R212). -/
def vopInt (op a b i0 : Nat) : Nat :=
  let s (w : Nat) : Int := sx 32 w
  match op with
  | 0x40 => (a + b) % 2 ^ 32
  | 0x41 => (a + (2 ^ 32 - b % 2 ^ 32)) % 2 ^ 32
  | 0x42 => a * b % 2 ^ 32
  | 0x43 => if s a < s b then b else a
  | 0x44 => if s b < s a then b else a
  | 0x45 => a &&& b
  | 0x46 => a ||| b
  | 0x47 => a ^^^ b
  | 0x48 => (a <<< (b % 32)) % 2 ^ 32
  | 0x49 => a >>> (b % 32)
  | 0x4A => unsx 32 (s a / (2 ^ (b % 32) : Nat))
  | 0x4B => b2n (s b < s a)
  | 0x4C => b2n (a = b)
  | _ => (a + i0) % 2 ^ 32

/-! ### Elements (R203, R205, R206, R213) -/

/-- How the elements of an instruction are counted: over a whole destination walk, or over the present region of a tile with
or without packing. -/
structure Region2 where
  tile : Bool
  pack : Bool
  vl : Nat
  count : Nat
deriving DecidableEq, Repr

/-- Number of elements. -/
def Region2.size (g : Region2) : Nat := if g.tile then 64 * g.vl * (if g.pack then 2 else 1) else g.count

/-- Row, column and half of element `e` of a tile region. -/
def Region2.at (g : Region2) (e : Nat) : Nat × Nat × Nat :=
  if g.pack then (e / (2 * g.vl), e % (2 * g.vl) / 2, e % 2) else (e / g.vl, e % g.vl, 0)

/-- The place in a descriptor's plain walk that pairs with element `e` (R205, R206). -/
def Region2.place (g : Region2) (x : Desc) (e : Nat) : Nat :=
  if g.tile then
    let (r, c, h) := g.at e
    (if g.pack then 2 * c + h else c) + x.e 0 * r
  else e

/-- An element as a class reads it. -/
structure VElem where
  val : Val
  word : Nat
  poison : Bool
deriving DecidableEq, Repr

/-- The element of a tile operand. -/
def Bay.velem (y : Bay) (g : Region2) (cls : VClass) (n e : Nat) : VElem :=
  let (r, c, h) := g.at e
  let w := (y.cell n r c).toNat
  if g.pack then { val := decodeFloat 1 (fld w (16 * h) 16), word := 0, poison := y.halfPoison n r c h }
  else { val := (if cls = .float then f32 w else Val.zero), word := w, poison := y.cellPoison n r c }

/-- The element of a loaded descriptor (R208). -/
def Loaded.velem (l : Loaded) (cls : VClass) (n : Nat) : VElem :=
  let v := l.num n
  match cls with
  | .float => { val := rnd v.val, word := 0, poison := v.poison }
  | _ => { val := Val.zero, word := intCode 0xB v.val, poison := v.poison }

/-- A source of a vector instruction: its elements, and the device after its load. -/
def Dev.vsource (t : TimeUnit) (b : Nat) (f : Flight) (g : Region2) (cls : VClass) (o : Opd) (d : Dev) :
    (Nat → VElem) × Dev :=
  match o with
  | .tile n => let y := d.bay b; (y.velem g cls n, d)
  | .desc x =>
    let (l, d1) := d.load t b f 0x03 x (sparseTag f.cfg)
    (fun e => l.velem cls (g.place x e), d1)

/-! ### Formats of operands (R208) -/

/-- Whether a descriptor has a format of R208 for its role. -/
def vecFmt (x : Desc) (cls : VClass) (dst pack : Bool) : Bool :=
  if pack then !x.brick && x.fmt == 1
  else
    match cls with
    | .float => if dst then !x.brick && decide (x.fmt ≤ 2) else decide (x.fmt ≤ 2) || (x.brick && isScaled x.fmt)
    | .int => !x.brick && (x.fmt == 0xB || x.fmt == 0xC || x.fmt == 8 || x.fmt == 0xD)
    | .raw => false

/-- A refusal of the vector engine's instructions (R229). -/
def vecRefuse (cause field desc : Nat) : Option FaultInfo :=
  some { cls := 0x10, cause := cause, field := field, unit := 0x01, datum := 0, desc := desc }

/-- The extents that R206 wants of a descriptor beside a tile. -/
def Desc.tileShape (x : Desc) (w : Nat) : Bool := x.e 0 == w && x.e 1 == 64 && x.e 2 == 1 && x.e 3 == 1 && x.e 4 == 1

/-- One operand of a vector instruction: its field's low bit, the operand, whether it is a destination, its class. -/
structure VOpd where
  lo : Nat
  o : Opd
  dst : Bool
  cls : VClass
deriving DecidableEq, Repr

/-- The walker's shape rule of VOP and VFUNC: R206 beside a tile, else equal counts (R117, R118). -/
def pairFault (ops : List VOpd) (w : Nat) : Option FaultInfo :=
  let mixed := ops.any (fun p => p.o.isTile)
  let dst := ops.find? (·.dst)
  ops.findSome? (fun p =>
    match p.o with
    | .tile _ => none
    | .desc x =>
      let ok : Bool :=
        if mixed then x.tileShape w
        else match dst with
          | some q => (match q.o with | .desc y => x.count == y.count | .tile _ => true)
          | none => true
      if ok then none else some (unitRefuse 0x06 causeOperand p.lo x.slot))

/-- The walker's rule of equal counts among descriptors that pair element by element (R118). -/
def countFault (ops : List VOpd) : Option FaultInfo :=
  let counts := ops.filterMap (fun p => match p.o with | .desc x => some x.count | .tile _ => none)
  ops.findSome? (fun p =>
    match p.o with
    | .tile _ => none
    | .desc x => if counts.all (· == x.count) then none else some (unitRefuse 0x06 causeOperand p.lo x.slot))

/-- The format rule of R208 over some operands. -/
def fmtFault (ops : List VOpd) (pack : Bool) : Option FaultInfo :=
  ops.findSome? (fun p =>
    match p.o with
    | .tile _ => none
    | .desc x => if vecFmt x p.cls p.dst pack then none else vecRefuse causeFormat p.lo x.slot)

/-- The walker's operands of some vector operands. -/
def vwalked (ops : List VOpd) : List Walked :=
  ops.flatMap (fun p => p.o.walked p.lo (if p.dst then storeUse else loadUse))

/-! ### Counters and meter (R226, R227, R230) -/

/-- Count the chunks of an instruction and charge its cycles; `starve` are its starve cycles (R209). -/
def Dev.vecBusy (b : Nat) (f : Flight) (chunks starve : Nat) (fn : Bool) (d : Dev) : Dev :=
  (d.modBay b (fun y =>
    { y with
      vecCnt := vmod (vmod y.vecCnt 0 (fun c => (c.addLo chunks).addHi (if fn then chunks else 0))) 1
        (fun c => c.addLo starve) })).chargeCycles 2 b (chunks + starve) f.occ

/-- Write the elements of a float result (R203, R208, R211, R213, R223). -/
def Dev.vstore (t : TimeUnit) (b : Nat) (f : Flight) (g : Region2) (o : Opd) (res : Nat → Num) (d : Dev) : Dev :=
  match o with
  | .tile n =>
    d.modBay b (fun y => (upTo g.size).foldl (fun (y : Bay) e =>
      let (r, c, h) := g.at e
      let v := res e
      if g.pack then
        let w := (y.cell n r c).toNat
        y.setCell n r c (w32 (setFld w (16 * h) 16 (floatCode 1 v.val)))
          (if h = 0 then v.poison else y.halfPoison n r c 0) (if h = 1 then v.poison else y.halfPoison n r c 1)
      else y.setCell n r c (w32 (floatCode 0 v.val)) v.poison v.poison) y)
  | .desc x =>
    if g.tile then
      let w := if g.pack then 2 * g.vl else g.vl
      d.storePlain t (f.req 0x06 b) x (fun n =>
        let v := res (n % w + w * (n / w))
        (floatCode x.fmt v.val, v.poison))
    else d.storePlain t (f.req 0x06 b) x (fun n => let v := res n; (floatCode x.fmt v.val, v.poison))

/-- Write the elements of an integer or raw result (R208, R212). -/
def Dev.vstoreWord (t : TimeUnit) (b : Nat) (f : Flight) (g : Region2) (o : Opd) (res : Nat → Nat × Bool) (d : Dev) : Dev :=
  match o with
  | .tile n =>
    d.modBay b (fun y => (upTo g.size).foldl (fun (y : Bay) e =>
      let (r, c, _) := g.at e
      let v := res e
      y.setCell n r c (w32 v.1) v.2 v.2) y)
  | .desc x =>
    d.storePlain t (f.req 0x06 b) x (fun n => let v := res n; (intCode x.fmt (Val.ofInt (sx 32 v.1)), v.2))

/-! ### VOP (R103, R210, R229) -/

/-- The operands that a VOP uses, in field order. -/
def vopOpds (i : Issue) (s : VShape) : List VOpd :=
  [{ lo := 0, o := i.opd 0, dst := true, cls := s.dst }] ++
  ((upTo 3).filter (fun k => bit s.uses k)).map (fun k => { lo := 9 * (k + 1), o := i.opd (9 * (k + 1)), dst := false, cls := s.src })

/-- The shape by which the walker checks the operands of a reserved operation: DST and every source field that names a descriptor
(DESIGN CHOICE, log entry 136). -/
def Issue.reservedShape (i : Issue) : VShape :=
  { uses := ((upTo 3).filter (fun k => decide (256 ≤ fld i.w (9 * (k + 1)) 9))).foldl (fun m k => setBit m k) 0
    src := .raw, dst := .raw, pack := true }

/-- The shape of a VOP's operation, or of a reserved one. -/
def Issue.vopShape (i : Issue) : VShape := (Machine.vopShape (fld i.w 36 8)).getD i.reservedShape

/-- Every refusal of a VOP: the walker's checks come before a reserved operation (R118, R229). -/
def vopFault (i : Issue) (d : Dev) : Option FaultInfo :=
  let op := fld i.w 36 8
  let pack := bit i.w 44
  let s := i.vopShape
  let known := (vopShape op).isSome
  let ops := vopOpds i s
  let vl := i.x.live.vl.toNat
  let raw : Bool := op == 0x20 || op == 0x21 || op == 0x22
  let three := if !known then none
    else if raw then ops.findSome? (fun p => match p.o with | .tile _ => none | .desc x => vecRefuse causeFormat p.lo x.slot)
    else fmtFault ops pack
  let unused := ((upTo 3).find? (fun k => !bit s.uses k && fld i.w (9 * (k + 1)) 9 != 0)).bind (fun k =>
    vecRefuse causeReserved (9 * (k + 1)) 0)
  let many := match i.opd 0 with
    | .desc x => if vopRandom op ∧ 2 ^ 34 < x.count then vecRefuse causeOperand 0 x.slot else none
    | .tile _ => none
  firstFault [i.tilesFault (ops.map (·.lo)),
    walkerFault d i.part (vwalked ops) (pairFault ops (if pack then 2 * vl else vl)) three false,
    if !known then vecRefuse causeReserved 36 0 else none,
    unused, if pack ∧ !s.pack then vecRefuse causeFormat 44 0 else none, many]

/-- The region that a VOP or VFUNC works over. -/
def regionFor (ops : List VOpd) (pack : Bool) (vl : Nat) (dst : Opd) : Region2 :=
  { tile := ops.any (fun p => p.o.isTile), pack := pack, vl := vl
    count := match dst with | .desc x => x.count | .tile _ => 0 }

/-- The random-number index of element `e` (R214). -/
def Region2.index (g : Region2) (dst : Opd) (e : Nat) : Nat :=
  match dst with
  | .desc _ => e
  | .tile _ => let (r, c, h) := g.at e; if g.pack then 2 * (64 * r + c) + h else 64 * r + c

/-- What VOP does when it executes (R210 to R215). -/
def vopEffect (starve : Nat) (t : TimeUnit) (i : Issue) (f : Flight) (d : Dev) : Dev :=
  let op := fld i.w 36 8
  match vopShape op with
  | none => d
  | some s =>
    let ops := vopOpds i s
    let dst := f.opd 0
    let g := regionFor ops (bit i.w 44) f.cfg.vl.toNat dst
    let src (k : Nat) (d : Dev) : (Nat → VElem) × Dev :=
      if bit s.uses k then d.vsource t i.b f g s.src (f.opd (9 * (k + 1)))
      else (fun _ => { val := Val.zero, word := 0, poison := false }, d)
    let (a, d1) := src 0 d
    let (b, d2) := src 1 d1
    let (c, d3) := src 2 d2
    let bad (e : Nat) : Bool := (a e).poison || (b e).poison || (c e).poison
    let rand := vopRandom op
    let size := if g.tile then 4096 else if g.pack then ceilDiv g.count 2 else g.count
    let chunks := ceilDiv size (if rand then 128 else 512)
    let d4 := match s.dst with
      | .float =>
        d3.vstore t i.b f g dst (fun e =>
          { poison := bad e
            val :=
              if op = 0x21 then decodeFloat 1 (fld (a e).word 0 16)
              else if op = 0x22 then decodeFloat 1 (fld (a e).word 16 16)
              else if op = 0x30 then Val.ofInt (sx 32 (a e).word)
              else vopFloat op (a e).val (b e).val (c e).val (if rand then draw f.cfg f.step (g.index dst e) else Val.zero) })
      | .raw =>
        d3.vstoreWord t i.b f g dst (fun e => (floatCode 1 (a e).val + 2 ^ 16 * floatCode 1 (b e).val, bad e))
      | .int =>
        d3.vstoreWord t i.b f g dst (fun e =>
          let i0 := if g.tile then (g.at e).2.1 else match dst with | .desc x => e % x.e 0 | .tile _ => 0
          (if op = 0x31 then intCode 0xB (a e).val else vopInt op (a e).word (b e).word i0, bad e))
    (d4.vecBusy i.b f chunks starve rand).finish i.b f.id

def vopBody (starve : Nat) (t : TimeUnit) (i : Issue) (d : Dev) : Dev :=
  d.unitIssue t { i with ops := [starve] } ((vopOpds i i.vopShape).map (·.lo)) (vopFault i d) (vopEffect starve t i)

/-! ### VRED (R217 to R219) -/

/-- Combine two partial results (R219). -/
def vecCombine (op : Nat) (l r : Val) : Val :=
  if op = 0 ∨ op = 4 then rnd (l.add r) else if op = 2 then l.min r else l.max r

/-- One level of the tree: adjacent pairs combined, a left-over passed up (R218). -/
def pairUp (op : Nat) : List Val → List Val
  | [] => []
  | [x] => [x]
  | x :: y :: rest => vecCombine op x y :: pairUp op rest

/-- The root of the tree over a level of leaves; `fuel` bounds its height. -/
def treeRoot (op : Nat) : Nat → List Val → Val
  | 0, xs => xs.headD Val.zero
  | fuel + 1, xs =>
    match xs with
    | [] => Val.zero
    | [x] => x
    | _ => treeRoot op fuel (pairUp op xs)

/-- reduce_line of R218. -/
def reduceLine (op : Nat) (xs : List Val) : Val :=
  treeRoot op 128 (xs.map (fun x => if op = 3 then x.abs else if op = 4 then rnd (x.mul x) else x))

/-- The lines of an instruction along an axis: how many, how long, and the place of element `j` of line `l` in a tile region
or in a descriptor's plain walk (R217). -/
structure Lines where
  count : Nat
  len : Nat
  place : Nat → Nat → Nat

/-- The lines of a tile region; places are elements of the region. -/
def tileLines (axis vl : Nat) : Lines :=
  if axis = 0 then { count := 64, len := vl, place := fun l j => j + vl * l }
  else { count := vl, len := 64, place := fun l j => l + vl * j }

/-- The lines of a descriptor: line `l` of the plain walk of its extents with dimension AXIS at 1. -/
def Desc.lines (x : Desc) (axis : Nat) : Lines :=
  let inner := (upTo axis).foldl (fun n k => n * x.e k) 1
  { count := x.count / x.e axis, len := x.e axis
    place := fun l j => l % inner + inner * (j + x.e axis * (l / inner)) }

/-- Whether `y` has the extents of `x` with dimension AXIS at 1. -/
def Desc.isLines (x y : Desc) (axis : Nat) : Bool := (upTo 5).all (fun k => y.e k == if k = axis then 1 else x.e k)

/-- Every refusal of a VRED. -/
def vredFault (i : Issue) (d : Dev) : Option FaultInfo :=
  let axis := fld i.w 36 1
  let o := i.opd 0
  let s := i.opd 9
  let ops : List VOpd := [{ lo := 0, o := o, dst := true, cls := .float }, { lo := 9, o := s, dst := false, cls := .float }]
  let shape := match s, o with
    | .tile _, .tile _ => none
    | .desc x, .desc y =>
      if x.ndim < axis + 1 ∨ !x.isLines y axis ∨ isIntFmt y.fmt then vecRefuse causeOperand 0 y.slot else fmtFault ops false
    | _, _ => vecRefuse causeOperand 0 o.slot
  firstFault [i.tilesFault [0, 9], walkerFault d i.part (vwalked ops) none none false,
    if 4 < fld i.w 37 3 then vecRefuse causeReserved 37 0 else none, shape]

/-- The region and the lines of an operand. -/
def vecLines (o : Opd) (axis vl : Nat) : Region2 × Lines :=
  match o with
  | .tile _ => ({ tile := true, pack := false, vl := vl, count := 0 }, tileLines axis vl)
  | .desc x => ({ tile := false, pack := false, vl := vl, count := x.count }, x.lines axis)

/-- What VRED does when it executes (R217, R223). -/
def vredEffect (starve : Nat) (t : TimeUnit) (i : Issue) (f : Flight) (d : Dev) : Dev :=
  let axis := fld i.w 36 1
  let op := fld i.w 37 3
  let s := f.opd 9
  let (g, ln) := vecLines s axis f.cfg.vl.toNat
  let (src, d1) := d.vsource t i.b f g .float s
  let res := (upTo ln.count).map (fun l =>
    let es := (upTo ln.len).map (fun j => src (ln.place l j))
    ({ val := reduceLine op (es.map (·.val)), poison := es.any (·.poison) } : Num))
  let line (e : Nat) : Nat := if g.tile then (if axis = 0 then e / g.vl else e % g.vl) else e
  let (go, _) := vecLines (f.opd 0) axis f.cfg.vl.toNat
  let d2 := d1.vstore t i.b f go (f.opd 0) (fun e => res.getD (line e) Num.zero)
  (d2.vecBusy i.b f (if g.tile then 8 else ceilDiv g.count 512) starve false).finish i.b f.id

def vredBody (starve : Nat) (t : TimeUnit) (i : Issue) (d : Dev) : Dev :=
  d.unitIssue t { i with ops := [starve] } [0, 9] (vredFault i d) (vredEffect starve t i)

/-! ### VSCAN (R220, R221) -/

/-- The state of a scan inside a line: position in the chunk, prefix (alpha, beta or p), carry. -/
structure ScanAt where
  j : Nat
  alpha : Val
  beta : Val
  h : Val
  last : Val
deriving DecidableEq, Repr

/-- One element of scan_line (R221). -/
def scanStep (op : Nat) (s : ScanAt) (a b : Val) : ScanAt :=
  let h := if s.j = 0 then s.last else s.h
  if op = 3 then
    let alpha := if s.j = 0 then a else rnd (a.mul s.alpha)
    let beta := if s.j = 0 then b else rnd ((a.mul s.beta).add b)
    { j := (s.j + 1) % 8, alpha := alpha, beta := beta, h := h, last := rnd ((alpha.mul h).add beta) }
  else
    let p := if s.j = 0 then b else vecCombine op s.beta b
    { j := (s.j + 1) % 8, alpha := s.alpha, beta := p, h := h, last := vecCombine op h p }

/-- scan_line over a line's elements in scan order, from the carry: the outputs with their poison, and the final carry. -/
def scanLine (op : Nat) (carry : Num) (xs : List (Num × Num)) : List Num × Num :=
  let r := xs.foldl (fun (acc : ScanAt × Bool × List Num) x =>
    let s := scanStep op acc.1 x.1.val x.2.val
    let bad := acc.2.1 || x.1.poison || x.2.poison
    (s, bad, { val := s.last, poison := bad } :: acc.2.2))
    ({ j := 0, alpha := Val.zero, beta := Val.zero, h := carry.val, last := carry.val }, carry.poison, [])
  (r.2.2.reverse, { val := r.1.last, poison := r.2.1 })

/-- Every refusal of a VSCAN. -/
def vscanFault (i : Issue) (d : Dev) : Option FaultInfo :=
  let axis := fld i.w 36 1
  let op := fld i.w 37 2
  let fl (lo : Nat) (dst : Bool) : VOpd := { lo := lo, o := i.opd lo, dst := dst, cls := .float }
  let main := [fl 0 true, fl 9 false] ++ (if op = 3 then [fl 18 false] else [])
  let ops := main ++ [fl 27 false, fl 40 true]
  let kinds := ops.map (fun p => p.o.isTile)
  let shape :=
    if kinds.any id ∧ !(kinds.all id) then vecRefuse causeOperand 0 (i.opd 0).slot
    else
      match i.opd 9 with
      | .tile _ => none
      | .desc x =>
        if x.ndim < axis + 1 then vecRefuse causeOperand 9 x.slot
        else ops.findSome? (fun p =>
          match p.o with
          | .tile _ => none
          | .desc y =>
            let want : Bool := if p.lo = 27 ∨ p.lo = 40 then x.isLines y axis else x.sameExt y
            if !want ∨ (p.dst ∧ isIntFmt y.fmt) then vecRefuse causeOperand p.lo y.slot else none)
  let same :=
    if main.any (fun p => p.o.isTile && p.o == i.opd 40) then vecRefuse causeOperand 40 0 else none
  firstFault [i.tilesFault (ops.map (·.lo)), walkerFault d i.part (vwalked ops) (countFault main) none false, shape,
    if op ≠ 3 ∧ fld i.w 18 9 ≠ 0 then vecRefuse causeReserved 18 0 else none, same, fmtFault ops false]

/-- What VSCAN does when it executes (R220, R221, R223). -/
def vscanEffect (starve : Nat) (t : TimeUnit) (i : Issue) (f : Flight) (d : Dev) : Dev :=
  let axis := fld i.w 36 1
  let op := fld i.w 37 2
  let rev := bit i.w 39
  let vl := f.cfg.vl.toNat
  let (g, ln) := vecLines (f.opd 9) axis vl
  let (b, d1) := d.vsource t i.b f g .float (f.opd 9)
  let (a, d2) := if op = 3 then d1.vsource t i.b f g .float (f.opd 18) else (b, d1)
  let (gc, _) := vecLines (f.opd 27) axis vl
  let (c, d3) := d2.vsource t i.b f gc .float (f.opd 27)
  let num (v : VElem) : Num := { val := v.val, poison := v.poison }
  let at' (j : Nat) : Nat := if rev then ln.len - 1 - j else j
  let res := (upTo ln.count).map (fun l =>
    let carry := num (c (if g.tile then ln.place l 0 else l))
    scanLine op carry ((upTo ln.len).map (fun j =>
      let e := ln.place l (at' j)
      (if op = 3 then num (a e) else Num.zero, num (b e)))))
  let lineOf (e : Nat) : Nat :=
    if g.tile then (if axis = 0 then e / vl else e % vl)
    else
      match f.opd 9 with
      | .desc x =>
        let inner := (upTo axis).foldl (fun n k => n * x.e k) 1
        e % inner + inner * (e / (inner * x.e axis))
      | .tile _ => 0
  let posOf (e : Nat) : Nat :=
    if g.tile then (if axis = 0 then e % vl else e / vl)
    else
      match f.opd 9 with
      | .desc x => e / ((upTo axis).foldl (fun n k => n * x.e k) 1) % x.e axis
      | .tile _ => 0
  let d4 := d3.vstore t i.b f g (f.opd 0) (fun e =>
    ((res.getD (lineOf e) ([], Num.zero)).1).getD (at' (posOf e)) Num.zero)
  let (go, _) := vecLines (f.opd 40) axis vl
  let d5 := d4.vstore t i.b f go (f.opd 40) (fun e => (res.getD (if g.tile then lineOf e else e) ([], Num.zero)).2)
  let per := if op = 3 then 2 else 4
  let chunks := if g.tile then (if op = 3 then 32 else 16) else ceilDiv g.count (per * Nat.min 64 ln.count)
  (d5.vecBusy i.b f chunks starve false).finish i.b f.id

def vscanBody (starve : Nat) (t : TimeUnit) (i : Issue) (d : Dev) : Dev :=
  d.unitIssue t { i with ops := [starve] }
    ([0, 9] ++ (if fld i.w 37 2 = 3 then [18] else []) ++ [27, 40]) (vscanFault i d) (vscanEffect starve t i)

/-! ### VPERM (R103, R104, R222) -/

/-- Every refusal of a VPERM. -/
def vpermFault (i : Issue) (d : Dev) : Option FaultInfo :=
  let ops : List VOpd := [{ lo := 0, o := i.opd 0, dst := true, cls := .raw }, { lo := 9, o := i.opd 9, dst := false, cls := .raw },
    { lo := 18, o := i.opd 18, dst := false, cls := .raw }]
  firstFault [i.tilesFault [0, 9, 18], walkerFault d i.part (vwalked ops) none none false,
    (ops.find? (fun p => !p.o.isTile)).bind (fun p => vecRefuse causeOperand p.lo p.o.slot)]

/-- The first good index out of range, as row × 64 + column (R103, R222). -/
def permBad (y : Bay) (idx vl : Nat) : Option Nat :=
  ((upTo 4096).filter (fun k => k % 64 < vl)).find? (fun k =>
    let j := sx 32 (y.cell idx (k / 64) (k % 64)).toNat
    !(y.cellPoison idx (k / 64) (k % 64)) && (decide (j < 0) || decide (64 ≤ j)))

/-- The PERM_OOR record of R104. -/
def permRecord (b : Nat) (f : Flight) : EvRec := f.record 0x14 (baySrc 0x03 b)

/-- What VPERM does when it executes (R103, R104, R222, R223). -/
def vpermEffect (starve : Nat) (t : TimeUnit) (i : Issue) (f : Flight) (d : Dev) : Dev :=
  let y := d.bay i.b
  let vl := f.cfg.vl.toNat
  let dst := fld i.w 0 4
  let src := fld i.w 9 4
  let idx := fld i.w 18 4
  match permBad y idx vl with
  | some k =>
    (d.modBay i.b (fun y => y.leave f.id)).runFault t i.b i.s f.word f.iptr f.occ
      { cls := 0x14, cause := 0, field := 0xFF, unit := 0x03, datum := k, desc := 0 }
  | none =>
    let ks := (upTo 4096).filter (fun k => k % 64 < vl)
    let sel (k : Nat) : Option Nat :=
      let j := sx 32 (y.cell idx (k / 64) (k % 64)).toNat
      if 0 ≤ j ∧ j < vl then some (if bit i.w 36 then 64 * j.toNat + k % 64 else 64 * (k / 64) + j.toNat) else none
    let bad (k : Nat) : Bool := y.cellPoison idx (k / 64) (k % 64)
    let zeros := (ks.filter (fun k => (sel k).isNone && !bad k)).length
    let d1 := d.modBay i.b (fun z => ks.foldl (fun (z : Bay) k =>
      match sel k with
      | some s => z.setCell dst (k / 64) (k % 64) (y.cell src (s / 64) (s % 64)) (y.halfPoison src (s / 64) (s % 64) 0 || bad k)
          (y.halfPoison src (s / 64) (s % 64) 1 || bad k)
      | none => z.setCell dst (k / 64) (k % 64) 0 (bad k) (bad k)) z)
    let d2 := d1.modBay i.b (fun z => { z with vecCnt := vmod z.vecCnt 1 (fun c => c.addHi zeros) })
    let d3 :=
      if zeros = 0 ∨ i.x.permOor then d2
      else (d2.modStream i.b i.s (fun x => { x with permOor := true })).emit t f.part (permRecord i.b f)
    (d3.vecBusy i.b f 8 starve false).finish i.b f.id

def vpermBody (starve : Nat) (t : TimeUnit) (i : Issue) (d : Dev) : Dev :=
  d.unitIssue t { i with ops := [starve] } [0, 9, 18] (vpermFault i d) (vpermEffect starve t i)

end Sys2Proof.Machine
end

