-- ==== Sys2Proof/Machine/Collectives.lean ====
section
/-! DEFINITION. The collective engines: COLL's issue checks, chunks, sweeps, the ring and the tree, arriving collective
packets, completion and abandonment (R107, R108, R384 to R400, R420). -/

namespace Sys2Proof.Machine

/-! ### Issue checks (R108, R118, R393, R394) -/

/-- The path set of a stream's current occurrence, when its entry has TE_COLL = 1. -/
def Issue.collPath (i : Issue) (d : Dev) : Option (Occ × Option PathSet) :=
  match i.x.occ.bind d.occ with
  | some o => if o.te.coll then some (o, o.paths) else none
  | none => none

/-- Bytes of an operand as a stream: whole bricks with side planes, or the packed elements of the plain walk. -/
def Desc.streamBytes (x : Desc) : Nat :=
  if x.brick then x.bricks * (planeBytes x.fmt + 256) else ceilDiv (x.count * elemBits x.fmt) 8

/-- Units of an operand: bricks, or 64 elements (R387). -/
def Desc.collUnits (x : Desc) : Nat := if x.brick then x.bricks else ceilDiv x.count 64

/-- Units of chunk `c` of `Q` units among `n` members (R387). -/
def chunkUnits (Q n c : Nat) : Nat × Nat :=
  let q := ceilDiv Q n
  (min (c * q) Q, min ((c + 1) * q) Q)

/-- Bytes of one unit of a stream that is copied. -/
def Desc.copyUnit (x : Desc) : Nat := if x.brick then planeBytes x.fmt + 256 else 8 * elemBits x.fmt

/-- Elements of units lo to hi of a reducing SRC. -/
def Desc.unitElems (x : Desc) (lo hi : Nat) : Nat :=
  if x.brick then ((upTo (hi - lo)).map (fun w => ((upTo 4096).filter (fun k => x.validAt (lo + w) (k / 64) (k % 64))).length)).foldl (· + ·) 0
  else min (64 * hi) x.count - min (64 * lo) x.count

/-- Whether extents agree with R387 and R393; `nb` bays issue the COLL. -/
def collExtents (op nb : Nat) (ps : PathSet) (peer : Nat) (s o : Desc) : Bool :=
  match op with
  | 0 => if nb = 1 ∧ s.brick then s.sameExt o
         else s.count == nb * o.count && (!s.brick || !o.brick || (s.bricks == nb * o.bricks && s.inner == o.inner))
  | 1 => let (lo, hi) := chunkUnits s.collUnits ps.n ps.rank
         s.unitElems lo hi == nb * o.count
  | 2 => let Q := if o.brick then nb * o.bricks else ceilDiv (nb * o.count) 64
         let (lo, hi) := chunkUnits Q ps.n ps.rank
         let total := nb * o.streamBytes
         nb * s.streamBytes == min (hi * o.copyUnit) total - min (lo * o.copyUnit) total
  | 3 => ps.members.getD ps.rank 0 != peer || s.streamBytes == o.streamBytes
  | _ => s.streamBytes == o.streamBytes

/-- R394, in the order of its table. -/
def collChecks (i : Issue) (o : Occ) (ps : PathSet) (s x : Desc) (d : Dev) : Option FaultInfo :=
  let op := fld i.w 18 3
  let red := fld i.w 21 2
  let peer := fld i.w 31 12
  let no (cause field desc : Nat) : Option FaultInfo := some (unitRefuse 0x01 cause field desc)
  let plain (y : Desc) : Bool := !y.brick && isRouteFmt y.fmt
  let hbm : Bool := let (lo, hi) := x.range 0; d.inHbm lo.toNat && d.inHbm (hi - 1).toNat
  if 6 ≤ op then no causeReserved 18 0
  else if red = 3 ∨ (2 ≤ op ∧ red ≠ 0) then no causeReserved 21 0
  else if op ≤ 2 ∧ peer ≠ 0 then no causeReserved 31 0
  else if op ≤ 1 ∧ !(plain s || (s.brick && decide (3 ≤ s.fmt) && decide (s.fmt ≤ 9))) then no causeFormat 0 s.slot
  else if op ≤ 1 ∧ !(plain x || (x.brick && isScaled x.fmt)) then no causeFormat 9 x.slot
  else if op ≤ 1 ∧ ps.carry = 2 ∧ !s.brick then no causeFormat 0 s.slot
  else if ps.accdst ∧ !(!x.brick && (x.fmt == 0 || x.fmt == 1) && hbm) then no causeFormat 9 x.slot
  else if !collExtents op o.te.bays.length ps peer s x then no causeOperand 9 x.slot
  else if 3 ≤ op ∧ !ps.members.contains peer then no causeOperand 31 0
  else none

/-- Every refusal of a COLL: operand kinds, R108, the walker's checks, R394. -/
def collFault (i : Issue) (d : Dev) : Option FaultInfo :=
  let no (cause field : Nat) : Option FaultInfo := some (unitRefuse 0x01 cause field 0)
  match i.opd 0, i.opd 9 with
  | .desc s, .desc x =>
    match i.collPath d with
    | none => no causePlace 0xFF
    | some (o, none) => if fld i.w 23 8 ≠ o.te.pathset then no causeScope 23 else no causePlace 0xFF
    | some (o, some ps) =>
      if fld i.w 23 8 ≠ o.te.pathset then no causeScope 23
      else
        let ops := [({ field := 0, x := s, use := loadUse } : Walked),
          { field := 9, x := x, use := storeUse }]
        firstFault [walkerFault d i.part ops none none false, collChecks i o ps s x d]
  | .tile _, _ => no causeOperand 0
  | _, .tile _ => no causeOperand 9

/-- The count of a path set's collectives on this device, and the next (R385). -/
def Dev.nextSeq (q id : Nat) (d : Dev) : Nat × Dev :=
  let n := tabGet 0 (d.part q).collSeq id
  (n, d.modPart q (fun p => { p with collSeq := tabSet 0 p.collSeq id ((n + 1) % 0x10000) }))

/-- A COLL at issue: a CB4 DST's codebook is captured (R170), and it joins the collective that the other bays of its occurrence have issued, or opens one (R386). -/
def collStart (t : TimeUnit) (i : Issue) (f : Flight) (d0 : Dev) : Dev :=
  let d := match f.opd 9 with
    | .desc x => if x.fmt = 0xA then d0.captureBook t i.b f else d0
    | .tile _ => d0
  match f.occ.bind d.occ with
  | none => d
  | some o =>
    match o.paths with
    | none => d
    | some ps =>
      let mine (c : Coll) : Bool := c.occ == o.key && !c.running && !c.issued.any (fun e => e.1 == i.b)
      match d.colls.findIdx? mine with
      | some n =>
        { d with colls := d.colls.modify n (fun c => { c with issued := tabInsert i.b f.id c.issued }) }
      | none =>
        let (n, d1) := d.nextSeq o.key.part ps.id
        { d1 with colls := d1.colls ++ [{
            occ := o.key, ps := ps, seq := n, op := fld i.w 18 3, red := fld i.w 21 2, peer := fld i.w 31 12
            issued := [(i.b, f.id)], running := false, spoil := false, own := [], todo := [], held := [], fin := [], incl := 0
            dropc := 0, dropped := false, lastSlot := 0, ending := none, await := Await.none, step := f.step }] }

/-- The six COLL operations at issue: what they do then is to wait in the PIER queue (R108). -/
def collIssue (t : TimeUnit) (i : Issue) (d : Dev) : Dev := d.unitStart t i [0, 9] (collFault i d) (collStart t i) (fun _ d => d)

def collAllReduceBody (t : TimeUnit) (i : Issue) (d : Dev) : Dev := collIssue t i d
def collReduceScatterBody (t : TimeUnit) (i : Issue) (d : Dev) : Dev := collIssue t i d
def collAllGatherBody (t : TimeUnit) (i : Issue) (d : Dev) : Dev := collIssue t i d
def collBroadcastBody (t : TimeUnit) (i : Issue) (d : Dev) : Dev := collIssue t i d
def collSendBody (t : TimeUnit) (i : Issue) (d : Dev) : Dev := collIssue t i d
def collReceiveBody (t : TimeUnit) (i : Issue) (d : Dev) : Dev := collIssue t i d

/-! ### Shapes (R386, R387) -/

/-- The flights and operands of a collective's bays, in ascending bay order, with what the collective has waited for. -/
def Dev.collBays (d : Dev) (c : Coll) : List (Nat × Flight × Desc × Desc) :=
  c.issued.filterMap (fun e =>
    match (d.bay e.1).flights.find? (fun f => f.id = e.2) with
    | none => none
    | some f =>
      match f.opd 0, f.opd 9 with
      | .desc s, .desc x => some (e.1, { f with await := c.await }, s, x)
      | _, _ => none)

/-- The shape of a reducing collective: the first SRC, the DSTs, the units and the positions of one. -/
structure Shape where
  s : Desc
  os : List Desc
  units : Nat
  size : Nat

/-- The DST that stands for all: they differ only in their bases. -/
def Shape.o (h : Shape) : Desc := h.os.headD h.s

/-- Whether the layout follows the DST's bricks: a plain SRC and a brick-mode DST of an all-reduce. -/
def Shape.byDst (h : Shape) : Bool := !h.s.brick && h.o.brick && h.size == 4096

/-- The shape of a reducing collective (R387). -/
def collShape (op : Nat) (bays : List (Nat × Flight × Desc × Desc)) : Option Shape :=
  match bays with
  | [] => none
  | b :: _ =>
    let s := b.2.2.1
    let os := bays.map (fun x => x.2.2.2)
    let o := b.2.2.2
    if s.brick then some { s := s, os := os, units := s.bricks, size := 4096 }
    else if o.brick ∧ op = 0 then some { s := s, os := os, units := os.length * o.bricks, size := 4096 }
    else some { s := s, os := os, units := ceilDiv s.count 64, size := 64 }

/-- The element of SRC at a position of a unit. -/
def Shape.elem (h : Shape) (u k : Nat) : Option Nat :=
  if h.s.brick then h.s.elemAt u (k / 64) (k % 64)
  else if h.byDst then (h.o.elemAt (u % h.o.bricks) (k / 64) (k % 64)).map (· + u / h.o.bricks * h.o.count)
  else if 64 * u + k < h.s.count then some (64 * u + k) else none

/-- Bytes of a partial unit on the wire, by PS_CARRY, and of a final unit, by DST. -/
def Shape.partBytes (h : Shape) (carry : Nat) : Nat :=
  if carry = 2 then planeBytes h.s.fmt + 256 else h.size * (if carry = 1 then 2 else 4)
def Shape.finBytes (h : Shape) : Nat :=
  if h.o.brick then planeBytes h.o.fmt + 256 else h.size * (elemBits h.o.fmt / 8)

/-! ### Bricks as bytes (R126, R128, R129, R355) -/

/-- The image of brick `w`: its code plane and its side plane with their poison. -/
def Desc.image (x : Desc) (w : Nat) (code : Nat → Nat → Nat × Bool) (zero : Nat → Nat → Bool) (side : Side) : List (Nat × Bool) :=
  let occ := (upTo 64).foldl (fun o r =>
    if (upTo 64).any (fun p => x.validAt w r p && ((code r p).2 || !zero r p)) then setBit o r else o) 0
  let row (r : Nat) : List (Nat × Bool) :=
    packRun (elemBits x.fmt) ((upTo 64).map (fun p => if x.validAt w r p then code r p else (0, false)))
  let fed := (upTo 64).flatMap (fun r =>
    ((row r).zipIdx.filter (fun y => x.byteValid w r y.2)).map (fun y => if y.1.2 || !bit occ r then 0 else y.1.1))
  let head := ((sideBytes x side occ 0).zipIdx.filter (fun y => !(decide (128 ≤ y.2) && decide (y.2 < 132)))).map (fun y =>
    if y.1.2 then 0 else y.1.1)
  (upTo 64).flatMap row ++ sideBytes x side occ (crc32c (fed ++ head))

/-- The image of brick `w` quantised from values by R156 with m = 0 (R165, R390, R393). -/
def Desc.quantImage (x : Desc) (k : Book) (w : Nat) (src : Nat → Nat → Option Num) : List (Nat × Bool) :=
  let rows := (upTo 64).map (fun r =>
    let half (h : Nat) : Course := quantCourse x.fmt x.satinf k 0 ((upTo 32).map (fun p => src r (32 * h + p)))
    (half 0, half 1))
  let empty : Course := { scale := 0x7F, bad := false, codes := [], zeros := [], count := QCount.zero }
  let at' (r : Nat) : Course × Course := rows.getD r (empty, empty)
  x.image w (fun r p => (courseAt (at' r) p).1) (fun r p => (courseAt (at' r) p).2)
    { scale := fun j => let c := at' (j / 2); let e := if j % 2 = 0 then c.1 else c.2; (if e.bad then 0 else e.scale, e.bad)
      book := if x.fmt = 0xA then (upTo 16).map (fun c => (k.codes.getD c 0, k.bad.getD c false)) else []
      sparse := none }

/-- The value at a position of a brick image of a format that is not CB4 (R150). -/
def imageNum (fmt : Nat) (bs : List (Nat × Bool)) (k : Nat) : Num :=
  let pos := (k / 64) * 8 * rowBytes fmt + elemBits fmt * (k % 64)
  let lo := pos / 8
  let ys := (upTo ((pos + elemBits fmt + 7) / 8 - lo)).map (fun j => bs.getD (lo + j) (0, false))
  let code := fld (ofBytes (ys.map (·.1))) (pos % 8) (elemBits fmt)
  let sc := bs.getD (planeBytes fmt + 2 * (k / 64) + k % 64 / 32) (0x7F, false)
  if isScaled fmt then { val := (decodeElem fmt [] code).scaled sc.1, poison := ys.any (·.2) || sc.2 }
  else { val := decodeElem fmt [] code, poison := ys.any (·.2) }

/-! ### Partial values (R390) -/

/-- A byte with its poison as one number. -/
def packByte (b : Nat × Bool) : Nat := b.1 % 256 + (if b.2 then 256 else 0)
def unpackByte (v : Nat) : Nat × Bool := (v % 256, decide (256 ≤ v))

/-- A value of the contribution as one number: its FP32 code, and its poison above it. -/
def packNum (v : Num) : Nat := floatCode 0 v.val + (if v.poison then 2 ^ 32 else 0)
def unpackNum (n : Nat) : Num := { val := f32 (n % 2 ^ 32), poison := decide (2 ^ 32 ≤ n) }

/-- Round a unit to PS_CARRY: its wire bytes. -/
def Shape.toWire (h : Shape) (carry u : Nat) (src : Nat → Num) : List Nat :=
  let at' (k : Nat) : Option Num := (h.elem u k).map (fun _ => src k)
  if carry = 2 then (h.s.quantImage { codes := [], bad := [] } u (fun r p => at' (64 * r + p))).map packByte
  else
    let f := if carry = 1 then 1 else 0
    (upTo h.size).flatMap (fun k => match at' k with
      | some v => (toBytes (elemBits f / 8) (if v.poison then 0 else floatCode f v.val)).map (fun b => packByte (b, v.poison))
      | none => List.replicate (elemBits f / 8) 0)

/-- The values of a unit's wire bytes. -/
def Shape.ofWire (h : Shape) (carry : Nat) (bs : List Nat) (k : Nat) : Num :=
  if carry = 2 then imageNum h.s.fmt (bs.map unpackByte) k
  else
    let f := if carry = 1 then 1 else 0
    let n := elemBits f / 8
    let ys := (upTo n).map (fun j => unpackByte (bs.getD (n * k + j) 0))
    { val := decodeFloat f (ofBytes (ys.map (·.1))), poison := ys.any (·.2) }

/-- The final bytes of a unit in DST's format (R390, R393). -/
def Shape.toFinal (h : Shape) (book : Book) (u : Nat) (src : Nat → Num) : List Nat :=
  if h.o.brick then
    let swap : Bool := h.s.brick && h.s.inner != h.o.inner
    (h.o.quantImage book (u % h.o.bricks) (fun r p =>
      (h.o.elemAt (u % h.o.bricks) r p).map (fun _ => src (if swap then 64 * p + r else 64 * r + p)))).map packByte
  else
    let n := elemBits h.o.fmt / 8
    (upTo h.size).flatMap (fun k => match h.elem u k with
      | some _ => let v := src k
                  (toBytes n (if v.poison then 0 else floatCode h.o.fmt v.val)).map (fun b => packByte (b, v.poison))
      | none => List.replicate n 0)

/-- combine of R219 on values with poison. -/
def numCombine (red : Nat) (a b : Num) : Num := { val := vecCombine red a.val b.val, poison := a.poison || b.poison }

/-! ### Path packets (R372, R376) -/

/-- Send a path packet along its route; while the domain holds it waits (R62, R376, R377). -/
def Dev.sendPath (p : Packet) (d : Dev) : Dev := if !d.fab.valid then d else d.sendRouted p

/-- Send bytes lo to hi of a stream to the member of rank `r`, in packets of at most 512 bytes (R371, R388). -/
def Dev.sendChunk (c : Coll) (r lo hi incl dropc : Nat) (byte : Nat → Nat) (d : Dev) : Dev :=
  let first := lo / 32 * 32
  (upTo (ceilDiv (hi - first) 512)).foldl (fun (d : Dev) k =>
    if hi ≤ lo then d
    else
      let a := first + 512 * k
      let n := ceilDiv (min 512 (hi - a)) 32 * 32
      let bs := (upTo n).map (fun j => if lo ≤ a + j ∧ a + j < hi then unpackByte (byte (a + j)) else (0, false))
      d.sendPath { packet 0x20 false c.occ.part (c.ps.members.getD r 0) d.fab.addr.toNat
          (a / 32 + incl * 2 ^ 32 + dropc * 2 ^ 45) c.seq with
        path := true, pathid := BitVec.ofNat 16 c.ps.id, payload := byteList (bs.map (·.1))
        poisonBits := if bs.any (·.2) then bs.map (·.2) else [] }) d

/-! ### The tree (R218, R392) -/

/-- The children of rank `v` in the tree of `n` ranks, nearest first. -/
def treeKids (n v : Nat) : List Nat :=
  ((upTo 12).filter (fun i => v % 2 ^ (i + 1) == 0 && decide (v + 2 ^ i < n))).map (fun i => v + 2 ^ i)

/-- The parent of a rank above 0. -/
def treeParent (v : Nat) : Nat := v - 2 ^ (((upTo 13).find? (fun i => bit v i)).getD 0)

/-- Ranks turned so that the root is rank 0. -/
def turnRank (n root r : Nat) : Nat := (r + n - root) % n
def backRank (n root v : Nat) : Nat := (v + root) % n

/-! ### Plans (R391 to R393) -/

/-- An expected chunk. -/
def expectChunk (sender : Nat) (final : Bool) (chunk lo hi : Nat) : CollRecv :=
  { sender := sender, final := final, chunk := chunk, lo := lo, hi := hi, bytes := [], incl := 0, dropc := 0 }

/-- The chunks that a member expects, in order: units, bytes of a partial and of a final unit, and the whole final stream. -/
def collTodo (c : Coll) (units ub uf total : Nat) : List CollRecv :=
  let n := c.ps.n
  let r := c.ps.rank
  let prev := (r + n - 1) % n
  let range (b x : Nat) : Nat × Nat := let (lo, hi) := chunkUnits units n x; (min (lo * b) total, min (hi * b) total)
  let part (x : Nat) : CollRecv := let (lo, hi) := chunkUnits units n x; expectChunk prev false x (lo * ub) (hi * ub)
  let fin (x : Nat) : CollRecv := let (lo, hi) := range uf x; expectChunk prev true x lo hi
  let ringPart := (upTo (n - 1)).map (fun j => part ((r + 2 * n - j - 2) % n))
  let ringFin := (upTo (n - 1)).map (fun j => fin ((r + n - 1 - j) % n))
  let whole (s : Nat) (f : Bool) (b : Nat) : CollRecv := expectChunk s f 0 0 (if f then total else units * b)
  let all : List CollRecv := match c.op with
    | 0 =>
      if c.ps.algo = 0 then ringPart ++ ringFin
      else (treeKids n r).map (fun k => whole k false ub) ++ (if r = 0 then [] else [whole (treeParent r) true uf])
    | 1 => ringPart
    | 2 => ringFin
    | 3 =>
      let root := (c.ps.members.findIdx? (· == c.peer)).getD 0
      let v := turnRank n root r
      if v = 0 then [] else [whole (backRank n root (treeParent v)) true uf]
    | 4 => []
    | _ => [whole ((c.ps.members.findIdx? (· == c.peer)).getD 0) true uf]
  all.filter (fun e => decide (e.lo < e.hi))

/-! ### Contributions (R386, R388) -/

/-- The identity of RED (R353). -/
def redIdentity (red : Nat) : Val := if red = 1 then .inf true else if red = 2 then .inf false else Val.zero

/-- The bytes of a copied operand, with poison: brick images as loaded, the bits of invalid elements zero, or packed elements (R136). -/
def copyBytes (x : Desc) (l : Loaded) (d : Dev) : List Nat :=
  if x.brick then
    (upTo x.bricks).flatMap (fun w =>
      let a := x.brickAddr w
      (upTo (planeBytes x.fmt)).map (fun j =>
        let r := j / rowBytes x.fmt
        if !x.byteValid w r (j % rowBytes x.fmt) || d.rowUnread x a r then 0
        else let (v, p) := d.peek (a + j); packByte (v.toNat &&& x.keepBits w r (j % rowBytes x.fmt), p)) ++
      (upTo 256).map (fun j => let (v, p) := d.peek (a + planeBytes x.fmt + j); packByte (v.toNat, p)))
  else (packRun (elemBits x.fmt) ((upTo x.count).map l.code)).map packByte

/-- The first poisoned byte of an operand and how many its 64-byte block holds, over the bytes that a load reads; poison in a brick's
tag or row-occupancy mask does not bite (R353, R504). -/
def Dev.operandBite (d : Dev) (x : Desc) : Option (Nat × Nat) :=
  let addrs : List Nat :=
    if x.brick then
      (upTo x.bricks).flatMap (fun w =>
        let a := x.brickAddr w
        ((upTo 256).filter (fun k => !(decide (132 ≤ k) && decide (k < 144)))).map (a + planeBytes x.fmt + ·) ++
          (upTo 64).flatMap (fun r =>
            if d.rowUnread x a r then []
            else ((upTo (rowBytes x.fmt)).filter (x.byteValid w r)).map (a + rowBytes x.fmt * r + ·)))
    else x.plainBytes
  let bad := addrs.filter (fun a => (d.peek a).2)
  bad.head?.map (fun a => (a, (bad.filter (fun b => b / 64 == a / 64)).length))

/-- The viaduct whose engine runs a collective (R386). -/
def Coll.viaduct (c : Coll) : Nat := match c.ps.claims with | k :: _ => k.link / 8 | [] => 0

/-- The requester that a collective engine is for a flight of bay `b`. -/
def Coll.req (c : Coll) (b : Nat) (f : Flight) : Req :=
  { src := plainSrc 0x0A c.viaduct, part := f.part, func := none, occ := f.occ, flight := some (b, f.id), await := c.await }

/-- Whether this member reads its SRC: not in a receive, and in a broadcast only at the root. -/
def Coll.reads (c : Coll) : Bool := c.op != 5 && (c.op != 3 || c.ps.members.getD c.ps.rank 0 == c.peer)

/-- Read every SRC: the loads, whether a seal check failed, and the POISON_BITE record of a poisoned byte (R353, R354,
R357, R388). -/
def Dev.sweep (t : TimeUnit) (c : Coll) : List (Nat × Flight × Desc × Desc) → Dev → (List Loaded × Bool × Bool) × Dev
  | [], d => (([], false, false), d)
  | (b, f, s, _) :: rest, d =>
    let (l, d1) := d.load t b f 0x06 s (sparseTag f.cfg)
    let (bite, d2) := match d1.operandBite s with
      | none => (false, d1)
      | some (a, n) =>
        let r := biteRecord (plainSrc 0x0A c.viaduct) 2 a n (opc f.word.toNat) (d1.mbOf f)
        (true, d1.emit t f.part { f.record 0x02 (plainSrc 0x0A c.viaduct) with
          poison := true, addr := r.addr, count := r.count, detail := r.detail, desc := BitVec.ofNat 8 s.slot })
    let (r, d3) := d2.sweep t c rest
    ((l :: r.1, l.fail || r.2.1, bite || r.2.2), d3)

/-- The contribution of a reducing collective by unit and position: FP32 values combined over the bays, or the identity. -/
def contribution (c : Coll) (h : Shape) (ls : List Loaded) (dropped : Bool) : List Nat :=
  (upTo h.units).flatMap (fun u => (upTo h.size).map (fun k =>
    match h.elem u k with
    | none => 0
    | some g =>
      if dropped then packNum { val := redIdentity c.red, poison := false }
      else packNum { val := rnd (reduceLine c.red (ls.map (fun l => (l.val g).val))), poison := false }))

/-- The bytes of the own contribution as first sent: with PS_CARRY = 2 and one bay the source bricks themselves, else rounded
to PS_CARRY (R390). -/
def ownWire (c : Coll) (h : Shape) (raw : Option (List Nat)) : List Nat :=
  match raw with
  | some bs => bs
  | none => (upTo h.units).flatMap (fun u => h.toWire c.ps.carry u (fun k => unpackNum (c.own.getD (u * h.size + k) 0)))

/-- The codebook that a CB4 DST is encoded with, as the first bay's COLL captured it (R170). -/
def Dev.collBook (t : TimeUnit) (b : Nat) (f : Flight) (x : Desc) (d : Dev) : Book × Dev :=
  if x.fmt = 0xA then d.flightBook t b f else ({ codes := [], bad := [] }, d)

/-! ### Steps of a collective -/

/-- Put bytes into the final stream. -/
def Coll.putFinal (c : Coll) (lo : Nat) (bs : List Nat) : Coll :=
  { c with fin := bs.zipIdx.foldl (fun t e => tabInsert (lo + e.2) e.1 t) c.fin }

/-- The final bytes of some units from the values in `own`. -/
def Coll.finals (c : Coll) (h : Shape) (book : Book) (lo hi : Nat) : Coll :=
  (upTo (hi - lo)).foldl (fun (c : Coll) i =>
    let u := lo + i
    c.putFinal (u * h.finBytes) (h.toFinal book u (fun k => unpackNum (c.own.getD (u * h.size + k) 0)))) c

/-- A byte of the final stream. -/
def Coll.finByte (c : Coll) (a : Nat) : Nat := tabGet 0 c.fin a

/-- Combine received units with the own values, the received one first when `recvFirst`: the wire bytes, and the new values
over those units (R390, R391, R392). -/
def Coll.merge (c : Coll) (h : Shape) (lo hi : Nat) (e : CollRecv) (recvFirst : Bool) : List Nat × Coll :=
  let ub := h.partBytes c.ps.carry
  let parts := (upTo (hi - lo)).map (fun i =>
    let u := lo + i
    let bs := (upTo ub).map (fun j => tabGet 0 e.bytes (u * ub + j))
    h.toWire c.ps.carry u (fun k =>
      let mine := unpackNum (c.own.getD (u * h.size + k) 0)
      let theirs := h.ofWire c.ps.carry bs k
      if recvFirst then numCombine c.red theirs mine else numCombine c.red mine theirs))
  let vals := (parts.zipIdx).flatMap (fun p => (upTo h.size).map (fun k =>
    if (h.elem (lo + p.2) k).isSome then packNum (h.ofWire c.ps.carry p.1 k) else 0))
  (parts.flatten, { c with own := c.own.take (lo * h.size) ++ vals ++ c.own.drop (hi * h.size) })

/-- The engine's own counts as it starts. -/
def Coll.ownCounts (c : Coll) : Nat × Nat := if c.dropped then (0, 1) else (1, 0)

/-- Note counts learnt for the result. -/
def Coll.learn (c : Coll) (incl dropc : Nat) : Coll := { c with incl := incl, dropc := dropc }

/-- The whole final stream's length in bytes. -/
def Coll.total (c : Coll) (bays : List (Nat × Flight × Desc × Desc)) (h : Shape) : Nat :=
  if c.op ≤ 1 then h.units * h.finBytes
  else
    match bays with
    | [] => 0
    | b :: _ => bays.length * b.2.2.2.streamBytes

/-- Units and final unit bytes of a collective. -/
def Coll.measure (c : Coll) (bays : List (Nat × Flight × Desc × Desc)) (h : Shape) : Nat × Nat :=
  if c.op ≤ 1 then (h.units, h.finBytes)
  else if c.op = 2 then
    (if h.o.brick then bays.length * h.o.bricks else ceilDiv (bays.length * h.o.count) 64, h.o.copyUnit)
  else (1, c.total bays h)

/-- Send bytes lo to hi of the final stream to a rank. -/
def Dev.sendFinal (c : Coll) (r lo hi : Nat) (d : Dev) : Dev := d.sendChunk c r lo hi c.incl c.dropc c.finByte

/-- Bytes of chunk `x` in the final stream. -/
def Coll.finRange (c : Coll) (bays : List (Nat × Flight × Desc × Desc)) (h : Shape) (x : Nat) : Nat × Nat :=
  let (units, uf) := c.measure bays h
  let (lo, hi) := chunkUnits units c.ps.n x
  (min (lo * uf) (c.total bays h), min (hi * uf) (c.total bays h))

/-- What a member does once its own tree node is complete: rank 0 rounds and sends down, another sends up (R392). -/
def Dev.treeUp (book : Book) (bays : List (Nat × Flight × Desc × Desc)) (h : Shape) (wire : List Nat) (c : Coll) (d : Dev) : Coll × Dev :=
  if c.ps.rank = 0 then
    let c1 := c.finals h book 0 h.units
    (c1, (treeKids c.ps.n 0).foldl (fun (d : Dev) k => d.sendFinal c1 k 0 (c1.total bays h)) d)
  else (c, d.sendChunk c (treeParent c.ps.rank) 0 wire.length c.incl c.dropc (fun a => wire.getD a 0))

/-- What a member does with a chunk that has arrived whole. -/
def Dev.collStep (book : Book) (bays : List (Nat × Flight × Desc × Desc)) (h : Shape) (e : CollRecv) (c : Coll) (d : Dev) :
    Coll × Dev :=
  let n := c.ps.n
  let r := c.ps.rank
  let next := (r + 1) % n
  let bytes := (upTo (e.hi - e.lo)).map (fun j => tabGet 0 e.bytes (e.lo + j))
  if e.final then
    let c1 := (c.putFinal e.lo bytes).learn e.incl e.dropc
    match c.op with
    | 3 =>
      let root := (c.ps.members.findIdx? (· == c.peer)).getD 0
      (c1, (treeKids n (turnRank n root r)).foldl (fun (d : Dev) k => d.sendFinal c1 (backRank n root k) e.lo e.hi) d)
    | 5 => (c1, d)
    | _ =>
      if c.op = 0 ∧ c.ps.algo ≠ 0 then (c1, (treeKids n r).foldl (fun (d : Dev) k => d.sendFinal c1 k e.lo e.hi) d)
      else if e.chunk = next then (c1, d)
      else (c1, d.sendFinal c1 next e.lo e.hi)
  else
    let (oi, od) := c.ownCounts
    if c.op = 0 ∧ c.ps.algo ≠ 0 then
      let c1 := { c with held := c.held ++ [e] }
      if c1.todo.any (fun x => !x.final) then (c1, d)
      else
        let order := (treeKids n r).filterMap (fun k => c1.held.find? (fun x => x.sender == k))
        let (wire, c2) := order.foldl (fun (s : List Nat × Coll) x =>
          let (w, c') := s.2.merge h 0 h.units x false
          (w, c'.learn (c'.incl + x.incl) (c'.dropc + x.dropc))) (([] : List Nat), c1.learn oi od)
        d.treeUp book bays h wire c2
    else
      let (lo, hi) := chunkUnits h.units n e.chunk
      let (wire, c1) := c.merge h lo hi e true
      let c2 := c1.learn (e.incl + oi) (e.dropc + od)
      if e.chunk = r then
        if c.op = 0 then
          let c3 := c2.finals h book lo hi
          let (a, b) := c3.finRange bays h r
          (c3, d.sendFinal c3 next a b)
        else (c2, d)
      else
        (c2, d.sendChunk c2 next e.lo e.hi c2.incl c2.dropc (fun a => wire.getD (a - e.lo) 0))

/-- What a member sends as it starts (R391, R392, R393). -/
def Dev.collFirst (book : Book) (bays : List (Nat × Flight × Desc × Desc)) (h : Shape) (raw : Option (List Nat)) (c : Coll) (d : Dev) :
    Coll × Dev :=
  let n := c.ps.n
  let r := c.ps.rank
  let next := (r + 1) % n
  let (oi, od) := c.ownCounts
  let c0 := c.learn oi od
  match c.op with
  | 2 =>
    let (lo, hi) := c.finRange bays h r
    let c1 := { (c.putFinal lo (c.own.take (hi - lo))) with incl := 0, dropc := 0 }
    (c1, if n = 1 then d else d.sendFinal c1 next lo hi)
  | 3 =>
    let root := (c.ps.members.findIdx? (· == c.peer)).getD 0
    if r = root then
      let c1 := { (c.putFinal 0 c.own) with incl := 0, dropc := 0 }
      (c1, (treeKids n 0).foldl (fun (d : Dev) k => d.sendFinal c1 (backRank n root k) 0 (c1.total bays h)) d)
    else (c, d)
  | 4 =>
    let dest := (c.ps.members.findIdx? (· == c.peer)).getD 0
    (c, d.sendChunk c dest 0 c.own.length 0 0 (fun a => c.own.getD a 0))
  | 5 => (c, d)
  | _ =>
    if n = 1 then (if c.op = 0 then c0.finals h book 0 h.units else c0, d)
    else
      let wire := ownWire c h raw
      let ub := h.partBytes c.ps.carry
      if c.op = 0 ∧ c.ps.algo ≠ 0 then
        (if (treeKids n r).isEmpty then d.treeUp book bays h wire c0 else (c0, d))
      else
        let (lo, hi) := chunkUnits h.units n ((r + n - 1) % n)
        (c0, d.sendChunk c0 next (lo * ub) (hi * ub) oi od (fun a => wire.getD a 0))

/-- Whether everything that stands in the PIER queue before a flight has left it (R80). -/
def Bay.atFront (y : Bay) (id : Nat) : Bool :=
  y.flights.any (fun f => f.id == id) && (y.flights.takeWhile (fun f => f.id != id)).all (fun f => f.queue != 5 || f.begun)

/-- The line slot less the shift, in which slots in HOLD do not count (R399). -/
def Dev.countSlot (t : TimeUnit) (d : Dev) : Nat :=
  (if d.hold.paused then min t.slot (d.hold.pauseSlot.getD t.slot) else t.slot) - d.shift.toNat

/-- Whether the engine of a collective may begin it (R62, R80, R108, R386). -/
def Dev.collReady (t : TimeUnit) (d : Dev) (c : Coll) : Bool :=
  match d.occ c.occ with
  | none => false
  | some o =>
    !c.running && !d.hold.paused && d.running && o.te.bays.all (fun b => c.issued.any (fun e => e.1 == b)) &&
    decide (d.depSlot o ≤ t.slot) &&
    c.issued.all (fun e => (d.bay e.1).atFront e.2) &&
    !d.colls.any (fun x => x.running && x.ps.id == c.ps.id && x.occ.part == c.occ.part) &&
    decide ((d.colls.filter (fun x => x.running && x.viaduct == c.viaduct)).length < 8)

/-- The sweep, the contribution and the first packets of the `n`-th collective (R386, R388). -/
def Dev.collBegin (t : TimeUnit) (n : Nat) (c : Coll) (d : Dev) : Dev :=
  let bays := d.collBays c
  match collShape c.op bays, bays with
  | some h, (b, f, s, x) :: _ =>
    let ((ls, fail, bite), d1) := if c.reads then d.sweep t c bays else (([], false, false), d)
    let dropped := bite && decide (c.op ≤ 1)
    let own := if c.op ≤ 1 then contribution c h ls dropped
      else (bays.zip ls).flatMap (fun e => copyBytes e.1.2.2.1 e.2 d1)
    let raw := if c.op ≤ 1 ∧ c.ps.carry = 2 ∧ bays.length = 1 ∧ !dropped then
        (ls.head?).map (fun l => copyBytes s l d1)
      else none
    let (book, d2) := d1.collBook t b f x
    let c1 := { c with running := true, spoil := fail, own := own, dropped := dropped, lastSlot := d.countSlot t, await := Await.none }
    let (units, uf) := c1.measure bays h
    let c2 := { c1 with todo := collTodo c1 units (h.partBytes c.ps.carry) uf (c1.total bays h) }
    let (c3, d3) := d2.collFirst book bays h raw c2
    { d3 with colls := d3.colls.set n c3 }
  | _, _ => d

/-- Whether a read of a collective's flights awaits its answer. -/
def Dev.collAwaits (d : Dev) (c : Coll) : Bool := c.issued.any (fun e => d.awaitsRead e.1 e.2)

/-- What a step of the `n`-th collective comes to, given what it has waited for: it is made whole, or waits (R321, R323, R381). -/
def Dev.collTry (t : TimeUnit) (n : Nat) (c : Coll) (step : Coll → Dev → Dev) (d : Dev) : Dev :=
  match d.attempt t c.await (fun w => step { c with await := w }) with
  | (none, d1) => d1
  | (some (w, _), d1) => { d1 with colls := d1.colls.set n { c with await := w } }

/-- COLL_ENGINE_START: the engine begins the `n`-th issued collective, whose COLLs leave the PIER queue. A sweep that reads through a
peer or a host window sends its reads first, and the collective begins once their answers have come (R80, R381, R386). -/
def collEngineStart (n : Nat) (t : TimeUnit) (d : Dev) : Dev :=
  match d.colls[n]? with
  | none => d
  | some c =>
    if !d.collReady t c ∨ d.collAwaits c then d
    else (c.issued.foldl (fun (d : Dev) e => d.modBay e.1 (·.beginFlight e.2)) d).collTry t n c (fun c => Dev.collBegin t n c)

/-! ### Arriving packets (R400) -/

/-- The running collective that a COLL packet names: partition, PS_ID and sequence. -/
def Dev.collOf (d : Dev) (q id seq : Nat) : Option Nat :=
  d.colls.findIdx? (fun c => c.running && c.occ.part == q && c.ps.id == id && c.seq == seq)

/-- A COLL packet for this device: it is taken into the chunk that its sender is expected to send, or refused (R391, R392,
R400). Answers false when refused. -/
def Dev.collArrive (t : TimeUnit) (q : Nat) (p : Packet) (d : Dev) : Bool × Dev :=
  match d.collOf q p.pathid.toNat p.tag.toNat with
  | none => (false, d)
  | some n =>
    match d.colls[n]? with
    | none => (false, d)
    | some c =>
      match c.todo.findIdx? (fun e => c.ps.members.getD e.sender 0 == p.saddr.toNat) with
      | none => (false, d)
      | some i =>
        match c.todo[i]? with
        | none => (false, d)
        | some e =>
          let a := 32 * fld p.arg.toNat 0 32
          if a < e.lo / 32 * 32 ∨ e.hi ≤ a then (false, d)
          else
            let bytes := (p.payload.zipIdx).foldl (fun t y =>
              let k := a + y.2
              if e.lo ≤ k ∧ k < e.hi then
                tabInsert k (packByte (y.1.toNat, p.poisonBits.getD y.2 false)) (tabDrop t (· == k)) else t) e.bytes
            let e1 := { e with bytes := bytes, incl := fld p.arg.toNat 32 13, dropc := fld p.arg.toNat 45 13 }
            let c0 := { c with lastSlot := d.countSlot t }
            if bytes.length < e.hi - e.lo then (true, { d with colls := d.colls.set n { c0 with todo := c.todo.set i e1 } })
            else
              let bays := d.collBays c
              match collShape c.op bays, bays with
              | some h, (b, f, _, x) :: _ =>
                let (book, d1) := d.collBook t b f x
                let (c1, d2) := d1.collStep book bays h e1 { c0 with todo := c.todo.eraseIdx i }
                (true, { d2 with colls := d2.colls.set n c1 })
              | _, _ => (true, d)

/-! ### Completion (R389, R393, R420) -/

/-- Store final bytes of a DST of a collective from a byte stream, the bits of invalid elements zero (R136). -/
def Dev.storeStream (t : TimeUnit) (q : Req) (x : Desc) (acc spoil : Bool) (byte : Nat → Nat) (d : Dev) : Dev :=
  let get (a : Nat) : Nat × Bool := let (v, p) := unpackByte (byte a); (if spoil then 0 else v, p || spoil)
  if x.brick then
    (upTo x.bricks).foldl (fun (d : Dev) w =>
      let base := w * (planeBytes x.fmt + 256)
      let a := x.brickAddr w
      let plane := (upTo 64).flatMap (fun r => ((upTo (rowBytes x.fmt)).filter (x.byteValid w r)).map (fun j =>
        let o := rowBytes x.fmt * r + j
        let (v, p) := get (base + o)
        (a + o, v &&& x.keepBits w r j, p)))
      let side := (upTo 256).map (fun j => let (v, p) := get (base + planeBytes x.fmt + j); (a + planeBytes x.fmt + j, v, p))
      (d.putBytes t q plane).putBytes t q side) d
  else
    let bits := elemBits x.fmt
    let code (n : Nat) : Nat × Bool :=
      let lo := n * bits / 8
      let ys := (upTo ((n * bits + bits + 7) / 8 - lo)).map (fun j => get (lo + j))
      (fld (ofBytes (ys.map (·.1))) (n * bits % 8) bits, ys.any (·.2))
    if acc then d.accumulateAll t q x 1 code else d.storePlain t q x code

/-- The elements of an operand in unit order: bricks, rows and positions, or the plain walk. -/
def Desc.unitOrder (x : Desc) : List Nat :=
  if x.brick then (upTo x.bricks).flatMap (fun w => (upTo 4096).filterMap (fun k => x.elemAt w (k / 64) (k % 64)))
  else upTo x.count

/-- The bytes of DST `j` in its own order, from the unit-ordered values `vs` that fall to it (R386, R393). -/
def Desc.valueStream (x : Desc) (book : Book) (vs : List Num) : List Nat :=
  let tab := (x.unitOrder.zip vs).foldl (fun t e => tabInsert e.1 (packNum e.2) t) ([] : List (Nat × Nat))
  let src (n : Nat) : Num := unpackNum (tabGet 0 tab n)
  if x.brick then
    (upTo x.bricks).flatMap (fun w => (x.quantImage book w (fun r p => (x.elemAt w r p).map src)).map packByte)
  else
    let n := elemBits x.fmt / 8
    (upTo x.count).flatMap (fun k =>
      let v := src k
      (toBytes n (if v.poison then 0 else floatCode x.fmt v.val)).map (fun b => packByte (b, v.poison)))

/-- The DST streams of a finished collective, in bay order. -/
def Coll.results (c : Coll) (book : Book) (bays : List (Nat × Flight × Desc × Desc)) (h : Shape) : List (List Nat) :=
  let nb := bays.length
  if c.op = 1 ∨ (c.op = 0 ∧ !h.o.brick) then
    let (lo, hi) := if c.op = 1 then chunkUnits h.units c.ps.n c.ps.rank else (0, h.units)
    let nbytes := elemBits h.o.fmt / 8
    let val (u k : Nat) : Num :=
      if c.op = 1 then unpackNum (c.own.getD (u * h.size + k) 0)
      else
        let ys := (upTo nbytes).map (fun j => unpackByte (c.finByte (u * h.finBytes + nbytes * k + j)))
        { val := decodeFloat h.o.fmt (ofBytes (ys.map (·.1))), poison := ys.any (·.2) }
    let items := (upTo (hi - lo)).flatMap (fun i => (upTo h.size).filterMap (fun k =>
      (h.elem (lo + i) k).map (fun g => (g, val (lo + i) k))))
    let straight : Bool := c.op == 0 && nb == 1
    bays.zipIdx.map (fun (b, j) =>
      let x := b.2.2.2
      let mine := (items.drop (j * x.count)).take x.count
      if straight then
        let tab := mine.foldl (fun t e => tabInsert e.1 (packNum e.2) t) ([] : List (Nat × Nat))
        x.valueStream book (x.unitOrder.map (fun n => unpackNum (tabGet 0 tab n)))
      else x.valueStream book (mine.map (·.2)))
  else
    let len := match bays with
      | [] => 0
      | b :: _ => if c.op = 0 then b.2.2.2.bricks * h.finBytes else b.2.2.2.streamBytes
    (upTo nb).map (fun j => (upTo len).map (fun a => c.finByte (j * len + a)))

/-- INCL of a collective's record: n − DROPC for a completed reducing operation (R389). -/
def Coll.included (c : Coll) : Nat := if c.op ≤ 1 ∧ c.ending.isNone then c.ps.n - c.dropc else c.incl

/-- The 32 bytes of a status record (R389). -/
def Coll.status (c : Coll) (state cause who : Nat) : List Nat :=
  toBytes 8 c.step.toNat ++ toBytes 2 c.seq ++ toBytes 2 c.ps.n ++ toBytes 2 c.included ++ toBytes 2 c.dropc ++ [state, cause] ++
  toBytes 2 who ++ List.replicate 12 0

/-- The results of a collective's flights are written and its record leaves the engine. -/
def Dev.collClose (n : Nat) (c : Coll) (d : Dev) : Dev :=
  c.issued.foldl (fun (d : Dev) e => d.finish e.1 e.2) { d with colls := d.colls.eraseIdx n }

/-- DST and status record of a collective that ends: its results, or poison where it is abandoned (R389, R399, R420). -/
def Dev.collFinish (t : TimeUnit) (n : Nat) (c : Coll) (d : Dev) : Dev :=
  let bays := d.collBays c
  match collShape c.op bays, bays with
  | some h, (b, f, _, x) :: _ =>
    match c.ending with
    | some (cause, who) =>
      let d1 := if c.op = 4 then d
        else bays.foldl (fun (d : Dev) e => d.storeStream t (c.req e.1 e.2.1) e.2.2.2 false true (fun _ => 0)) d
      (d1.store t (c.req b f) c.ps.stat (byteList (c.status 1 cause who)) [] []).collClose n c
    | none =>
      let (book, d0) := d.collBook t b f x
      let d1 := if c.op = 4 then d0
        else (bays.zip (c.results book bays h)).foldl (fun (d : Dev) e =>
          d.storeStream t (c.req e.1.1 e.1.2.1) e.1.2.2.2 c.ps.accdst c.spoil (fun a => e.2.getD a 0)) d0
      let d2 := d1.store t (c.req b f) c.ps.stat (byteList (c.status 0 0 0)) [] []
      let mb := match d2.occ c.occ with | some o => o.te.mb | none => 0xFF
      let d3 := if c.op ≤ 1 ∧ 0 < c.dropc then
          d2.emitStep t (some c.occ.part) { record 0x0E (plainSrc 0x0A c.viaduct) with
            entry := w32 c.occ.entry, count := w64 c.dropc
            detail := detail [(48, 2, c.included), (50, 2, c.ps.n), (52, 2, c.ps.id), (54, 2, c.seq), (56, 1, b2n c.dropped), (57, 1, mb)] }
            (some c.step)
        else d2
      d3.collClose n c
  | _, _ => d.collClose n c

/-- COLL_COMPLETE: the `n`-th collective, with nothing more to come or abandoned, writes DST and its status record (R389, R399,
R420). -/
def collComplete (n : Nat) (t : TimeUnit) (d : Dev) : Dev :=
  match d.colls[n]? with
  | none => d
  | some c =>
    if !c.running ∨ c.todo ≠ [] ∨ d.collAwaits c then d else d.collTry t n c (fun c => Dev.collFinish t n c)

/-! ### Partners late or gone (R398, R399) -/

/-- Drop the packets of a collective that have not been sent (R399). -/
def Dev.dropPackets (c : Coll) (d : Dev) : Dev :=
  { d with links := d.links.map (fun k => { k with blocked := k.blocked.filter (fun p =>
      !(p.typ == 0x20 && p.saddr == d.fab.addr && p.pathid.toNat == c.ps.id && p.tag.toNat == c.seq && p.part.toNat == c.occ.part)) }) }

/-- Abandon the `n`-th collective: it stops sending, its occurrence is withdrawn, DST is poisoned and the status record says so,
at once or, where its memory serves no request now, at COLL_COMPLETE (R399). -/
def Dev.abandon (t : TimeUnit) (n cause who : Nat) (d : Dev) : Dev :=
  match d.colls[n]? with
  | none => d
  | some c =>
    let c1 := { c with ending := some (cause, who), todo := [], held := [] }
    collComplete n t ((({ d with colls := d.colls.set n c1 } : Dev).dropPackets c).withdraw t latePeer noSlot c.occ)

/-- Whether the watchdog of a collective has run out (R399). -/
def Dev.watchdogDue (t : TimeUnit) (d : Dev) (c : Coll) : Bool :=
  let from' := match d.occ c.occ with
    | none => c.lastSlot
    | some o =>
      match o.heard with
      | some (none, s) => max c.lastSlot s
      | some (some e, _) => max c.lastSlot (max (d.promise o - d.shift.toNat) e)
      | none => max c.lastSlot (d.promise o - d.shift.toNat)
  c.running && c.ending.isNone && !d.hold.paused && decide (from' + d.fab.cwd.toNat ≤ d.countSlot t)

/-- COLL_WATCHDOG: the `n`-th collective has seen no packet for LNK_CWD.SLOTS slots: ABANDON goes to every member, and it is
abandoned (R399). -/
def collWatchdog (n : Nat) (t : TimeUnit) (d : Dev) : Dev :=
  match d.colls[n]? with
  | none => d
  | some c =>
    if !d.watchdogDue t c then d
    else
      let me := d.fab.addr.toNat
      let d1 := ((upTo c.ps.n).filter (· != c.ps.rank)).foldl (fun (d : Dev) r =>
        d.sendRouted (notice d 6 0 me c.ps.id 0 c.seq (c.ps.members.getD r 0))) d
      d1.abandon t n 1 me

/-- An ABANDON notice with a matching sequence (R399). -/
def abandonNotice (init id seq : Nat) (t : TimeUnit) (d : Dev) : Dev :=
  match d.colls.findIdx? (fun c => c.running && c.ending.isNone && c.ps.id == id && c.seq == seq) with
  | none => d
  | some n => d.abandon t n 2 init

/-- A PEERLATE notice: the undelivered TE_COLL occurrences of the path set, each entry's next one among them, are withdrawn with cause
PEER and keep the slot for the watchdog of their collectives (R57, R398, R399; DEDUCED, log entry 75). -/
def peerLate (id slot : Nat) (t : TimeUnit) (d : Dev) : Dev :=
  let path (ps : Option PathSet) : Bool := match ps with | some ps => ps.id == id | none => false
  let hit (o : Occ) : Bool := o.te.coll && path o.paths
  let d0 := d.makeNext t.slot (fun tt te => te.coll && path (tt.pathSet te.pathset))
  let heard := (if slot = noSlot then none else some (slot - d.shift.toNat), d.countSlot t)
  let d1 : Dev := { d0 with parts := d0.parts.map (fun p =>
    { p with occs := p.occs.map (fun o => if hit o then { o with heard := some heard } else o) }) }
  (d1.openOccs.filter hit).foldl (fun (d : Dev) o => d.withdraw t latePeer slot o.key) d1

end Sys2Proof.Machine
end

