-- ==== Sys2Proof/Machine/Commands.lean ====
section
/-! DEFINITION. How a command's effect becomes an outcome: each lift runs an effect on the line-time unit, on the rest of
the device, or on both, and leaves the queue as it is. Every command of the block completes (R36, R478). -/

namespace Sys2Proof.Machine

/-- Answer the state in which the device has become `d`. -/
def State.withDev (s : State) (d : Dev) : State := { s with dev := d }

/-- Answer the state in which the line-time unit has become `t`. -/
def State.withTime (s : State) (t : TimeUnit) : State := { s with time := t }

/-- An effect on the device that reads line time. -/
def State.run (s : State) (f : TimeUnit → Dev → Dev) : Host.Outcome State Fault Refusal :=
  .next (s.withDev (f s.time s.dev))

/-- An effect on the device alone. -/
def State.runDev (s : State) (f : Dev → Dev) : Host.Outcome State Fault Refusal := .next (s.withDev (f s.dev))

/-- An effect on the line-time unit alone. -/
def State.runTime (s : State) (f : TimeUnit → TimeUnit) : Host.Outcome State Fault Refusal := .next (s.withTime (f s.time))

/-- An effect on the line-time unit and the device. -/
def State.runBoth (s : State) (f : TimeUnit → Dev → TimeUnit × Dev) : Host.Outcome State Fault Refusal :=
  .next ((s.withTime (f s.time s.dev).1).withDev (f s.time s.dev).2)

end Sys2Proof.Machine
end

