-- ==== Sys2Proof/Machine/Functions.lean ====
section
/-! DEFINITION. Function tables, VFUNC, RMS normalisation and soft maximum (R216, R231 to R254). -/

namespace Sys2Proof.Machine

/-! ### Functions (R216, R233) -/

/-- The kind of a function's table. -/
inductive FnKind where
  | direct | mantissa | reduced
deriving DecidableEq, Repr

/-- A function: its kind, log2 of its segments per binade, and for a direct table the exponent at which its large rule
begins (R233). -/
structure FnShape where
  kind : FnKind
  seg : Nat
  top : Int
deriving DecidableEq, Repr

def fnShape (fn : Nat) : Option FnShape :=
  let dir (top : Int) : Option FnShape := some { kind := .direct, seg := 5, top := top }
  let der (top : Int) : Option FnShape := some { kind := .direct, seg := 4, top := top }
  match fn with
  | 0x01 => dir 7
  | 0x02 => dir 8
  | 0x03 => some { kind := .mantissa, seg := 5, top := 1 }
  | 0x04 => some { kind := .mantissa, seg := 5, top := 1 }
  | 0x05 => some { kind := .mantissa, seg := 5, top := 1 }
  | 0x06 => some { kind := .mantissa, seg := 5, top := 2 }
  | 0x07 => some { kind := .mantissa, seg := 5, top := 2 }
  | 0x08 => dir 7
  | 0x09 => dir 4
  | 0x0A => dir 7
  | 0x0B => dir 4
  | 0x0C => dir 4
  | 0x0D => dir 7
  | 0x0E => dir 3
  | 0x0F => some { kind := .reduced, seg := 5, top := 0 }
  | 0x10 => some { kind := .reduced, seg := 5, top := 0 }
  | 0x21 => der 7
  | 0x22 => der 4
  | 0x23 => der 7
  | 0x24 => der 4
  | 0x25 => der 4
  | _ => none

/-! ### Constants -/

def Val.half : Val := .fin false 1 (-1)
def Val.quarter : Val := .fin false 1 (-2)

/-- ln 2, 2/√π and √(2/π) as FP32 (R235). -/
def ln2F : Val := f32 0x3F317218
def twoRootPi : Val := f32 0x3F906EBB
def rootTwoPi : Val := f32 0x3F4C422A

/-- L: ln 2 to 48 significant bits (R236). -/
def ln2L : Val := .fin false 0xB17217F7D1CF (-48)

/-- ⌊π / 2 × 2^1400⌋ (R237; DESIGN CHOICE, log entry 24). -/
def halfPi : Nat := 0x1921fb54442d18469898cc51701b839a252049c1114cf98e804177d4c76273644a29410f31c6809bbdf2a33679a748636605614dbe4be286e9fc26adadaa3848bc90b6aecc4bcfd8de89885d34c6fdad617feb96de80d6fdbdc70d7f6b5133f4b5d3e4822f8963fcc9250cca3d9c8b67b8400f97142c77e0b31b4906c38aba734d22c7f51fa499ebf06caba47b9475b2c38c5e6ac410aa5773daa520ee12d2cdace186a9c95793009e2e8d811943042

/-! ### Segments (R234, R241) -/

/-- The exact value at a segment's start where R241 fixes it: EXP2 at integers, and m = 1 of the mantissa tables. -/
def fnStart (fn : Nat) (neg : Bool) (e : Int) (j : Nat) : Option Val :=
  if fn = 0x02 then
    let n : Nat := 32 + j
    if e ≤ 5 ∧ 0 ≤ e then
      let k := 2 ^ (5 - e).toNat
      if n % k = 0 then some (.fin false 1 (if neg then -((n / k : Nat) : Int) else ((n / k : Nat) : Int))) else none
    else none
  else if e = 0 ∧ j = 0 then
    if fn = 0x03 ∨ fn = 0x04 then some Val.zero
    else if fn = 0x05 ∨ fn = 0x06 ∨ fn = 0x07 then some Val.one
    else none
  else none

/-- The segment of a magnitude: its binade, its index, its start (R234). -/
def segmentOf (seg man : Nat) (exp : Int) : Int × Nat × Val :=
  let l := Nat.log2 man
  let e := (l : Int) + exp
  let j := if seg ≤ l then (man - 2 ^ l) >>> (l - seg) else (man - 2 ^ l) <<< (seg - l)
  (e, j, .fin false (2 ^ seg + j) (e - seg))

/-- v of R234: the segment's polynomial at x, not rounded; at the start of a segment that R241 fixes, the exact value, whatever the
other coefficients are. -/
def evalSegment (rev fn seg : Nat) (neg : Bool) (man : Nat) (exp : Int) : Val :=
  let (e, j, start) := segmentOf seg man exp
  let c (k : Nat) : Val := f32 (Config.fnCoef rev fn neg e j k).toNat
  let s := Config.fnExp rev fn neg e j
  let x : Val := .fin neg man exp
  let t := x.sub (if neg then start.neg else start)
  let u := rnd (((c 3).mul t).add (c 2))
  let u' := rnd ((u.mul t).add (c 1))
  match fnStart fn neg e j with
  | some v => if t.isZero then v else ((u'.mul t).shift s).add v
  | none => ((u'.mul t).add (c 0)).shift s

/-- Whether a value is an integer n with 64 ≤ |n| < 256, and which (R241). -/
def wideInt (neg : Bool) (man : Nat) (exp : Int) : Option Int :=
  let n : Nat := if 0 ≤ exp then man <<< exp.toNat else man >>> (-exp).toNat
  let whole : Bool := decide (0 ≤ exp) || man % 2 ^ (-exp).toNat == 0
  if whole ∧ 64 ≤ n ∧ n < 256 then some (if neg then -(n : Int) else n) else none

/-- The small rule: v = a + b × x (R235). -/
def smallRule (fn : Nat) (x : Val) : Val :=
  match fn with
  | 0x01 => Val.one.add x
  | 0x02 => Val.one.add (ln2F.mul x)
  | 0x08 => Val.half.add (Val.quarter.mul x)
  | 0x09 => x
  | 0x0A => Val.half.mul x
  | 0x0B => Val.half.mul x
  | 0x0C => Val.half.mul x
  | 0x0D => ln2F.add (Val.half.mul x)
  | 0x0E => twoRootPi.mul x
  | 0x21 => Val.quarter
  | 0x22 => Val.one
  | 0x23 => Val.half.add (Val.half.mul x)
  | _ => Val.half.add (rootTwoPi.mul x)

/-- The large rule (R235). -/
def largeRule (fn : Nat) (neg : Bool) (x : Val) : Val :=
  match fn with
  | 0x01 => if neg then Val.zero else .inf false
  | 0x02 => if neg then Val.zero else .inf false
  | 0x08 => if neg then Val.zero else Val.one
  | 0x09 => if neg then Val.one.neg else Val.one
  | 0x0A => if neg then Val.zero.neg else x
  | 0x0B => if neg then Val.zero.neg else x
  | 0x0C => if neg then Val.zero.neg else x
  | 0x0D => if neg then Val.zero else x
  | 0x0E => if neg then Val.one.neg else Val.one
  | 0x21 => Val.zero
  | 0x22 => Val.zero
  | _ => if neg then Val.zero.neg else Val.one

/-- The result for ±0 (R238). -/
def zeroResult (fn : Nat) (neg : Bool) : Val :=
  match fn with
  | 0x01 => Val.one
  | 0x02 => Val.one
  | 0x03 => .inf true
  | 0x04 => .inf true
  | 0x05 => .inf neg
  | 0x06 => .fin neg 0 0
  | 0x07 => .inf neg
  | 0x08 => Val.half
  | 0x0D => ln2F
  | 0x10 => Val.one
  | 0x21 => Val.quarter
  | 0x22 => Val.one
  | 0x23 => Val.half
  | 0x24 => Val.half
  | 0x25 => Val.half
  | _ => .fin neg 0 0

/-- The result for ±inf (R238). -/
def infResult (fn : Nat) (neg : Bool) : Val :=
  match fn with
  | 0x03 => if neg then .nan else .inf false
  | 0x04 => if neg then .nan else .inf false
  | 0x05 => .fin neg 0 0
  | 0x06 => if neg then .nan else .inf false
  | 0x07 => if neg then .nan else Val.zero
  | 0x0A => if neg then Val.zero.neg else .inf false
  | 0x0B => if neg then Val.zero.neg else .inf false
  | 0x0C => if neg then Val.zero.neg else .inf false
  | 0x0F => .nan
  | 0x10 => .nan
  | _ => largeRule fn neg (.inf neg)

/-- A mantissa function of a finite non-zero value (R236). -/
def mantissaFn (rev fn : Nat) (neg : Bool) (man : Nat) (exp : Int) : Val :=
  let e := (Nat.log2 man : Int) + exp
  let root : Bool := fn == 0x06 || fn == 0x07
  let e' := if root then e - e % 2 else e
  let p := evalSegment rev fn 5 false man (exp - e')
  if fn = 0x05 then (let v := p.shift (-e); if neg then v.neg else v)
  else if neg then .nan
  else if fn = 0x06 then p.shift (e' / 2)
  else if fn = 0x07 then p.shift (-(e' / 2))
  else if fn = 0x03 then ((Val.ofInt e).mul ln2L).add p
  else (Val.ofInt e).add p

/-- The reduction of a finite value by π/2: n mod 4 and r rounded to FP32 (R237). -/
def reducePi (neg : Bool) (man : Nat) (exp : Int) : Nat × Val :=
  let num := if 0 ≤ exp then (man <<< exp.toNat) <<< 1400 else man <<< 1400
  let den := if 0 ≤ exp then halfPi else halfPi <<< (-exp).toNat
  let n := halfAway num den
  let d : Int := (num : Int) - (n * den : Nat)
  let r := Val.fin (decide (d < 0)) d.natAbs (if 0 ≤ exp then -1400 else exp - 1400)
  let q := n % 4
  if neg then ((4 - q) % 4, rnd r.neg) else (q, rnd r)

/-- sin r or cos r on the reduced range (R237). -/
def reducedFn (rev fn : Nat) (r : Val) : Val :=
  match r with
  | .fin neg man exp =>
    if man = 0 ∨ (Nat.log2 man : Int) + exp < -12 then (if fn = 0x0F then r else Val.one)
    else evalSegment rev fn 5 neg man exp
  | _ => .nan

/-- The unrounded value v of a function (R234 to R238, R241). -/
def fnValue (rev fn : Nat) (x : Val) : Val :=
  match fnShape fn with
  | none => .nan
  | some s =>
    match x with
    | .nan => .nan
    | .inf neg => infResult fn neg
    | .fin neg man exp =>
      if man = 0 then zeroResult fn neg
      else
        let e := (Nat.log2 man : Int) + exp
        match s.kind with
        | .direct =>
          if e < -24 then smallRule fn x
          else if s.top ≤ e then largeRule fn neg x
          else
            match (if fn = 0x02 then wideInt neg man exp else none) with
            | some n => .fin false 1 n
            | none => evalSegment rev fn s.seg neg man exp
        | .mantissa => mantissaFn rev fn neg man exp
        | .reduced =>
          let (q, r) := reducePi neg man exp
          let other := if fn = 0x0F then 0x10 else 0x0F
          let v := reducedFn rev (if q % 2 = 0 then fn else other) r
          let flip : Bool := if fn = 0x0F then decide (2 ≤ q) else (q == 1 || q == 2)
          if flip then v.neg else v

/-- The revision that VEC_FNREV names: 0 is the highest listed; none when it is absent (R229, R232). -/
def Dev.fnRev (d : Dev) (c : Cfg) : Option Nat :=
  let rs := d.bond.fnRevs
  if c.fnrev = 0 then (if rs = [] then none else some (rs.foldl Nat.max 0))
  else if rs.contains c.fnrev.toNat then some c.fnrev.toNat else none

/-! ### VFUNC (R216, R229, R242) -/

def vfuncOpds (i : Issue) : List VOpd :=
  [{ lo := 0, o := i.opd 0, dst := true, cls := .float }, { lo := 9, o := i.opd 9, dst := false, cls := .float }] ++
  (if bit i.w 44 then [{ lo := 18, o := i.opd 18, dst := false, cls := .float }] else [])

/-- Every refusal of a VFUNC. -/
def vfuncFault (i : Issue) (d : Dev) : Option FaultInfo :=
  let ops := vfuncOpds i
  firstFault [i.tilesFault (ops.map (·.lo)),
    walkerFault d i.part (vwalked ops) (pairFault ops i.x.live.vl.toNat) (fmtFault ops false) false,
    if (fnShape (fld i.w 36 8)).isNone then vecRefuse causeReserved 36 0 else none,
    if !bit i.w 44 ∧ fld i.w 18 9 ≠ 0 then vecRefuse causeReserved 18 0 else none,
    if (d.fnRev i.x.live).isNone then vecRefuse causeConfig 0xFF 0 else none]

/-- What VFUNC does when it executes: f(X), or G × f(X) rounded once (R216, R242). -/
def vfuncEffect (starve : Nat) (t : TimeUnit) (i : Issue) (f : Flight) (d : Dev) : Dev :=
  let fn := fld i.w 36 8
  let rev := (d.fnRev f.cfg).getD 0
  let dst := f.opd 0
  let g := regionFor (vfuncOpds i) false f.cfg.vl.toNat dst
  let (x, d1) := d.vsource t i.b f g .float (f.opd 9)
  let (k, d2) := if bit i.w 44 then d1.vsource t i.b f g .float (f.opd 18)
    else ((fun _ => { val := Val.one, word := 0, poison := false }), d1)
  let d3 := d2.vstore t i.b f g dst (fun e =>
    { val := let v := fnValue rev fn (x e).val; if bit i.w 44 then (k e).val.mul v else v
      poison := (x e).poison || (k e).poison })
  (d3.vecBusy i.b f (ceilDiv (if g.tile then 4096 else g.count) 128) starve true).finish i.b f.id

def vfuncBody (starve : Nat) (t : TimeUnit) (i : Issue) (d : Dev) : Dev :=
  let ops := vfuncOpds i
  d.unitIssue t { i with ops := [starve] } (ops.map (·.lo)) (vfuncFault i d) (vfuncEffect starve t i)

/-! ### Lines of RMSN and SMAX (R243, R247) -/

/-- The region over which a line instruction works, and its lines. -/
def lineRegion (ops : List VOpd) (vl : Nat) (src : Opd) : Region2 × Lines :=
  let g := regionFor ops false vl src
  if g.tile then (g, tileLines 0 vl)
  else match src with
    | .desc x => (g, x.lines 0)
    | .tile _ => (g, tileLines 0 vl)

/-- The chunks of one pass over all groups of 64 lines, at `rate` elements per cycle (R251). -/
def passChunks (g : Region2) (ln : Lines) (rate : Nat) : Nat :=
  if g.tile then 4096 / rate
  else (upTo (ceilDiv ln.count 64)).foldl (fun n k => n + ceilDiv (Nat.min 64 (ln.count - 64 * k) * ln.len) rate) 0

/-- Read a descriptor source again for another pass (R252). -/
def Dev.reread (t : TimeUnit) (b : Nat) (f : Flight) (o : Opd) (d : Dev) : Dev :=
  match o with
  | .tile _ => d
  | .desc x =>
    let q := f.req 0x03 b
    if x.brick then (d.brickReads x).foldl (fun (d : Dev) w => d.touchBrick t q x w) d else d.touch t q x.plainBytes

/-- Whether SRC and DST are of one kind with equal extents (R243, R247, R254). -/
def sameLines (s o : Opd) : Bool :=
  match s, o with
  | .tile _, .tile _ => true
  | .desc x, .desc y => x.sameExt y
  | _, _ => false

/-- The walker's rule for the operand that pairs with SRC: beside a tile the shape of R206, else its count (R118). -/
def pairWith (i : Issue) (s p : Opd) (lo : Nat) : Option FaultInfo :=
  let vl := i.x.live.vl.toNat
  let ok : Bool :=
    match s, p with
    | .tile _, .tile _ => true
    | .tile _, .desc y => y.tileShape vl
    | .desc x, .tile _ => x.tileShape vl
    | .desc x, .desc y => x.count == y.count
  if ok then none else some (unitRefuse 0x06 causeOperand lo p.slot)

/-- The checks of order 2 of RMSN and SMAX: SRC and DST of one count, and the operand at bit 18, if any, paired with SRC (R118). -/
def linesTwo (i : Issue) (ops : List VOpd) (third : Bool) : Option FaultInfo :=
  firstFault [countFault (ops.filter (fun p => p.lo == 0 || p.lo == 9)), if third then pairWith i (i.opd 9) (i.opd 18) 18 else none]

/-! ### RMSN (R243 to R246, R254) -/

def rmsnOpds (i : Issue) : List VOpd :=
  [{ lo := 0, o := i.opd 0, dst := true, cls := .float }, { lo := 9, o := i.opd 9, dst := false, cls := .float }] ++
  (if bit i.w 36 then [{ lo := 18, o := i.opd 18, dst := false, cls := .float }] else [])

/-- Whether EPS is neither NaN, infinite nor negative other than −0 (R254). -/
def epsOk (v : Val) : Bool := v.isFin && (v.isZero || !v.neg?)

/-- Every refusal of an RMSN. -/
def rmsnFault (i : Issue) (d : Dev) : Option FaultInfo :=
  let ops := rmsnOpds i
  let s := i.opd 9
  let o := i.opd 0
  firstFault [i.tilesFault (ops.map (·.lo)), walkerFault d i.part (vwalked ops) (linesTwo i ops (bit i.w 36)) none false,
    if !bit i.w 36 ∧ fld i.w 18 9 ≠ 0 then vecRefuse causeReserved 18 0 else none,
    if !epsOk (f32 (fld i.w 37 32)) then vecRefuse causeOperand 37 0 else none,
    if !sameLines s o then vecRefuse causeOperand 0 o.slot else none, fmtFault ops false]

/-- An exact non-negative rational: num / den × 2^exp. -/
structure RatX where
  num : Nat
  den : Nat
  exp : Int
deriving DecidableEq, Repr

/-- rnd*: 24 significant bits without an exponent limit (R244). -/
def roundFree (r : RatX) : Nat × Int := roundMag 24 none r.num r.den r.exp

/-- rmsn_line (R244): the outputs, each rounded to format `fm`. -/
def rmsnLine (fm : Nat) (eps : Val) (xs gs : List Val) : List Val :=
  let n := xs.length
  let k := (xs.filter Val.isInf).length
  let a := xs.foldl (fun (m : Val) x => if m.lt x.abs then x.abs else m) Val.zero
  let pairs := xs.zip gs
  if xs.any Val.isNan then xs.map (fun _ => Val.nan)
  else if 0 < k then
    pairs.map (fun p =>
      let (x, g) := p
      if x.isInf then
        match g with
        | .nan => .nan
        | .inf s => .inf (x.neg? != s)
        | .fin s m e => finish fm (x.neg? != s) (roundSqrt (mantBits fm + 1) (some (lsbMin fm)) (n * m * m) k (2 * e))
      else roundTo fm ((Val.fin x.neg? 0 0).mul g))
  else if a.isZero then pairs.map (fun p => roundTo fm (p.1.mul p.2))
  else
    let e := a.exponent
    let z := xs.map (fun x => x.shift (-e))
    let q := z.foldl (fun (s : Val) x => s.add (x.mul x)) Val.zero
    let total := q.add ((eps.shift (-2 * e)).mul (Val.ofInt n))
    let m := match total with | .fin _ man ex => roundFree { num := man, den := n, exp := ex } | _ => (0, 0)
    let r := roundSqrt 24 none m.1 1 m.2
    (z.zip gs).map (fun p =>
      match p.1.mul p.2 with
      | .fin s man ex => finish fm s (roundMag (mantBits fm + 1) (some (lsbMin fm)) man r.1 (ex - r.2))
      | v => v)

/-- What RMSN does when it executes (R243, R244, R246, R251, R252). -/
def rmsnEffect (starve gap : Nat) (t : TimeUnit) (i : Issue) (f : Flight) (d : Dev) : Dev :=
  let ops := rmsnOpds i
  let s := f.opd 9
  let o := f.opd 0
  let (g, ln) := lineRegion ops f.cfg.vl.toNat s
  let (x, d1) := d.vsource t i.b f g .float s
  let (k, d2) := if bit i.w 36 then d1.vsource t i.b f g .float (f.opd 18)
    else ((fun _ => { val := Val.one, word := 0, poison := false }), d1)
  let fm := match o with | .tile _ => 0 | .desc y => y.fmt
  let res := (upTo ln.count).map (fun l =>
    let es := (upTo ln.len).map (ln.place l)
    (rmsnLine fm (f32 (fld i.w 37 32)) (es.map (fun e => (x e).val)) (es.map (fun e => (k e).val)),
     es.any (fun e => (x e).poison || (k e).poison)))
  let d3 := (d2.reread t i.b f s).vstore t i.b f g o (fun e =>
    let r := res.getD (e / ln.len) ([], false)
    { val := r.1.getD (e % ln.len) Val.zero, poison := r.2 })
  ((d3.vecBusy i.b f (2 * passChunks g ln 512) starve false).chargeCycles 2 i.b gap f.occ).finish i.b f.id

def rmsnBody (starve gap : Nat) (t : TimeUnit) (i : Issue) (d : Dev) : Dev :=
  let ops := rmsnOpds i
  d.unitIssue t { i with ops := [starve, gap] } (ops.map (·.lo)) (rmsnFault i d) (rmsnEffect starve gap t i)

/-! ### SMAX (R247 to R250, R254) -/

def smaxOpds (i : Issue) : List VOpd :=
  [{ lo := 0, o := i.opd 0, dst := true, cls := .float }, { lo := 9, o := i.opd 9, dst := false, cls := .float }] ++
  (if bit i.w 36 then [{ lo := 18, o := i.opd 18, dst := false, cls := .float }] else []) ++
  (if bit i.w 37 then [{ lo := 27, o := i.opd 27, dst := true, cls := .float }] else [])

/-- Every refusal of an SMAX. -/
def smaxFault (i : Issue) (d : Dev) : Option FaultInfo :=
  let ops := smaxOpds i
  let s := i.opd 9
  let o := i.opd 0
  let l := i.opd 27
  let lse : Option FaultInfo :=
    let ok : Bool := match s, l with
      | .tile _, .tile _ => o != l
      | .desc x, .desc y => x.isLines y 0
      | _, _ => false
    if bit i.w 37 ∧ !ok then vecRefuse causeOperand 27 l.slot else none
  let mask : Option FaultInfo := match i.opd 18 with
    | .desc x =>
      if bit i.w 36 ∧ !vecFmt x .float false false ∧ !vecFmt x .int false false then vecRefuse causeFormat 18 x.slot else none
    | .tile _ => none
  firstFault [i.tilesFault (ops.map (·.lo)), walkerFault d i.part (vwalked ops) (linesTwo i ops (bit i.w 36)) none false,
    if !bit i.w 36 ∧ fld i.w 18 9 ≠ 0 then vecRefuse causeReserved 18 0 else none,
    if !bit i.w 37 ∧ fld i.w 27 9 ≠ 0 then vecRefuse causeReserved 27 0 else none,
    if !(f32 (fld i.w 38 32)).isFin then vecRefuse causeOperand 38 0 else none,
    lse, if !sameLines s o then vecRefuse causeOperand 0 o.slot else none,
    fmtFault (ops.filter (fun p => p.lo != 18)) false, mask,
    if (d.fnRev i.x.live).isNone then vecRefuse causeConfig 0xFF 0 else none]

/-- smax_line (R248): the outputs rounded to format `fm`, and the exact log-sum-exp before its rounding. -/
def smaxLine (rev fm : Nat) (scale : Val) (xs : List (Val × Bool)) : List Val × Val :=
  let v := xs.map (fun x => if x.2 then none else some (rnd (scale.mul x.1)))
  let live := v.filterMap id
  let k := (live.filter (fun x => x == .inf false)).length
  let fin := live.filter Val.isFin
  if live.any Val.isNan then (xs.map (fun _ => Val.nan), .nan)
  else if 0 < k then
    (v.map (fun x => if x = some (.inf false) then roundDiv fm Val.one (Val.ofInt k) else Val.zero), .inf false)
  else
    match fin with
    | [] => (xs.map (fun _ => Val.zero), .inf true)
    | x0 :: rest =>
      let mu := rest.foldl Val.max x0
      let e := v.map (fun x => match x with
        | some y => if y.isFin then rnd (fnValue rev 0x01 (rnd (y.sub mu))) else Val.zero
        | none => Val.zero)
      let sum := reduceLine 0 e
      ((v.zip e).map (fun p => if p.1.isNone then Val.zero else roundDiv fm p.2 sum), mu.add (rnd (fnValue rev 0x03 sum)))

/-- What SMAX does when it executes; a MASK element counts as zero when its FP32 value is (R211, R247, R248, R250 to R252). -/
def smaxEffect (starve gap : Nat) (t : TimeUnit) (i : Issue) (f : Flight) (d : Dev) : Dev :=
  let ops := smaxOpds i
  let s := f.opd 9
  let o := f.opd 0
  let rev := (d.fnRev f.cfg).getD 0
  let (g, ln) := lineRegion (ops.filter (fun p => p.lo != 27)) f.cfg.vl.toNat s
  let (x, d1) := d.vsource t i.b f g .float s
  let (mask, d2) : (Nat → Bool × Bool) × Dev :=
    if !bit i.w 36 then (fun _ => (false, false), d1)
    else
      match f.opd 18 with
      | .tile n =>
        let y := d1.bay i.b
        (fun e => let (r, c, _) := g.at e; ((f32 (y.cell n r c).toNat).isZero, y.cellPoison n r c), d1)
      | .desc m =>
        let (l, d2) := d1.load t i.b f 0x03 m (sparseTag f.cfg)
        (fun e => let v := l.num (g.place m e); ((rnd v.val).isZero, v.poison), d2)
  let fm := match o with | .tile _ => 0 | .desc y => y.fmt
  let res := (upTo ln.count).map (fun l =>
    let es := (upTo ln.len).map (ln.place l)
    let bad := es.any (fun e => (mask e).2 || ((x e).poison && !(mask e).1))
    (smaxLine rev fm (f32 (fld i.w 38 32)) (es.map (fun e => ((x e).val, (mask e).1))), bad))
  let again := (upTo (if ln.len ≤ 4096 then 1 else 2)).foldl (fun (d : Dev) _ => d.reread t i.b f s) d2
  let d3 := again.vstore t i.b f g o (fun e =>
    let r := res.getD (e / ln.len) (([], .nan), false)
    { val := r.1.1.getD (e % ln.len) Val.zero, poison := r.2 })
  let d4 :=
    if bit i.w 37 then
      let gl := (lineRegion [{ lo := 27, o := f.opd 27, dst := true, cls := .float }] f.cfg.vl.toNat (f.opd 27)).1
      d3.vstore t i.b f gl (f.opd 27) (fun e =>
        let r := res.getD (if gl.tile then e / gl.vl else e) (([], .nan), false)
        { val := r.1.2, poison := r.2 })
    else d3
  let chunks := passChunks g ln 512 + passChunks g ln 128 + passChunks g ln (if ln.len ≤ 4096 then 512 else 128)
  ((d4.vecBusy i.b f chunks starve false).chargeCycles 2 i.b gap f.occ).finish i.b f.id

def smaxBody (starve gap : Nat) (t : TimeUnit) (i : Issue) (d : Dev) : Dev :=
  let ops := smaxOpds i
  d.unitIssue t { i with ops := [starve, gap] } (ops.map (·.lo)) (smaxFault i d) (smaxEffect starve gap t i)

end Sys2Proof.Machine
end

