-- ==== Sys2Proof/Machine/Complete.lean ====
section
/-! DEFINITION. The completion of an instruction: an instruction whose operands lie in peer or host windows has its effect
once their bytes have come, and it leaves its queue once nothing it has sent is unanswered (R80, R81, R381). -/

namespace Sys2Proof.Machine

/-- The issue of a flight once more, now that the bytes it asked peers and hosts for have come: what it captured then. -/
def Dev.reissue (d : Dev) (b : Nat) (f : Flight) : Issue :=
  let x := d.stream b f.stream
  let slots := f.descs.map (fun e => (fld f.word.toNat e.1 8, e.2))
  { b := b, s := f.stream, w := f.word.toNat, word := f.word, iptr := f.iptr
    x := { x with live := f.cfg, desc := slots, occ := f.occ }
    part := f.part, ops := f.ops, redo := some f.id }

/-- The effect of an instruction that its opcode names; the bodies only have their effects for a reissue. COLL and UPD
have their effects at other commands. -/
def Issue.effect (t : TimeUnit) (i : Issue) (d : Dev) : Dev :=
  let op (n : Nat) : Nat := i.ops.getD n 0
  match opc i.w with
  | 0x07 => dloadBody t i d
  | 0x10 => moveBody t i d
  | 0x20 => mloadBody t i d
  | 0x21 => mmulBody (op 0) (op 1) (op 2) t i d
  | 0x30 => vopBody (op 0) t i d
  | 0x31 => vfuncBody (op 0) t i d
  | 0x32 => vredBody (op 0) t i d
  | 0x33 => vscanBody (op 0) t i d
  | 0x34 => vpermBody (op 0) t i d
  | 0x35 => rmsnBody (op 0) (op 1) t i d
  | 0x36 => smaxBody (op 0) (op 1) t i d
  | 0x40 => turnBody t i d
  | 0x48 => quantBody t i d
  | 0x50 =>
    match fld i.w 27 2 with
    | 0 => routeTopkBody t i d
    | 1 => routeGatherBody t i d
    | _ => routeCombineBody t i d
  | 0x68 => if bit i.w 9 then sealVerifyBody t i d else sealComputeBody t i d
  | _ => d

/-- INSTRUCTION_COMPLETE of flight `n` of bay `b`: one that waits before its effect has it, when everything issued before it to its
queue has; one whose results are written leaves once nothing that it has sent is unanswered (R80, R81, R302, R381). -/
def instructionComplete (b n : Nat) (t : TimeUnit) (d : Dev) : Dev :=
  match (d.bay b).flights.find? (fun f => f.id = n) with
  | none => d
  | some f =>
    if f.waits ∧ d.awaitsRead b n then d
    else
      let d1 := if f.waits then d.runEffect t b n f.await (fun d => (d.reissue b f).effect t d) else d
      match (d1.bay b).flights.find? (fun f => f.id = n) with
      | none => d1
      | some g => if g.done ∧ g.amax.isEmpty ∧ !d1.awaits b n then d1.modBay b (·.leave n) else d1

end Sys2Proof.Machine
end

