-- ==== Sys2Proof/Machine/MemoryUnits.lean ====
section
/-! DEFINITION. What the HBM controllers do by themselves: write-backs, refresh, training, retraining, failed channels, map-outs
and temperature (R308 to R334, R347, R348). -/

namespace Sys2Proof.Machine

/-- CORRECTION_WRITEBACK: in an idle cycle of its bank a corrected byte is written back, unless a write came first (R347). -/
def correctionWriteback (a : Nat) (d : Dev) : Dev := if d.mem.backs.contains a then d.modMem (·.fix a) else d

/-- MERGE_EVICT: the least recently used sector of a full merge buffer leaves it (R318). -/
def mergeEvict (s : Nat) (d : Dev) : Dev := d.modStack s (fun k => { k with merge := k.merge.dropLast })

/-- REFRESH: refresh takes slots of the interface and changes no state (R310, R328, R330). -/
def refresh (_s : Nat) (d : Dev) : Dev := d

/-! ### Temperature (R328 to R331) -/

/-- A stack enters a thermal state: HOT from NORMAL writes CAUTION, CRITICAL raises HOLD, NORMAL starts the wait for RESUME
(R329, R330, R331). -/
def Dev.enterTherm (t : TimeUnit) (s : Nat) (st : Therm) (d : Dev) : Dev :=
  let old := (d.stack s).therm
  let d1 := d.modStack s (fun k => { k with therm := st, normalSince := if st = .normal then some t.now else none })
  match st with
  | .hot => if old = .normal then
      d1.emit t none { record 0x06 (stackSrc s) with count := w64 (d1.stack s).temp.toNat, detail := detail [(48, 1, 0x03)] }
    else d1
  | .critical => d1.raiseHold (.stack s)
  | .normal => d1

/-- Apply the transitions in turn until none applies (R328). -/
def Dev.thermSteps (t : TimeUnit) (s : Nat) : Nat → Dev → Dev
  | 0, d => d
  | fuel + 1, d =>
    let k := d.stack s
    let T := k.temp.toNat
    match k.therm with
    | .normal => if k.hotC.toNat ≤ T then (d.enterTherm t s .hot).thermSteps t s fuel else d
    | .hot =>
      if k.critC.toNat ≤ T then (d.enterTherm t s .critical).thermSteps t s fuel
      else if T + 2 ≤ k.hotC.toNat then (d.enterTherm t s .normal).thermSteps t s fuel
      else d
    | .critical => if T + 2 ≤ k.critC.toNat then (d.enterTherm t s .hot).thermSteps t s fuel else d

/-- A channel becomes due for scheduled retraining; `trigger` is what its record will name (R321, R333). -/
def Stack.setDue (k : Stack) (ch trigger : Nat) : Stack :=
  if k.due.toNat.testBit ch then k
  else { k with due := k.due ||| BitVec.ofNat 16 (2 ^ ch), chans := vmod k.chans ch (fun c => { c with trigger := trigger }) }

/-- Channels in service that their temperature makes due (R321). -/
def Stack.drifted (k : Stack) : List Nat :=
  k.service.filter (fun ch =>
    let c := vget Channel.reset k.chans ch
    let T := k.temp.toNat
    decide (k.drift.toNat ≤ max T c.trainTemp - min T c.trainTemp))

/-- STACK_TEMP_READING: every 16 µs the controller reads T; states, HOT time and drift follow (R321, R328). -/
def stackTemp (s temp : Nat) (t : TimeUnit) (d : Dev) : Dev :=
  if !(d.stack s).present then d
  else
    let d1 := d.modStack s (fun k =>
      { k with temp := BitVec.ofNat 8 temp
               cnt := if k.therm = .normal then k.cnt else vmod k.cnt 2 (fun c => c.addLo 16)
               normalSince := if k.therm = .normal ∧ k.normalSince.isNone then some t.now else k.normalSince })
    (d1.thermSteps t s 4).modStack s (fun k => k.drifted.foldl (fun k ch => k.setDue ch 3) k)

/-- STACK_COOL_EXPIRY: a stack has been NORMAL for 1,000,000 lt: RESUME of its own hold (R331). -/
def stackCool (s : Nat) (t : TimeUnit) (d : Dev) : Dev := if d.cleared t (.stack s) then d.sendResume t (.stack s) else d

/-! ### Retraining (R321 to R325, R333) -/

/-- A RETRAIN record (R333). -/
def retrainRecord (s kind ch outcome trigger dur count : Nat) (withdrawn : Bool) : EvRec :=
  { record 0x08 (stackSrc s) with
    withdrawn := withdrawn, count := w64 count
    detail := detail [(48, 1, kind), (49, 1, ch), (50, 1, outcome), (51, 1, trigger), (52, 4, dur)] }

/-- RETRAIN_DUE_AGE: 24 hours of line time have passed since a channel's last training (R321). -/
def retrainAge (s ch : Nat) (t : TimeUnit) (d : Dev) : Dev :=
  let k := d.stack s
  if k.inService.toNat.testBit ch ∧ (vget Channel.reset k.chans ch).trainTime + 86400000000000 ≤ t.now then
    d.modStack s (·.setDue ch 4)
  else d

/-- A channel begins to train. -/
def Stack.startTraining (k : Stack) (ch trigger now : Nat) (emergency : Bool) : Stack :=
  { k with
    training := k.training ||| BitVec.ofNat 16 (2 ^ ch)
    due := if emergency then k.due else k.due &&& ~~~BitVec.ofNat 16 (2 ^ ch)
    chans := vmod k.chans ch (fun c => { c with started := now, emergency := emergency, trigger := trigger, corr := [], parity := [] }) }

/-- Scheduled retraining of every due channel of every stack, when at least 40,000 lt of the span remain (R321). -/
def Dev.trainDue (t : TimeUnit) (last : Nat) (d : Dev) : Dev :=
  if (last + 1) * t.slotLen < t.now + 40000 then d
  else
    (upTo 12).foldl (fun (d : Dev) s =>
      let k := d.stack s
      (k.service.filter (fun ch => k.due.toNat.testBit ch && !k.failed.toNat.testBit ch && !k.training.toNat.testBit ch)).foldl
        (fun (d : Dev) ch =>
          let trigger := (vget Channel.reset (d.stack s).chans ch).trigger
          (d.modStack s (·.startTraining ch trigger t.now false)).emit t none (retrainRecord s 1 ch 0 trigger 0 last false)) d) d

/-- The occurrence of a maintenance entry whose span begins, with the device that holds its record (R65). -/
def maintOcc (q e k : Nat) (t : TimeUnit) (d : Dev) : Option (Occ × Dev) :=
  match d.ttFor q e k with
  | none => none
  | some (tt, te) =>
    (if te.maint then d.ensureOcc q tt e k else none).filter (fun x =>
      x.1.open && x.1.start.isNone && !d.timeOut && !d.hold.paused && t.now % t.slotLen == 0 && x.2.inSpan x.1 t.slot)

/-- The span of a maintenance entry begins, and due channels retrain (R65, R321). -/
def maintStart (q e k : Nat) (t : TimeUnit) (d : Dev) : Dev :=
  match maintOcc q e k t d with
  | none => d
  | some (o, d0) =>
    let last := d0.promise o
    (({ (d0.modOcc o.key (fun o => { o with reached := true, start := some t.now })) with
        maint := some (max last (d.maint.getD 0)) } : Dev)).trainDue t last

/-- MAINTENANCE_SPAN_END: a maintenance entry is delivered when its span ends (R65). -/
def maintEnd (q e k : Nat) (t : TimeUnit) (d : Dev) : Dev :=
  if d.hold.paused then d
  else
    match d.openOccIf q e k (fun o => o.te.maint && o.start.isSome && decide (d.promise o < t.slot)) with
    | none => d
    | some o =>
      let d1 := d.deliver t o.key
      { d1 with maint := if d.inMaint t then d.maint else none }

/-- A channel fails: its bit and its count; its reads return poison and its writes are lost from now on (R325). -/
def Dev.failChannel (s ch reason : Nat) (d : Dev) : Dev :=
  ((d.modStack s (fun k =>
    { k with failed := k.failed ||| BitVec.ofNat 16 (2 ^ ch), training := k.training &&& ~~~BitVec.ofNat 16 (2 ^ ch)
             due := k.due &&& ~~~BitVec.ofNat 16 (2 ^ ch), cnt := vmod k.cnt 0 (fun c => c.addHi 1)
             chans := vmod k.chans ch (fun c => { c with reason := reason, emergency := false }) })).repairDue)

/-- What has triggered an emergency retraining of a channel: 1 correctable errors, 2 parity errors, 0 nothing (R322). -/
def Stack.trigger (k : Stack) (ch now : Nat) : Nat :=
  let c := vget Channel.reset k.chans ch
  let fresh (xs : List Nat) : Nat := (xs.filter (fun x => decide (now < x + 1000000))).length
  if k.thresh.toNat ≤ fresh c.corr then 1 else if 4 ≤ fresh c.parity then 2 else 0

/-- EMERGENCY_RETRAIN_START: a channel that reaches its trigger retrains, and claims that meet it are withdrawn; one that
reaches it again within 10 ms fails (R322 to R325). -/
def emergencyStart (s ch : Nat) (t : TimeUnit) (d : Dev) : Dev :=
  let k := d.stack s
  let trigger := k.trigger ch t.now
  if !k.inService.toNat.testBit ch ∨ k.failed.toNat.testBit ch ∨ k.training.toNat.testBit ch ∨ !k.emerg ∨ trigger = 0 then d
  else if !optAll (vget Channel.reset k.chans ch).lastEnd (fun e => decide (e + 10000000 ≤ t.now)) then d.failChannel s ch 3
  else
    let d1 := d.modStack s (fun k =>
      { k.startTraining ch trigger t.now true with cnt := vmod k.cnt 0 (fun c => c.addLo 1) })
    let d2 := d1.emit t none (retrainRecord s 2 ch 0 trigger 0 ((t.now + 40000) / t.slotLen) (!(d.hold.paused || d.inMaint t)))
    (d2.retrainWithdraw t s).2

/-- How a retraining went: which pseudo-channels lost a data lane in it, and whether it converged. -/
def Stack.repair (k : Stack) (ch : Nat) (lost : List Nat) : Stack × Bool :=
  lost.foldl (fun (a : Stack × Bool) pc =>
    let n := 2 * ch + pc
    let had := fld a.1.lanes.toNat (2 * n) 2
    ({ a.1 with lanes := w64 (setFld a.1.lanes.toNat (2 * n) 2 (if had = 0 then 1 else 2)) }, a.2 && had == 0)) (k, true)

/-- A retraining of a channel ends: one that succeeds is the channel's last training, so that it is due again only for a reason that
follows it (R321, R323, R325, R333). -/
def Dev.trainEnd (t : TimeUnit) (s ch : Nat) (emergency converged : Bool) (lost : List Nat) (d : Dev) : Dev :=
  let k := d.stack s
  let c := vget Channel.reset k.chans ch
  if !k.training.toNat.testBit ch ∨ c.emergency ≠ emergency then d
  else
    let (k1, spare) := if converged then k.repair ch lost else (k, true)
    let d1 := d.modStack s (fun _ => k1)
    let rec' (outcome : Nat) : EvRec :=
      retrainRecord s (if emergency then 2 else 1) ch outcome c.trigger (t.now - c.started) t.slot false
    if !converged then (d1.emit t none (rec' 3)).failChannel s ch 1
    else if !spare then (d1.emit t none (rec' 3)).failChannel s ch 2
    else
      let repaired := !lost.isEmpty
      let d2 := d1.modStack s (fun k =>
        let k2 := { k with
          training := k.training &&& ~~~BitVec.ofNat 16 (2 ^ ch)
          due := k.due &&& ~~~BitVec.ofNat 16 (2 ^ ch)
          chans := vmod k.chans ch (fun c => { c with
            trainTemp := k.temp.toNat, trainTime := t.now, emergency := false
            lastEnd := if emergency then some t.now else c.lastEnd }) }
        if emergency ∨ repaired then k2.setDue ch 0 else k2)
      let d3 := d2.emit t none (rec' (if repaired then 2 else 1))
      if repaired then d3.repairDue else d3

/-- The pseudo-channels of a channel that a two-bit mask names. -/
def lostLanes (mask : Nat) : List Nat := maskBits 2 mask

/-- SCHEDULED_RETRAIN_END: `lost` names the pseudo-channels that lost a lane (R321). -/
def scheduledEnd (s ch lost : Nat) (converged : Bool) (t : TimeUnit) (d : Dev) : Dev :=
  d.trainEnd t s ch false converged (lostLanes lost)

/-- EMERGENCY_RETRAIN_END (R323, R325). -/
def emergencyEnd (s ch lost : Nat) (converged : Bool) (t : TimeUnit) (d : Dev) : Dev :=
  d.trainEnd t s ch true converged (lostLanes lost)

/-! ### Map-out (R326, R327, R334) -/

/-- A CHANNEL_MAPPED_OUT record of a stack as it now stands (R334). -/
def Dev.mappedRecord (d : Dev) (s ch reason : Nat) : EvRec :=
  let c := (d.stack s).c
  { record 0x09 (stackSrc s) with
    count := w64 (224 * c / 16)
    detail := detail [(48, 1, ch), (49, 1, c), (50, 1, reason), (52, 8, c * 0x200000000)] }

/-- Whether any installed timetable names a stack (R326). -/
def Dev.namesStack (d : Dev) (s : Nat) : Bool := d.timetables.any (fun x => x.2.entries.any (fun e => e.hbmmask.testBit s))

/-- CHANNEL_MAP_OUT: at the job boundary of a stack its failed channels leave service and poison is written over the rest;
with fewer than 8 channels left the whole stack goes (R326, R327). -/
def channelMapOut (s : Nat) (t : TimeUnit) (d : Dev) : Dev :=
  let k := d.stack s
  if k.failed = 0 ∨ k.filling ∨ d.namesStack s ∨ t.now % t.slotLen ≠ 0 then d
  else
    let left := k.inService &&& ~~~k.failed
    let gone := maskBits 16 (k.inService &&& k.failed).toNat
    let small := popCount 16 left.toNat < 8
    let d1 := (d.modStack s (fun k =>
      { k with failed := 0, inService := if small then 0 else left, present := k.present && !small, filling := !small
               fillStart := t.now, mapped := gone, merge := [] })).repairDue
    if small then
      let reason := (vget Channel.reset k.chans (gone.headD 0)).reason
      (d1.emit t none (d1.mappedRecord s 0xFF reason)).bondDue
    else d1

/-- POISON_FILL_DONE: poison stands in every sector of the populated part; the channels' records and the new service level
follow (R326). -/
def poisonFillDone (s : Nat) (t : TimeUnit) (d : Dev) : Dev :=
  let k := d.stack s
  if !k.filling then d
  else
    let d1 := (d.modMem (·.fillRange (hbmBase s) (k.c * 0x200000000) true)).modStack s (fun k => { k with filling := false, mapped := [] })
    let d2 := k.mapped.foldl (fun (d : Dev) ch => d.emit t none (d.mappedRecord s ch (vget Channel.reset k.chans ch).reason)) d1
    d2.bondDue

end Sys2Proof.Machine
end

