-- ==== Sys2Proof/Machine/Registers.lean ====
section
/-! DEFINITION. Reading a register; the plain effect of a write; who may write it and which values are discarded with
POLICY_CONFLICT; writes that wait for the next slot boundary (R12, R15 to R18, R71, R76, R94, R95, R100, R162, R201, R230,
R273, R300, R314, R335, R336, R364, R402, R430, R434, R436, R438, R441, R450, R475, R496). -/

namespace Sys2Proof.Machine

/-! ### Reading (R15, R16, R18) -/

/-- Codes of the lock states (R71). -/
def Lock.code : Lock → Nat
  | .unlocked => 0
  | .acquiring => 1
  | .locked => 2
  | .holdover => 3

/-- Codes of the stream states (R75). -/
def SeqState.code : SeqState → Nat
  | .idle => 0
  | .run => 1
  | .waitDepart => 2
  | .waitToken => 3
  | .waitUnit => 4
  | .held => 5
  | .faulted => 6

/-- TT_SYNC (R71). -/
def syncWord (t : TimeUnit) : Nat :=
  t.lock.code + b2n t.srcMode <<< 2 + t.srcLink.toNat <<< 3 + (t.slotLog2 % 16) <<< 8 + b2n t.root <<< 12 +
  t.depth.toNat <<< 16 + t.offset.toNat <<< 32 +
  (match t.since with | some u => min 0xFFFF ((t.now - u) / 1000) | none => 0) <<< 48

/-- TT_SQ_OCC (R76). -/
def occWord (o : Option OccKey) : Nat :=
  match o with
  | some k => k.entry % 0x4000 + 1 <<< 14 + (k.k % 2 ^ 48) <<< 16
  | none => 0

/-- LNK_STATUS (R402). -/
def lnkStatusWord (k : Link) : Nat :=
  let st := match k.state with | .down => 0 | .training => 1 | .up => 2
  let w := k.lanes
  st + (if w = 16 then 3 else if w = 12 then 2 else if w = 8 then 1 else 0) <<< 2 +
  (if k.isUp then k.quads.toNat else 0) <<< 4 + k.ver.toNat <<< 8 + k.far.toNat <<< 24 + b2n k.farValid <<< 36

/-- HBM_STATUS (R335). -/
def hbmStatusWord (k : Stack) : Nat :=
  let th := match k.therm with | .normal => 0 | .hot => 1 | .critical => 2
  k.inService.toNat + k.c <<< 16 + th <<< 21 + k.temp.toNat <<< 24 + k.training.toNat <<< 32 + k.failed.toNat <<< 48

/-- A register of an integrity block (R364). -/
def integWord (g : Integ) (r : IntegReg) : Nat :=
  match r with
  | .eccnt0 => g.cnt0.word.toNat
  | .eccnt1 => g.cnt1.word.toNat
  | .scrub => b2n g.scrubEn + g.lapMax.toNat <<< 8 + g.lastLap.toNat <<< 32
  | .code0 => g.code0.toNat
  | .code1 => g.code1.toNat
  | .retire => g.retireIndex.toNat + b2n g.retireBank <<< 16 + ((g.pages.length + g.banks.length) % 256) <<< 24
  | .inject => g.injectReg.toNat
  | .eclr => 0
  | .log n w =>
    let e := vget LogEntry.empty g.log n
    if w = 0 then e.addr.toNat + e.sym.toNat <<< 52 + b2n e.valid <<< 63
    else e.count.toNat + (e.last.toNat / 2 ^ 20 % 2 ^ 32) <<< 32

/-- What a read of a register returns: the value in force (R15 to R18). -/
def Dev.readReg (t : TimeUnit) (d : Dev) (r : Reg) : Nat :=
  match r with
  | .holeStatus => d.box.holeCount.toNat + d.box.holePart.toNat <<< 32 + b2n d.box.holeNoPart <<< 37 + d.box.holeAddr.toNat <<< 40
  | .ltime => t.now
  | .sync => syncWord t
  | .step => d.step.toNat
  | .shift => d.shift.toNat
  | .pwrNeed => d.bond.pwrNeed.toNat
  | .epoch => t.epoch.toNat
  | .timeDelay l => let k := d.link l; k.delay.toNat + k.asym.toNat <<< 32 + k.samples.toNat <<< 48
  | .sqCtl b s => (d.stream b s).startIptr.toNat <<< 32
  | .sqBase b s => (d.stream b s).base.toNat <<< 4
  | .sqStatus b s => let x := d.stream b s; x.state.code + x.fclass.toNat <<< 8 + x.iptr.toNat <<< 32
  | .sqOcc b s => occWord (d.stream b s).occ
  | .sqLc b s n => (vget 0 (d.stream b s).lc n).toNat
  | .vecStatus b s => b2n (d.stream b s).permOor
  | .cfg b s g f => cfgGet (d.stream b s).live g f
  | .tokens b => (d.bay b).tokens.toNat
  | .tokSet _ => 0
  | .tokClr _ => 0
  | .tokVoid b => (d.bay b).void.toNat
  | .desc b s slot w => fld (tabGet 0 (d.stream b s).desc slot).toNat (64 * w) 64
  | .qCnt b n => (vget Pair32.zero (d.bay b).qCnt n).word.toNat
  | .qClr _ => 0
  | .mxRepair b => (d.bay b).mxRepair.toNat
  | .mxCnt b n => (vget Pair32.zero (d.bay b).mxCnt n).word.toNat
  | .mxClr _ => 0
  | .vecRepair b n => (vget 0 (d.bay b).vecRepair n).toNat
  | .vecCnt b n => (vget Pair32.zero (d.bay b).vecCnt n).word.toNat
  | .vecClr _ => 0
  | .ptsCnt p n => (vget Pair32.zero (d.pier p).ptsCnt n).word.toNat
  | .ptsClr _ => 0
  | .updCtab p => (d.pier p).ctab.toNat <<< 14
  | .updCnt p n => (vget Pair32.zero (d.pier p).updCnt n).word.toNat
  | .updClr _ => 0
  | .updWb p q => (vget 0 (d.pier p).wbTable q).toNat <<< 8 + b2n (vget false (d.pier p).wbEn q) <<< 52
  | .updRst p q =>
    (vget 0 (d.pier p).rstOrder q).toNat <<< 8 + (vget 0 (d.pier p).rstState q).toNat <<< 53 +
    (vget 0 (d.pier p).rstCause q).toNat <<< 56
  | .wbCnt p => (d.pier p).wbCnt.word.toNat
  | .wbClr _ => 0
  | .hbmStatus s => hbmStatusWord (d.stack s)
  | .hbmLanes s => (d.stack s).lanes.toNat
  | .hbmRetrain s =>
    let k := d.stack s
    k.due.toNat + b2n k.emerg <<< 16 + k.drift.toNat <<< 24 + k.thresh.toNat <<< 32
  | .hbmTherm s => (d.stack s).hotC.toNat + (d.stack s).critC.toNat <<< 8
  | .hbmCnt s n => (vget Pair32.zero (d.stack s).cnt n).word.toNat
  | .hbmClr _ => 0
  | .hbmReg s q =>
    let g := vget Regulator.reset (d.stack s).regs q
    g.rate.toNat + g.burst.toNat <<< 16 + b2n g.hard <<< 23
  | .integ k r => integWord (d.integ k.index) r
  | .lnkStatus l => lnkStatusWord (d.link l)
  | .lnkCtl l => let k := d.link l; b2n k.en + k.qmask.toNat <<< 2 + b2n k.pmd <<< 6
  | .lnkPmap l => (d.link l).pmap.toNat
  | .lnkPmapEn l => (d.link l).pmapEn.toNat
  | .lnkCnt l n => (vget Pair32.zero (d.link l).cnt n).word.toNat
  | .lnkClr _ => 0
  | .fabAddr => d.fab.addr.toNat + b2n d.fab.valid <<< 12
  | .cwd => d.fab.cwd.toNat
  | .route a => tabGet 0 d.fab.routes a
  | .bondPart q w =>
    let p := d.part q
    if w = 0 then p.quarters.toNat + p.hbms.toNat <<< 16 + b2n p.en <<< 28 + p.func.toNat <<< 32 + p.port.toNat <<< 37
    else p.links.toNat
  | .bondSeg q n w =>
    let g := vget Seg.none (d.part q).segs n
    if w = 0 then b2n g.valid + b2n g.wr <<< 1 + g.base.toNat <<< 21 else g.size.toNat
  | .bondPlat q r =>
    if r < 3 then let g := vget (0, 0) (d.part q).rings r; g.1.toNat <<< 6 + g.2.toNat <<< 56
    else b2n (d.part q).platEn
  | .bondPort v => (d.portOf v).vfs.toNat
  | .bondHwin v i => (d.portOf v).slice i
  | .bondBoot =>
    d.box.stage.toNat + d.box.error.toNat <<< 8 + b2n d.box.dirCopy <<< 16 + d.box.idState.toNat <<< 17 +
    d.box.pubMs.toNat <<< 32
  | .bondQuote => d.box.quoteState.toNat <<< 1 + d.box.quoteBuf.toNat <<< 6
  | .bondRepair => d.box.repState.toNat + b2n d.box.repPending <<< 2 + d.box.repSeq.toNat <<< 32
  | .bondI3c =>
    d.box.da.toNat + b2n d.box.daValid <<< 7 + b2n d.box.chainIn <<< 8 + b2n d.box.chainOut <<< 9
  | .pwrCap => d.pwr.cap.toNat
  | .pwrSlew => d.pwr.slew.toNat + b2n d.pwr.balen <<< 12
  | .pwrVfloor => d.pwr.vfloor.toNat
  | .pwrStatus =>
    d.pwr.vin.toNat + min 0xFFFF (d.pwr.draw / 10) <<< 16 + min 0xFFFF (d.pwr.ballast / 10) <<< 32 + d.pwr.tdie.toNat <<< 48 +
    d.pwr.supply.toNat <<< 56
  | .pwrCnt n => (if n = 0 then d.pwr.cnt0 else d.pwr.cnt1).word.toNat
  | .pwrClr => 0

/-! ### Owners of registers (R12) -/

/-- The unit that owns the fields of configuration group `g`, by the prefix of their names: MX_ the matrix array, the quantiser's
fields the quantiser, VEC_ the vector engine, PTS_ the points unit, TT_ the sequencer (R12, R92; DEDUCED, log entry 113). -/
def cfgSrc (b g : Nat) : Nat :=
  match g with
  | 1 | 6 => baySrc 0x02 b
  | 3 => baySrc 0x05 b
  | 2 | 4 | 5 => baySrc 0x03 b
  | 7 => pierSrc 0x08 (b / 16)
  | _ => baySrc 0x01 b

/-- The EV_SOURCE of a POLICY_CONFLICT about a register. -/
def Dev.regSrc (d : Dev) (r : Reg) : Nat :=
  match r with
  | .sqCtl b _ => baySrc 0x01 b
  | .sqBase b _ => baySrc 0x01 b
  | .sqStatus b _ => baySrc 0x01 b
  | .sqOcc b _ => baySrc 0x01 b
  | .sqLc b _ _ => baySrc 0x01 b
  | .vecStatus b _ => baySrc 0x01 b
  | .cfg b _ g _ => cfgSrc b g
  | .tokens b => baySrc 0x01 b
  | .tokSet b => baySrc 0x01 b
  | .tokClr b => baySrc 0x01 b
  | .tokVoid b => baySrc 0x01 b
  | .desc b _ _ _ => baySrc 0x01 b
  | .qCnt b _ => baySrc 0x05 b
  | .qClr b => baySrc 0x05 b
  | .mxRepair b => baySrc 0x02 b
  | .mxCnt b _ => baySrc 0x02 b
  | .mxClr b => baySrc 0x02 b
  | .vecRepair b _ => baySrc 0x03 b
  | .vecCnt b _ => baySrc 0x03 b
  | .vecClr b => baySrc 0x03 b
  | .ptsCnt p _ => pierSrc 0x08 p
  | .ptsClr p => pierSrc 0x08 p
  | .updCtab p => pierSrc 0x07 p
  | .updCnt p _ => pierSrc 0x07 p
  | .updClr p => pierSrc 0x07 p
  | .updWb p _ => pierSrc 0x0B p
  | .updRst p _ => pierSrc 0x0B p
  | .wbCnt p => pierSrc 0x0B p
  | .wbClr p => pierSrc 0x0B p
  | .hbmStatus s => stackSrc s
  | .hbmLanes s => stackSrc s
  | .hbmRetrain s => stackSrc s
  | .hbmTherm s => stackSrc s
  | .hbmCnt s _ => stackSrc s
  | .hbmClr s => stackSrc s
  | .hbmReg s _ => stackSrc s
  | .integ k _ => k.src
  | .timeDelay l => plainSrc 0x21 (l / 8)
  | .lnkStatus l => plainSrc 0x21 (l / 8)
  | .lnkCtl l => plainSrc 0x21 (l / 8)
  | .lnkPmap l => plainSrc 0x21 (l / 8)
  | .lnkPmapEn l => plainSrc 0x21 (l / 8)
  | .lnkCnt l _ => plainSrc 0x21 (l / 8)
  | .lnkClr l => plainSrc 0x21 (l / 8)
  | .bondPort v => plainSrc 0x21 v
  | .bondHwin v _ => plainSrc 0x21 v
  | .bondPart q _ => coreSrc (d.serving q)
  | .bondSeg q _ _ => coreSrc (d.serving q)
  | .bondPlat q _ => coreSrc (d.serving q)
  | .ltime => plainSrc 0x31 0
  | .sync => plainSrc 0x31 0
  | .step => plainSrc 0x31 0
  | .shift => plainSrc 0x31 0
  | .pwrNeed => plainSrc 0x31 0
  | .epoch => plainSrc 0x31 0
  | .pwrCap => plainSrc 0x32 0
  | .pwrSlew => plainSrc 0x32 0
  | .pwrVfloor => plainSrc 0x32 0
  | .pwrStatus => plainSrc 0x32 0
  | .pwrCnt _ => plainSrc 0x32 0
  | .pwrClr => plainSrc 0x32 0
  | .holeStatus => plainSrc 0x30 0
  | .fabAddr => plainSrc 0x30 0
  | .cwd => plainSrc 0x30 0
  | .route _ => plainSrc 0x30 0
  | .bondBoot => plainSrc 0x30 0
  | .bondQuote => plainSrc 0x30 0
  | .bondRepair => plainSrc 0x30 0
  | .bondI3c => plainSrc 0x30 0

/-- Whether the writer is the administrative function; I3C writes as it does (R432, R470). -/
def Req.isAdmin (q : Req) : Bool := q.func == some Func.admin

/-- Whether a writer may write a register at all (R314, R336, R364, R402, R430, R434, R436, R438, R450, R475, R496). -/
def writerOk (q : Req) (r : Reg) : Bool :=
  match r with
  | .bondPart _ _ => q.isAdmin
  | .bondSeg _ _ _ => q.isAdmin
  | .bondPort _ => q.isAdmin
  | .bondHwin _ _ => q.isAdmin
  | .pwrCap => q.isAdmin
  | .pwrSlew => q.isAdmin
  | .pwrVfloor => q.isAdmin
  | .lnkCtl _ => q.isAdmin
  | .lnkPmap _ => q.isAdmin
  | .lnkPmapEn _ => q.isAdmin
  | .fabAddr => q.isAdmin
  | .cwd => q.isAdmin
  | .route _ => q.isAdmin
  | .hbmReg _ _ => q.isAdmin
  | .hbmTherm _ => q.isAdmin
  | .integ _ .scrub => q.isAdmin
  | .integ _ .code0 => q.isAdmin
  | .integ _ .code1 => q.isAdmin
  | .integ _ .retire => q.isAdmin
  | .integ _ .inject => q.isAdmin
  | .bondPlat p _ => q.isAdmin || q.part == some p
  | .updWb _ p => q.isAdmin || q.part == some p
  | .updRst _ p => q.isAdmin || q.part == some p
  | _ => true

/-- The request of a PCIe function (R37, R311). -/
def Dev.hostReq (d : Dev) (f : Func) : Req :=
  { src := plainSrc 0x21 f.port, part := d.partOf f, func := some f, occ := none }

/-! ### The plain effect of a write: its RW fields change (R15) -/

def Part.modSeg (p : Part) (n : Nat) (f : Seg → Seg) : Part := { p with segs := vmod p.segs n f }

/-- The RW fields of a register whose accepted writes wait for the next slot boundary; other registers are untouched. -/
def Dev.applyReg (r : Reg) (v : Nat) (d : Dev) : Dev :=
  match r with
  | .updCtab p => d.modPier p (fun k => { k with ctab := BitVec.ofNat 38 (v >>> 14) })
  | .updWb p q => d.modPier p (fun k =>
      { k with wbTable := vmod k.wbTable q (fun _ => BitVec.ofNat 44 (v >>> 8)), wbEn := vmod k.wbEn q (fun _ => bit v 52) })
  | .hbmRetrain s => d.modStack s (fun k =>
      { k with emerg := bit v 16, drift := BitVec.ofNat 8 (fld v 24 8), thresh := BitVec.ofNat 16 (fld v 32 16) })
  | .hbmTherm s => d.modStack s (fun k =>
      { k with hotC := BitVec.ofNat 8 (fld v 0 8), critC := BitVec.ofNat 8 (fld v 8 8) })
  | .hbmReg s q => d.modStack s (fun k =>
      { k with regs := vmod k.regs q (fun g =>
          { g with rate := BitVec.ofNat 9 (fld v 0 9), burst := BitVec.ofNat 7 (fld v 16 7), hard := bit v 23 }) })
  | .integ k .scrub => d.modInteg k.index (fun g => { g with scrubEn := bit v 0, lapMax := BitVec.ofNat 8 (fld v 8 8) })
  | .integ k .code0 => d.modInteg k.index (fun g =>
      { g with code0 := match k with | .stack _ => w64 v | .bay _ => w64 (fld v 0 12) | .yard _ => 0 })
  | .integ k .code1 => d.modInteg k.index (fun g =>
      { g with code1 := match k with | .stack _ => w64 v | _ => 0 })
  | .lnkCtl l => d.modLink l (fun k => { k with en := bit v 0, qmask := BitVec.ofNat 4 (fld v 2 4), pmd := bit v 6 })
  | .lnkPmap l => d.modLink l (fun k => { k with pmap := w64 v })
  | .lnkPmapEn l => d.modLink l (fun k => { k with pmapEn := BitVec.ofNat 16 v })
  | .fabAddr => { d with fab := { d.fab with addr := BitVec.ofNat 12 v, valid := bit v 12 } }
  | .cwd => { d with fab := { d.fab with cwd := BitVec.ofNat 16 v } }
  | .route a => { d with fab := { d.fab with routes := tabSet 0 d.fab.routes a (fld v 0 6 + (fld v 8 6) <<< 8) } }
  | .bondPart q w =>
    if w = 0 then d.modPart q (fun p =>
      { p with quarters := BitVec.ofNat 16 v, hbms := BitVec.ofNat 12 (fld v 16 12), en := bit v 28,
               func := BitVec.ofNat 5 (fld v 32 5), port := BitVec.ofNat 2 (fld v 37 2) })
    else d.modPart q (fun p => { p with links := w32 v })
  | .bondSeg q n w =>
    if w = 0 then d.modPart q (·.modSeg n (fun g =>
      { g with valid := bit v 0, wr := bit v 1, base := BitVec.ofNat 31 (fld v 21 31) }))
    else d.modPart q (·.modSeg n (fun g => { g with size := w32 v }))
  | .bondPlat q r =>
    if r < 3 then d.modPart q (fun p =>
      { p with rings := vmod p.rings r (fun _ => (BitVec.ofNat 46 (fld v 6 46), BitVec.ofNat 4 (fld v 56 4))) })
    else d.modPart q (fun p => { p with platEn := bit v 0 })
  | .bondPort y => d.modPort y (fun k => { k with vfs := BitVec.ofNat 5 v })
  | .bondHwin y i => d.modPort y (fun k => { k with hwin := tabSet 0 k.hwin i (fld v 0 5 + (fld v 12 52) <<< 12) })
  | .pwrCap => d.modPwr (fun p => { p with cap := BitVec.ofNat 16 v })
  | .pwrSlew => d.modPwr (fun p => { p with slew := BitVec.ofNat 12 v, balen := bit v 12 })
  | .pwrVfloor => d.modPwr (fun p => { p with vfloor := BitVec.ofNat 10 v })
  | _ => d

/-- The device with every waiting write in force: what later writes are checked against (DESIGN CHOICE, log entry 16). -/
def Dev.ahead (d : Dev) : Dev := d.pend.foldl (fun e w => e.applyReg w.reg w.val.toNat) d

/-! ### Values that are discarded -/

/-- Whether any stream of partition `q`'s bays is neither IDLE nor FAULTED (R434). -/
def Dev.partBusy (d : Dev) (q : Nat) : Bool :=
  ((maskBits 16 (d.part q).quarters.toNat).map (fun i => (List.range 4).map (fun j => 4 * i + j))).flatten.any (fun b =>
    (List.range 3).any (fun s =>
      let st := (d.stream b s).state
      st != .idle && st != .faulted))

/-- The rules a write of BOND_PARTq must keep (R434, R438), with `e` the device as the write would leave it and `a` the
device as it will stand without it. -/
def partBad (d a e : Dev) (q : Nat) : Bool :=
  let old := a.part q
  let new := e.part q
  let hasTt := (d.part q).installed.isSome || (d.part q).staged.isSome
  let changed : Bool := old.quarters != new.quarters || old.hbms != new.hbms || old.links != new.links ||
    old.func != new.func || old.port != new.port
  (List.range 16).any (fun o => o != q && (a.part o).en && (a.part o).quarters &&& new.quarters != 0) ||
  (new.en && new.quarters == 0) ||
  decide ((a.portOf new.port.toNat).vfs.toNat < new.func.toNat) ||
  (new.en && (List.range 16).any (fun o =>
    o != q && (a.part o).en && (a.part o).func == new.func && (a.part o).port == new.port)) ||
  (old.port != new.port && (List.range 4).any (fun v => v != new.port.toNat && (List.range 64).any (fun i =>
    let h := (a.portOf v).slice i
    bit h 0 && fld h 1 4 == q))) ||
  (changed && (hasTt || d.partBusy q))

/-- Whether a range lies inside one region of R32, and over units of the partition only (R436). -/
def windowOver (a : Dev) (q lo hi : Nat) : Bool :=
  let p := a.part q
  let last := hi - 1
  let units (unitOf : Nat → Nat) (ok : Nat → Bool) : Bool :=
    (List.range (unitOf last + 1 - unitOf lo)).all (fun i => ok (unitOf lo + i))
  let within (l h : Nat) : Bool := decide (l ≤ lo) && decide (hi ≤ h)
  if hi ≤ lo then true
  else if within 0x100000000 0x140000000 then
    units (fun x => (x - 0x100000000) / 0x1000000) (fun b => p.quarters.toNat.testBit (b / 4))
  else if within 0x140000000 0x180000000 then
    units (fun x => (x - 0x140000000) / 0x10000000) (fun i =>
      (List.range 4).any (fun j => p.quarters.toNat.testBit (4 * i + j)))
  else if within 0x1000000000 0x2000000000 then
    units (fun x =>
      let o := x - 0x1000000000
      16 * (o / 0x400000000) + min 15 (o % 0x400000000 / 0x30000000)) (fun b => p.quarters.toNat.testBit (b / 4))
  else if within 0x10000000000 0x30000000000 then
    units (fun x => min 11 ((x - 0x10000000000) / 0x2000000000)) (fun s => p.hbms.toNat.testBit s)
  else if within 0x100000000000 0x140000000000 then
    units (fun x => (x - 0x100000000000) / 0x400000000) (fun i =>
      let h := (a.portOf (i / 64)).slice (i % 64)
      bit h 0 && fld h 1 4 == q)
  else if within 0x4000000000000 0x4400000000000 then
    units (fun x => (x - 0x4000000000000) / 0x20000000000) (fun l => p.links.toNat.testBit l)
  else false

/-- Whether a written window may not lie where it does (R436). -/
def segBad (a e : Dev) (q n : Nat) : Bool :=
  let g := vget Seg.none (e.part q).segs n
  let meets (h : Seg) : Bool := h.valid && decide (h.start < g.stop) && decide (g.start < h.stop)
  g.valid &&
  (!windowOver a q g.start g.stop ||
   (List.range 16).any (fun o => o != q && (a.part o).en && (a.part o).segs.toList.any (fun h =>
      meets h && (
        (g.wr && (h.wr || (a.part o).segs.toList.any (fun h' =>
            h'.wr && h'.valid && decide (h'.start < min g.stop h.stop) && decide (max g.start h.start < h'.stop)))) ||
        (!g.wr && h.wr && (a.part q).segs.toList.any (fun h' =>
            h'.wr && h'.valid && decide (h'.start < min g.stop h.stop) && decide (max g.start h.start < h'.stop)))))))

/-- Whether every ring of an enabled platform lies inside the partition's windows (R441). The event and completion rings
are written, and CONS of the submission ring is, so the windows must allow stores. -/
def ringsOk (p : Part) : Bool :=
  !p.platEn || (List.range 3).all (fun r => p.inside true (p.ringBase r) (64 + 64 * p.ringSize r))

/-- Whether an entry of an installed timetable claims stack `s` (R345). -/
def Dev.claimsStack (d : Dev) (s : Nat) : Bool :=
  d.timetables.any (fun x => x.2.entries.any (fun e => e.hbmmask.testBit s))

/-- Whether an entry claims the cap tile of bay `b`: near by one of its bays, or far (R345). -/
def Dev.claimsCap (d : Dev) (b : Nat) : Bool :=
  d.timetables.any (fun x => x.2.entries.any (fun e =>
    (decide (0 < e.capnear) && e.names b) || (decide (0 < e.capfar) && e.fartile == b)))

/-- Occurrences whose span covers the current slot and whose path set claims link `l` (R402). -/
def Dev.linkInSpan (t : TimeUnit) (d : Dev) (l : Nat) : List Occ :=
  d.openOccs.filter (fun o => d.inSpan o t.slot &&
    (match o.paths with | some p => p.claims.any (fun c => c.link == l) | none => false))

/-- Whether a partition holds a path claim in span (R402): by an occurrence or by an entry of its timetable now. -/
def Dev.pathInSpan (t : TimeUnit) (d : Dev) (q : Nat) : Bool :=
  (d.part q).occs.any (fun o => o.open && d.inSpan o t.slot &&
    (match o.paths with | some p => !p.claims.isEmpty | none => false))

/-- The local partitions that a change of a link's maps affects. -/
def mapAffected (k k' : Link) : List Nat :=
  ((List.range 16).filter (fun x =>
    fld k.pmap.toNat (4 * x) 4 != fld k'.pmap.toNat (4 * x) 4 || bit k.pmapEn.toNat x != bit k'.pmapEn.toNat x)).flatMap
    (fun x => [fld k.pmap.toNat (4 * x) 4, fld k'.pmap.toNat (4 * x) 4])

/-- Sum of RATE over the partitions of a stack (R314). -/
def rateSum (d : Dev) (s : Nat) : Nat :=
  ((List.range 16).map (fun q => (vget Regulator.reset (d.stack s).regs q).rate.toNat)).foldl (· + ·) 0

/-- Values that a waiting register discards with POLICY_CONFLICT, whoever writes them (R314, R336, R345, R364, R402, R434,
R436, R438, R441, R450, R496). -/
def Dev.badWrite (t : TimeUnit) (d : Dev) (r : Reg) (v : Nat) : Bool :=
  let a := d.ahead
  let e := a.applyReg r v
  match r with
  | .hbmRetrain _ => decide (fld v 24 8 < 5) || decide (30 < fld v 24 8) || fld v 32 16 == 0
  | .hbmTherm _ =>
    let hot := fld v 0 8
    let crit := fld v 8 8
    decide (hot < 70) || decide (85 < hot) || decide (crit < hot + 5) || decide (95 < crit)
  | .hbmReg s _ =>
    decide (256 < fld v 0 9) || fld v 16 7 == 0 || decide (64 < fld v 16 7) || decide (256 < rateSum e s)
  | .integ _ .scrub => fld v 8 8 == 0
  | .integ (.stack s) .code0 => d.claimsStack s
  | .integ (.stack s) .code1 => d.claimsStack s
  | .integ (.bay b) .code0 => d.claimsCap b
  | .lnkPmap l => (mapAffected (a.link l) (e.link l)).any (d.pathInSpan t)
  | .lnkPmapEn l => (mapAffected (a.link l) (e.link l)).any (d.pathInSpan t)
  | .fabAddr => d.anyTimetable
  | .cwd => decide (fld v 0 16 < 16)
  | .lnkCtl l => bit v 1 && !(d.linkInSpan t l).isEmpty
  | .bondPart q _ => partBad d a e q
  | .bondSeg q n _ => segBad a e q n || !ringsOk (e.part q)
  | .bondPlat _ r => decide (r < 3) && decide (12 < fld v 56 4)
  | .bondPort y =>
    decide (16 < fld v 0 5) ||
    decide (16 < ((List.range 4).map (fun i => (e.portOf i).vfs.toNat)).foldl (· + ·) 0) || (d.portOf y).vfEnable
  | .bondHwin y _ => bit v 0 && (a.part (fld v 1 4)).port.toNat != y
  | .pwrCap => decide (fld v 0 16 < 1000) || decide (3400 < fld v 0 16) || decide (fld v 0 16 < d.bond.pwrNeed.toNat)
  | .pwrSlew => decide (fld v 0 12 < 5) || decide (500 < fld v 0 12)
  | .pwrVfloor => fld v 0 10 != 0 && (decide (fld v 0 10 < 700) || decide (900 < fld v 0 10))
  | _ => false

/-- EV_COUNT of the POLICY_CONFLICT of a discarded write: TT_PWR_NEED for a cap below it, else 0 (R67). -/
def Dev.conflictCount (d : Dev) (r : Reg) (v : Nat) : Nat :=
  match r with
  | .pwrCap => if fld v 0 16 < d.bond.pwrNeed.toNat then d.bond.pwrNeed.toNat else 0
  | _ => 0

/-- A write of a register whose accepted writes wait for the next slot boundary: check it, then hold it (R18). -/
def Dev.deferWrite (t : TimeUnit) (req : Req) (r : Reg) (v : Nat) (d : Dev) : Dev :=
  if !writerOk req r then d.conflict t req (d.regSrc r) 0
  else if d.badWrite t r v then d.conflict t req (d.regSrc r) (d.conflictCount r v)
  else { d with pend := d.pend ++ [{ reg := r, val := w64 v, req := req }] }

/-! ### Writes that act when they arrive -/

/-- RUN and HALT of TT_SQ_CTL, with START_IPTR (R76, R77). An ignored RUN or HALT writes POLICY_CONFLICT;
START_IPTR is a field of its own, and the new value is kept whether or not RUN or HALT is ignored (DESIGN CHOICE, log entry
127). -/
def Dev.sqCtlWrite (t : TimeUnit) (req : Req) (b s v : Nat) (d : Dev) : Dev :=
  let src := baySrc 0x01 b
  let d0 := d.modStream b s (fun x => { x with startIptr := w32 (fld v 32 32) })
  let d1 :=
    if !bit v 0 then d0
    else
      let st := (d0.stream b s).state
      if st = .idle ∨ st = .faulted then d0.modStream b s (fun x => { x with runPend := true })
      else d0.conflict t req src 0
  if !bit v 1 then d1
  else
    let owed := match (d1.stream b s).occ with
      | some k => match d1.occ k with | some o => o.open | none => false
      | none => false
    if owed then d1.conflict t req src 0
    else d1.modStream b s (fun x => { x with haltPend := true })

/-- A host write to a configuration field is checked as CFG checks it and held in the host shadow; the last to arrive
prevails (R94, R100, R443). -/
def Dev.cfgWrite (t : TimeUnit) (req : Req) (b s g f v : Nat) (d : Dev) : Dev :=
  if cfgBad g f v then d.conflict t req (cfgSrc b g) 0
  else d.modStream b s (fun x =>
    { x with hostCfg := x.hostCfg.filter (fun e => !(e.1 = g ∧ e.2.1 = f)) ++ [(g, f, w64 v)] })

/-- A host write to a descriptor table is held until the next slot boundary (R95). -/
def Dev.descWrite (b s slot w v : Nat) (ep : Bool) (d : Dev) : Dev :=
  d.modStream b s (fun x => { x with hostDesc := x.hostDesc ++ [(slot, w, w64 v, ep)] })

/-- A host's token write takes effect, or waits while the domain holds (R62, R76; DESIGN CHOICE, log entry 125). -/
def Bay.hostWrites (y : Bay) (paused : Bool) (x : Bool × W64) : Bay :=
  if paused then { y with tokWait := y.tokWait ++ [x] } else y.hostTokens x

/-- TT_TOKSET (R76, R86). -/
def Dev.tokenSet (b v : Nat) (d : Dev) : Dev := d.modBay b (fun y => y.hostWrites d.hold.paused (true, w64 v))

/-- TT_TOKCLR: clears tokens and their void marks (R76, R86). -/
def Dev.tokenClear (b v : Nat) (d : Dev) : Dev := d.modBay b (fun y => y.hostWrites d.hold.paused (false, w64 v))

/-- VEC_STATUS is W1C (R76). -/
def Dev.permOorClear (b s v : Nat) (d : Dev) : Dev :=
  d.modStream b s (fun x => { x with permOor := x.permOor && !bit v 0 })

def Dev.clearQ (b v : Nat) (d : Dev) : Dev :=
  if bit v 0 then d.modBay b (fun y => { y with qCnt := Vector.replicate 2 Pair32.zero }) else d
def Dev.clearMx (b v : Nat) (d : Dev) : Dev :=
  if bit v 0 then d.modBay b (fun y => { y with mxCnt := Vector.replicate 3 Pair32.zero }) else d
def Dev.clearVec (b v : Nat) (d : Dev) : Dev :=
  if bit v 0 then d.modBay b (fun y => { y with vecCnt := Vector.replicate 2 Pair32.zero }) else d
def Dev.clearPts (p v : Nat) (d : Dev) : Dev :=
  if bit v 0 then d.modPier p (fun k => { k with ptsCnt := Vector.replicate 3 Pair32.zero }) else d
def Dev.clearUpd (p v : Nat) (d : Dev) : Dev :=
  if bit v 0 then d.modPier p (fun k => { k with updCnt := Vector.replicate 4 Pair32.zero }) else d
def Dev.clearWb (p v : Nat) (d : Dev) : Dev :=
  if bit v 0 then d.modPier p (fun k => { k with wbCnt := Pair32.zero }) else d
def Dev.clearHbm (s v : Nat) (d : Dev) : Dev :=
  if bit v 0 then d.modStack s (fun k => { k with cnt := Vector.replicate 3 Pair32.zero }) else d
def Dev.clearLnk (l v : Nat) (d : Dev) : Dev :=
  if bit v 0 then d.modLink l (fun k => { k with cnt := Vector.replicate 3 Pair32.zero }) else d
def Dev.clearPwr (v : Nat) (d : Dev) : Dev :=
  if bit v 0 then d.modPwr (fun k => { k with cnt0 := Pair32.zero, cnt1 := Pair32.zero }) else d

/-- ECLR (R364). -/
def Dev.eclrWrite (k : IntegBlock) (v : Nat) (d : Dev) : Dev :=
  d.modInteg k.index (fun g =>
    { g with cnt0 := if bit v 0 then Pair32.zero else g.cnt0, cnt1 := if bit v 0 then Pair32.zero else g.cnt1,
             log := if bit v 1 then Vector.replicate 32 LogEntry.empty else g.log })

/-- HOLE_CLR clears the whole of BOND_HOLE_STATUS (R37). -/
def Dev.holeClear (v : Nat) (d : Dev) : Dev :=
  if bit v 36 then d.modBox (fun x => { x with holeCount := 0, holePart := 0, holeNoPart := false, holeAddr := 0 }) else d

/-- A write of RETIRE: INDEX and BANK are kept; with GO = 1 a legal target waits for the next slot boundary (a page) or
the next long enough maintenance entry (a bank), and the repair record is due (R362, R364, R464). -/
def Dev.retireWrite (t : TimeUnit) (req : Req) (k : IntegBlock) (v : Nat) (d : Dev) : Dev :=
  if !req.isAdmin then d.conflict t req k.src 0
  else
    let i := fld v 0 16
    let bank := bit v 16
    let d1 := d.modInteg k.index (fun g => { g with retireIndex := BitVec.ofNat 16 i, retireBank := bank })
    let inRange : Bool := match k with
      | .stack s => !bank && decide (i < (d.stack s).c * 4096)
      | .bay _ => decide (i < if bank then 32 else 384)
      | .yard _ => !bit v 17
    if !inRange then d.conflict t req k.src 0
    else if !bit v 17 then d1
    else
      let g := d.integ k.index
      let pages := g.pages.length + g.pagePend.length
      let banks := g.banks.length + g.bankPend.length + g.bankCopy.length
      let ok : Bool := match k with
        | .stack _ => decide (pages < 64)
        | .bay b => d.bayPresent b && (if bank then decide (banks < 2) else decide (pages < 16))
        | .yard _ => false
      if !ok then d.conflict t req k.src 0
      else if bank then
        if g.banks.contains i ∨ g.bankPend.contains i ∨ g.bankCopy.contains i then d1
        else (d1.modInteg k.index (fun g => { g with bankPend := g.bankPend ++ [i] })).repairDue
      else if g.pages.contains i ∨ g.pagePend.contains i then d1
      else (d1.modInteg k.index (fun g => { g with pagePend := g.pagePend ++ [i] })).repairDue

/-- The populated size of an injection's target, and the device address of its first byte (R364). -/
def Dev.injectTarget (d : Dev) (k : IntegBlock) (store : Bool) : Nat × Nat :=
  match k with
  | .stack s => ((d.stack s).c * 0x200000000, hbmBase s)
  | .bay b => if !(d.bayPresent b) then (0, 0) else if store then (0x800000, bayBase b) else (0x30000000, capBase b)
  | .yard p => (if (d.pier p).present then 0xC000000 else 0, yardBase p)

/-- A write of INJECT; with GO = 1 a legal target waits for the next idle cycle (R364, R502). KIND 3 is outside its range. -/
def Dev.injectWrite (t : TimeUnit) (req : Req) (k : IntegBlock) (v : Nat) (d : Dev) : Dev :=
  if !req.isAdmin then d.conflict t req k.src 0
  else
    let o := fld v 0 37
    let kind := fld v 37 2
    let store : Bool := match k with | .bay _ => bit v 39 | _ => false
    let (size, base) := d.injectTarget k store
    let a := base + o
    if size ≤ o ∨ d.isRetired (regionOf a) ∨ kind = 3 then d.conflict t req k.src 0
    else
      d.modInteg k.index (fun g =>
        { g with injectReg := BitVec.ofNat 40 (fld v 0 39 + b2n store <<< 39),
                 inject := if bit v 40 then some { addr := a, kind := kind } else g.inject })

/-- A write of BOND_QUOTE: BUF is kept; GO queues a quote, whose nonce is read as soon as its memory serves the read, is refused with
STATE 3, or while one is busy is discarded with POLICY_CONFLICT (R465, R475). -/
def Dev.quoteWrite (t : TimeUnit) (req : Req) (v : Nat) (d : Dev) : Dev :=
  if !req.isAdmin then d
  else if bit v 0 ∧ d.box.quoteState = 1 then d.conflict t req (plainSrc 0x30 0) 0
  else
    let d1 := d.modBox (fun x => { x with quoteBuf := BitVec.ofNat 46 (fld v 6 46) })
    if !bit v 0 then d1
    else
      let buf := fld v 6 46 * 64
      let ok : Bool := d.box.idState != 2 && (match d.adminPart with
        | some q => (d.part q).inside true buf 1600
        | none => false)
      if !ok then d1.modBox (fun x => { x with quoteState := 3 })
      else
        ({ d1.modBox (fun x => { x with quoteState := 1 }) with
          bond := { d1.bond with signer := d1.bond.signer ++ [.quote (some buf) none none] } } : Dev).enqueue
          (.nonce (d.adminPart.getD 0) buf) [(buf, 64)]

/-- A write of BOND_REPAIR.CLEAR; while a timetable is installed it is discarded with POLICY_CONFLICT (R475). -/
def Dev.repairWrite (t : TimeUnit) (req : Req) (v : Nat) (d : Dev) : Dev :=
  if !req.isAdmin ∨ !bit v 3 then d
  else if d.anyTimetable then d.conflict t req (plainSrc 0x30 0) 0
  else d.modBox (fun x => { x with repClear := true })

/-- A write of UPD_RSTq: ORDER is kept; GO starts a restore or is discarded (R426, R430). -/
def Dev.rstWrite (t : TimeUnit) (req : Req) (p q v : Nat) (d : Dev) : Dev :=
  let go := bit v 52
  let running : Bool := (List.range 4).any (fun i => vget 0 (d.pier i).rstState q == 1)
  if !writerOk req (.updRst p q) ∨ (go ∧ ((d.part q).installed.isSome ∨ running)) then
    d.conflict t req (pierSrc 0x0B p) 0
  else
    d.modPier p (fun k =>
      { k with rstOrder := vmod k.rstOrder q (fun _ => BitVec.ofNat 44 (fld v 8 44)),
               rstState := if go then vmod k.rstState q (fun _ => 1) else k.rstState })

/-- TT_EPOCH takes multiples of 1,000,000,000; another value is kept as written (R71). -/
def epochWrite (v : Nat) (t : TimeUnit) : TimeUnit := { t with epoch := w64 v }

/-- Every write of a register, by its own rule (R15, R16). -/
def Dev.regWrite (req : Req) (r : Reg) (v : Nat) (t : TimeUnit) (d : Dev) : TimeUnit × Dev :=
  match r with
  | .sync => syncWrite req v t d
  | .epoch => (epochWrite v t, d)
  | .timeDelay l => (t, d.modLink l (fun k => { k with asym := BitVec.ofNat 16 (fld v 32 16) }))
  | .sqCtl b s => (t, d.sqCtlWrite t req b s v)
  | .sqBase b s => (t, d.modStream b s (fun x => { x with base := BitVec.ofNat 48 (fld v 4 48) }))
  | .vecStatus b s => (t, d.permOorClear b s v)
  | .cfg b s g f => (t, d.cfgWrite t req b s g f v)
  | .desc b s slot w => (t, d.descWrite b s slot w v false)
  | .tokSet b => (t, d.tokenSet b v)
  | .tokClr b => (t, d.tokenClear b v)
  | .qClr b => (t, d.clearQ b v)
  | .mxClr b => (t, d.clearMx b v)
  | .vecClr b => (t, d.clearVec b v)
  | .ptsClr p => (t, d.clearPts p v)
  | .updClr p => (t, d.clearUpd p v)
  | .wbClr p => (t, d.clearWb p v)
  | .hbmClr s => (t, d.clearHbm s v)
  | .lnkClr l => (t, d.clearLnk l v)
  | .pwrClr => (t, d.clearPwr v)
  | .integ k .eclr => (t, d.eclrWrite k v)
  | .integ k .retire => (t, d.retireWrite t req k v)
  | .integ k .inject => (t, d.injectWrite t req k v)
  | .holeStatus => (t, d.holeClear v)
  | .bondQuote => (t, d.quoteWrite t req v)
  | .bondRepair => (t, d.repairWrite t req v)
  | .updRst p q => (t, d.rstWrite t req p q v)
  | .updCtab _ => (t, d.deferWrite t req r v)
  | .updWb _ _ => (t, d.deferWrite t req r v)
  | .hbmRetrain _ => (t, d.deferWrite t req r v)
  | .hbmTherm _ => (t, d.deferWrite t req r v)
  | .hbmReg _ _ => (t, d.deferWrite t req r v)
  | .integ _ .scrub => (t, d.deferWrite t req r v)
  | .integ _ .code0 => (t, d.deferWrite t req r v)
  | .integ _ .code1 => (t, d.deferWrite t req r v)
  | .lnkCtl _ => (t, d.deferWrite t req r v)
  | .lnkPmap _ => (t, d.deferWrite t req r v)
  | .lnkPmapEn _ => (t, d.deferWrite t req r v)
  | .fabAddr => (t, d.deferWrite t req r v)
  | .cwd => (t, d.deferWrite t req r v)
  | .route _ => (t, d.deferWrite t req r v)
  | .bondPart _ _ => (t, d.deferWrite t req r v)
  | .bondSeg _ _ _ => (t, d.deferWrite t req r v)
  | .bondPlat _ _ => (t, d.deferWrite t req r v)
  | .bondPort _ => (t, d.deferWrite t req r v)
  | .bondHwin _ _ => (t, d.deferWrite t req r v)
  | .pwrCap => (t, d.deferWrite t req r v)
  | .pwrSlew => (t, d.deferWrite t req r v)
  | .pwrVfloor => (t, d.deferWrite t req r v)
  | .ltime => (t, d)
  | .step => (t, d)
  | .shift => (t, d)
  | .pwrNeed => (t, d)
  | .sqStatus _ _ => (t, d)
  | .sqOcc _ _ => (t, d)
  | .sqLc _ _ _ => (t, d)
  | .tokens _ => (t, d)
  | .tokVoid _ => (t, d)
  | .qCnt _ _ => (t, d)
  | .mxRepair _ => (t, d)
  | .mxCnt _ _ => (t, d)
  | .vecRepair _ _ => (t, d)
  | .vecCnt _ _ => (t, d)
  | .ptsCnt _ _ => (t, d)
  | .updCnt _ _ => (t, d)
  | .wbCnt _ => (t, d)
  | .hbmStatus _ => (t, d)
  | .hbmLanes _ => (t, d)
  | .hbmCnt _ _ => (t, d)
  | .integ _ .eccnt0 => (t, d)
  | .integ _ .eccnt1 => (t, d)
  | .integ _ (.log _ _) => (t, d)
  | .lnkStatus _ => (t, d)
  | .lnkCnt _ _ => (t, d)
  | .bondBoot => (t, d)
  | .bondI3c => (t, d)
  | .pwrStatus => (t, d)
  | .pwrCnt _ => (t, d)

end Sys2Proof.Machine
end

