-- ==== Sys2Proof/Machine/Integrity.lean ====
section
/-! DEFINITION. Scrubbing, region code changes, retirement and injection (R345, R359 to R364, R502). -/

namespace Sys2Proof.Machine

/-- The block of an index (R364). -/
def blockAt (n : Nat) : IntegBlock := if n < 64 then .bay n else if n < 76 then .stack (n - 64) else .yard (n - 76)

/-! ### Scrubbing (R360, R361) -/

/-- The bytes that a block's scrubber walks; a bay's block walks its bay store and then its cap tile. -/
def Dev.scrubSize (d : Dev) (k : IntegBlock) : Nat :=
  match k with
  | .stack s => (d.stack s).c * 0x200000000
  | .bay b => if d.bayPresent b then 0x800000 + 0x30000000 else 0
  | .yard p => if (d.pier p).present then 0xC000000 else 0

/-- The device address of a place of a lap. -/
def scrubAddr (k : IntegBlock) (pos : Nat) : Nat :=
  match k with
  | .stack s => hbmBase s + pos
  | .bay b => if pos < 0x800000 then bayBase b + pos else capBase b + (pos - 0x800000)
  | .yard p => yardBase p + pos

/-- What one step of a scrubber reads: a 64-byte block, or a 256-byte granule in HBM. -/
def scrubUnit (k : IntegBlock) : Nat := match k with | .stack _ => 256 | _ => 64

/-- The range that a lap at a place walks, as places from first to past the last: a bay's block serves two scrubbers, of its bay
store and of its cap tile, whose laps take turns (R332, R360; DEDUCED, log entry 66). -/
def lapRange (k : IntegBlock) (size pos : Nat) : Nat × Nat :=
  match k with
  | .bay _ => if pos < 0x800000 then (0, 0x800000) else (0x800000, size)
  | _ => (0, size)

/-- The end of the lap of the range that begins at `lo`: its record, LASTLAP, and the next lap, at `next` (R12, R361, R363). -/
def Dev.endLap (t : TimeUnit) (k : IntegBlock) (lo next : Nat) (d : Dev) : Dev :=
  let g := d.integ k.index
  let ns := t.now - g.lapStart
  let d1 := d.emit t none { record 0x0F (errorSrc k (scrubAddr k lo)) with
    addr := BitVec.ofNat 52 (scrubAddr k lo), count := w64 (ns / 1000000)
    detail := detail [(48, 4, g.lapCorr), (52, 4, g.lapUncorr), (56, 4, g.lapSkip)] }
  d1.modInteg k.index (fun g =>
    { g with lastLap := w32 (ns / 1000000000), scrubPos := next, lapStart := t.now, lapCorr := 0, lapUncorr := 0, lapSkip := 0
             lapLate := false })

/-- A scrubber's read of a granule of a failed channel: poison, and a UE_POISONED record, counted in the lap (R325, R348). -/
def Dev.scrubFailed (t : TimeUnit) (n : Nat) (k : IntegBlock) (a : Nat) (r : Region) (d : Dev) : Dev :=
  let chan := match r with | .hbm s o => (d.stack s).chanOf o | _ => 0xFF
  ((d.modInteg n (fun g => { g with lapUncorr := g.lapUncorr + 1 })).uncorrected none k (errorSrc k a)
    [{ addr := a, bytes := scrubUnit k, kind := 3, code := b2n (d.isLight r), chan := chan }]).flushOwed t

/-- SCRUB_STEP of block `n`: the next block or granule is read and checked, what is left of a retired page skipped; at the end of
the range the lap ends. A read of a failed channel finds poison, as any read of it does; memory that serves no request now is left
until it does (R325, R345, R348, R360, R361). -/
def scrubStep (n : Nat) (t : TimeUnit) (d : Dev) : Dev :=
  let k := blockAt n
  let g := d.integ n
  let size := d.scrubSize k
  if !g.scrubEn ∨ size = 0 then d
  else
    let a := scrubAddr k g.scrubPos
    let r := d.regionAt a
    let (lo, hi) := lapRange k size g.scrubPos
    if d.mustWait a (scrubUnit k) then d
    else
      let d1 :=
        if d.isRetired r then
          d.modInteg n (fun g => { g with scrubPos := (g.scrubPos / 0x200000 + 1) * 0x200000, lapSkip := g.lapSkip + 1 })
        else
          let d0 := if d.isFailed r then d.scrubFailed t n k a r else d.check t none a (scrubUnit k) (fun _ => true) true 1
          d0.modInteg n (fun g => { g with scrubPos := g.scrubPos + scrubUnit k })
      if hi ≤ (d1.integ n).scrubPos then d1.endLap t k lo (if size ≤ hi then 0 else hi) else d1

/-- SCRUB_LAP_OVERDUE of block `n`: a lap has run for LAPMAX hours: one CAUTION for that lap (R361). -/
def scrubOverdue (n : Nat) (t : TimeUnit) (d : Dev) : Dev :=
  let k := blockAt n
  let g := d.integ n
  if g.lapLate ∨ !g.scrubEn ∨ t.now < g.lapStart + g.lapMax.toNat * 3600000000000 then d
  else
    (d.modInteg n (fun g => { g with lapLate := true })).emit t none { record 0x06 (errorSrc k (scrubAddr k g.scrubPos)) with detail := detail [(48, 1, 0x06)] }

/-! ### Strong and light regions (R345) -/

/-- The bytes of region `i` of a block. -/
def codeRegion (k : IntegBlock) (i : Nat) : Nat × Nat :=
  match k with
  | .stack s => (hbmBase s + i * 0x40000000, 0x40000000)
  | .bay b => (capBase b + i * 0x4000000, 0x4000000)
  | .yard p => (yardBase p, 0)

/-- REGION_ZERO_DONE: zeros, good in the new code, stand over region `i` of block `n`, and its requests go on (R345). -/
def regionZeroDone (n i : Nat) (d : Dev) : Dev :=
  if !(d.integ n).zeroing.contains i then d
  else
    let (lo, len) := codeRegion (blockAt n) i
    (d.modMem (·.fillRange lo len false)).modInteg n (fun g => { g with zeroing := g.zeroing.filter (· != i) })

/-! ### Retirement (R362) -/

/-- The value of a RETIRE write with GO. -/
def retireValue (index : Nat) (bank : Bool) : Nat := index % 65536 + b2n bank <<< 16 + 1 <<< 17

/-- CAP_BANK_COPY: a retired bank is copied to a spare in a maintenance entry with at least 800,000 lt of span left (R362). -/
def capBankCopy (b i : Nat) (t : TimeUnit) (d : Dev) : Dev :=
  let room : Bool := match d.maint with
    | some e => decide (t.now + 800000 ≤ (e + 1) * t.slotLen)
    | none => false
  if !(d.integ b).bankPend.contains i ∨ !room then d
  else d.modInteg b (fun g => { g with bankPend := g.bankPend.filter (· != i), bankCopy := g.bankCopy ++ [i] })

/-- CAP_BANK_COPY_DONE: the bank's offsets reach the spare; a repair record and the bond table follow (R362, R464, R474). -/
def capBankDone (b i : Nat) (d : Dev) : Dev :=
  if !(d.integ b).bankCopy.contains i then d
  else
    (((d.modInteg b (fun g => { g with bankCopy := g.bankCopy.filter (· != i), banks := g.banks ++ [i] })).repairDue).bondDue)

/-! ### Injection (R502) -/

/-- The value of an INJECT write with GO. -/
def injectValue (offset kind : Nat) (store : Bool) : Nat := fld offset 0 37 + fld kind 0 2 <<< 37 + b2n store <<< 39 + 1 <<< 40

/-- INJECT_APPLY: in an idle cycle of block `n` the injection inverts fixed bits of the stored word, or poisons its byte; the
check bits stay (R502). -/
def injectApply (n : Nat) (t : TimeUnit) (d : Dev) : Dev :=
  match (d.integ n).inject with
  | none => d
  | some j =>
    let d1 := d.modInteg n (fun g => { g with inject := none })
    let hbm := decide (64 ≤ n) && decide (n < 76)
    let a := j.addr
    let x := a / 32 * 32
    if j.kind = 2 then
      let d2 := if hbm then d1.check t none x 32 (fun _ => true) false 2 else d1
      d2.modMem (·.put a 0 true)
    else if hbm then
      let d2 := d1.modMem (·.flip a 1)
      if j.kind = 1 then d2.modMem (·.flip (x + (a + 1) % 32) 1) else d2
    else d1.modMem (·.flip a (if j.kind = 1 then 3 else 1))

end Sys2Proof.Machine
end

