-- ==== Sys2Proof/Machine/BayCommands.lean ====
section
/-! DEFINITION. The meanings of the commands of bay instructions and of what their units do afterwards (chapters 3 to
10), one definition per command over the shared operations. -/

namespace Sys2Proof.Machine

/-- NOP (R98). A stream issues NOP, which does nothing. -/
def execNop (b : Fin 64) (i : Fin 3) (s : State) : Host.Outcome State Fault Refusal :=
  s.run (fun t d => d.issue t b i (fun w => opc w == 0x00) nopBody)

/-- END (R90). A stream issues END, which closes its current occurrence and puts the stream in IDLE. -/
def execEndStream (b : Fin 64) (i : Fin 3) (s : State) : Host.Outcome State Fault Refusal :=
  s.run (fun t d => d.issue t b i (fun w => opc w == 0x01) endBody)

/-- DEPART (R89). A stream issues DEPART; the current occurrence is closed, the earliest bindable occurrence of the
entry is bound, and the stream starts waiting. -/
def execDepart (b : Fin 64) (i : Fin 3) (s : State) : Host.Outcome State Fault Refusal :=
  s.run (fun t d => d.issue t b i (fun w => opc w == 0x02) (departBody t))

/-- DEPART_RELEASE (R89). The wait of a bound DEPART ends once its tokens are set and, unless TE_EARLY is 1, its
departure slot has come; the stream may clear WMASK and starts its station clock. -/
def execDepartRelease (b : Fin 64) (i : Fin 3) (s : State) : Host.Outcome State Fault Refusal :=
  s.run (departRelease b i)

/-- BRANCH_JUMP (R99). BRANCH mode 0 jumps to TARGET. -/
def execBranchJump (b : Fin 64) (i : Fin 3) (s : State) : Host.Outcome State Fault Refusal :=
  s.run (fun t d => d.issue t b i (fun w => opc w == 0x03 && (fld w 34 2 == 0 || fld w 34 2 == 3)) jumpBody)

/-- BRANCH_LOOP (R99). BRANCH mode 1 decrements LCn and jumps when LCn is non-zero. -/
def execBranchLoop (b : Fin 64) (i : Fin 3) (s : State) : Host.Outcome State Fault Refusal :=
  s.run (fun t d => d.issue t b i (fun w => opc w == 0x03 && fld w 34 2 == 1) loopBody)

/-- BRANCH_SET_COUNT (R99). BRANCH mode 2 loads LCn with COUNT without jumping. -/
def execBranchSetCount (b : Fin 64) (i : Fin 3) (s : State) : Host.Outcome State Fault Refusal :=
  s.run (fun t d => d.issue t b i (fun w => opc w == 0x03 && fld w 34 2 == 2) setCountBody)

/-- BRANCH_STALL_END (R74). The fetch stall after a taken branch whose target is not in the buffer ends, and the
stream can issue again. -/
def execBranchStallEnd (b : Fin 64) (i : Fin 3) (s : State) : Host.Outcome State Fault Refusal :=
  s.runDev (branchStallEnd b i)

/-- CFG (R93). CFG checks VALUE and writes one field of the stream's shadow configuration. -/
def execCfg (b : Fin 64) (i : Fin 3) (s : State) : Host.Outcome State Fault Refusal :=
  s.run (fun t d => d.issue t b i (fun w => opc w == 0x04) (cfgBody t))

/-- COMMIT (R93). COMMIT copies the shadow of every group in GMASK into live in the cycle in which it issues. -/
def execCommit (b : Fin 64) (i : Fin 3) (s : State) : Host.Outcome State Fault Refusal :=
  s.run (fun t d => d.issue t b i (fun w => opc w == 0x05) commitBody)

/-- SYNC_SET (R84). SYNC SET sets the tokens of its mask. -/
def execSyncSet (b : Fin 64) (i : Fin 3) (s : State) : Host.Outcome State Fault Refusal :=
  s.run (fun t d => d.issue t b i (fun w => opc w == 0x06 && (fld w 64 3 == 0 || decide (5 ≤ fld w 64 3))) syncSetBody)

/-- SYNC_CLEAR (R84). SYNC CLEAR clears the tokens of its mask. -/
def execSyncClear (b : Fin 64) (i : Fin 3) (s : State) : Host.Outcome State Fault Refusal :=
  s.run (fun t d => d.issue t b i (fun w => opc w == 0x06 && fld w 64 3 == 1) syncClearBody)

/-- SYNC_WAIT (R84). SYNC WAIT puts the stream in WAIT_TOKEN until every token of its mask is set. -/
def execSyncWait (b : Fin 64) (i : Fin 3) (s : State) : Host.Outcome State Fault Refusal :=
  s.run (fun t d => d.issue t b i (fun w => opc w == 0x06 && fld w 64 3 == 2) syncWaitBody)

/-- SYNC_WAITCLR (R85). SYNC WAITCLR waits on its mask and clears it in the cycle in which the wait ends. -/
def execSyncWaitClr (b : Fin 64) (i : Fin 3) (s : State) : Host.Outcome State Fault Refusal :=
  s.run (fun t d => d.issue t b i (fun w => opc w == 0x06 && fld w 64 3 == 3) syncWaitClrBody)

/-- SYNC_WAIT_END (R85). A token wait ends once its tokens are set, with at most one clearing wait ending per bay per
cycle. -/
def execSyncWaitEnd (b : Fin 64) (i : Fin 3) (s : State) : Host.Outcome State Fault Refusal :=
  s.run (syncWaitEnd b i)

/-- SYNC_RSET (R84). SYNC RSET sends a set of one token to another bay of the partition. -/
def execSyncRset (b : Fin 64) (i : Fin 3) (s : State) : Host.Outcome State Fault Refusal :=
  s.run (fun t d => d.issue t b i (fun w => opc w == 0x06 && fld w 64 3 == 4) (syncRsetBody t))

/-- RSET_ARRIVAL (R84). An RSET reaches its target bay and sets the token there, within 24 cy on the same pier or 96
cy on another. -/
def execRsetArrival (b : Fin 64) (token : Fin 64) (s : State) : Host.Outcome State Fault Refusal :=
  s.runDev (rsetArrival b token)

/-- DLOAD (R99). DLOAD writes descriptor-table entries from memory in program order. -/
def execDload (b : Fin 64) (i : Fin 3) (s : State) : Host.Outcome State Fault Refusal :=
  s.run (fun t d => d.issue t b i (fun w => opc w == 0x07) (dloadBody t))

/-- MOVE (R101). MOVE copies, converts or accumulates elements from SRC into DST. -/
def execMove (b : Fin 64) (i : Fin 3) (s : State) : Host.Outcome State Fault Refusal :=
  s.run (fun t d => d.issue t b i (fun w => opc w == 0x10) (moveBody t))

/-- MLOAD (R182). MLOAD leaves the MATRIX queue and stages a stationary tile or product tables into the array's
stationary buffer. -/
def execMload (b : Fin 64) (i : Fin 3) (s : State) : Host.Outcome State Fault Refusal :=
  s.run (fun t d => d.issue t b i (fun w => opc w == 0x20) (mloadBody t))

/-- STATIONARY_SWAP (R183). Once staging is complete and earlier beats have left the queues, the staged tile shifts
into the cells over 64 steps. -/
def execStationarySwap (b : Fin 64) (stall : Nat) (s : State) : Host.Outcome State Fault Refusal :=
  s.runDev (stationarySwap b stall)

/-- MMUL (R174). MMUL streams one K block of moving rows through the array into the drain. -/
def execMmul (b : Fin 64) (i : Fin 3) (dry : Nat) (full : Nat) (wait : Nat)
    (s : State) : Host.Outcome State Fault Refusal :=
  s.run (fun t d => d.issue t b i (fun w => opc w == 0x21) (mmulBody dry full wait t))

/-- DRAIN_WRITEOUT (R187). A writable slot row of a closed block is written out to DST, one slot row per cycle. -/
def execDrainWriteout (b : Fin 64) (s : State) : Host.Outcome State Fault Refusal :=
  s.run (drainWriteout b)

/-- VOP (R210). VOP performs an element-wise operation on tiles or descriptors. -/
def execVop (b : Fin 64) (i : Fin 3) (starve : Nat) (s : State) : Host.Outcome State Fault Refusal :=
  s.run (fun t d => d.issue t b i (fun w => opc w == 0x30) (vopBody starve t))

/-- VFUNC (R216). VFUNC evaluates a special function from the captured table revision, with an optional fused gate. -/
def execVfunc (b : Fin 64) (i : Fin 3) (starve : Nat) (s : State) : Host.Outcome State Fault Refusal :=
  s.run (fun t d => d.issue t b i (fun w => opc w == 0x31) (vfuncBody starve t))

/-- VRED (R217). VRED reduces each line along AXIS by the fixed tree. -/
def execVred (b : Fin 64) (i : Fin 3) (starve : Nat) (s : State) : Host.Outcome State Fault Refusal :=
  s.run (fun t d => d.issue t b i (fun w => opc w == 0x32) (vredBody starve t))

/-- VSCAN (R220). VSCAN scans each line in chunks of 8, from CARRY to CARRYOUT. -/
def execVscan (b : Fin 64) (i : Fin 3) (starve : Nat) (s : State) : Host.Outcome State Fault Refusal :=
  s.run (fun t d => d.issue t b i (fun w => opc w == 0x33) (vscanBody starve t))

/-- VPERM (R222). VPERM permutes tile cells by INT32 indices, faulting on out-of-range indices. -/
def execVperm (b : Fin 64) (i : Fin 3) (starve : Nat) (s : State) : Host.Outcome State Fault Refusal :=
  s.run (fun t d => d.issue t b i (fun w => opc w == 0x34) (vpermBody starve t))

/-- RMSN (R244). RMSN normalises each line by its root mean square, with an optional gain. -/
def execRmsn (b : Fin 64) (i : Fin 3) (starve : Nat) (gap : Nat) (s : State) : Host.Outcome State Fault Refusal :=
  s.run (fun t d => d.issue t b i (fun w => opc w == 0x35) (rmsnBody starve gap t))

/-- SMAX (R248). SMAX computes the soft maximum and the log-sum-exp of each line. -/
def execSmax (b : Fin 64) (i : Fin 3) (starve : Nat) (gap : Nat) (s : State) : Host.Outcome State Fault Refusal :=
  s.run (fun t d => d.issue t b i (fun w => opc w == 0x36) (smaxBody starve gap t))

/-- TURN (R142). TURN transposes SRC into DST through the turntable, optionally through the quantiser. -/
def execTurn (b : Fin 64) (i : Fin 3) (s : State) : Host.Outcome State Fault Refusal :=
  s.run (fun t d => d.issue t b i (fun w => opc w == 0x40) (turnBody t))

/-- QUANT_NARROW (R156). QUANT mode 0 narrows SRC into course-scaled bricks and records amax and counts. -/
def execQuantNarrow (b : Fin 64) (i : Fin 3) (s : State) : Host.Outcome State Fault Refusal :=
  s.run (fun t d => d.issue t b i (fun w => opc w == 0x48 && (fld w 18 2 == 0 || fld w 18 2 == 3)) (quantBody t))

/-- QUANT_STASH (R167). QUANT mode 1 narrows as mode 0 but writes only occupied code-plane rows. -/
def execQuantStash (b : Fin 64) (i : Fin 3) (s : State) : Host.Outcome State Fault Refusal :=
  s.run (fun t d => d.issue t b i (fun w => opc w == 0x48 && fld w 18 2 == 1) (quantBody t))

/-- QUANT_AMAX_ONLY (R153). QUANT mode 2 records only AMAX and STEP. -/
def execQuantAmaxOnly (b : Fin 64) (i : Fin 3) (s : State) : Host.Outcome State Fault Refusal :=
  s.run (fun t d => d.issue t b i (fun w => opc w == 0x48 && fld w 18 2 == 2) (quantBody t))

/-- AMAX_RECORD_UPDATE (R160). After its last brick store, a quantiser instruction sends one update of the 32-byte
amax record; the instruction completes when the update is visible. -/
def execAmaxRecordUpdate (b : Fin 64) (s : State) : Host.Outcome State Fault Refusal :=
  s.run (amaxRecordUpdate b)

/-- ROUTE_TOPK (R262). ROUTE OP 0 selects the top-k experts per token, applies the capacity policy and writes the
dispatch list. -/
def execRouteTopk (b : Fin 64) (i : Fin 3) (s : State) : Host.Outcome State Fault Refusal :=
  s.run (fun t d => d.issue t b i (fun w => opc w == 0x50 && (fld w 27 2 == 0 || fld w 27 2 == 3)) (routeTopkBody t))

/-- ROUTE_GATHER (R269). ROUTE OP 1 gathers token rows into expert order by the dispatch list. -/
def execRouteGather (b : Fin 64) (i : Fin 3) (s : State) : Host.Outcome State Fault Refusal :=
  s.run (fun t d => d.issue t b i (fun w => opc w == 0x50 && fld w 27 2 == 1) (routeGatherBody t))

/-- ROUTE_COMBINE (R270). ROUTE OP 2 combines expert outputs back into token order with their weights. -/
def execRouteCombine (b : Fin 64) (i : Fin 3) (s : State) : Host.Outcome State Fault Refusal :=
  s.run (fun t d => d.issue t b i (fun w => opc w == 0x50 && fld w 27 2 == 2) (routeCombineBody t))

/-- COLL_ALL_REDUCE (R393). COLL OP 0 joins an all-reduce over the path set. -/
def execCollAllReduce (b : Fin 64) (i : Fin 3) (s : State) : Host.Outcome State Fault Refusal :=
  s.run (fun t d => d.issue t b i
    (fun w => opc w == 0x58 && (fld w 18 3 == 0 || decide (6 ≤ fld w 18 3))) (collAllReduceBody t))

/-- COLL_REDUCE_SCATTER (R393). COLL OP 1 joins a reduce-scatter over the path set. -/
def execCollReduceScatter (b : Fin 64) (i : Fin 3) (s : State) : Host.Outcome State Fault Refusal :=
  s.run (fun t d => d.issue t b i (fun w => opc w == 0x58 && fld w 18 3 == 1) (collReduceScatterBody t))

/-- COLL_ALL_GATHER (R393). COLL OP 2 joins an all-gather over the path set. -/
def execCollAllGather (b : Fin 64) (i : Fin 3) (s : State) : Host.Outcome State Fault Refusal :=
  s.run (fun t d => d.issue t b i (fun w => opc w == 0x58 && fld w 18 3 == 2) (collAllGatherBody t))

/-- COLL_BROADCAST (R393). COLL OP 3 joins a broadcast rooted at PEER. -/
def execCollBroadcast (b : Fin 64) (i : Fin 3) (s : State) : Host.Outcome State Fault Refusal :=
  s.run (fun t d => d.issue t b i (fun w => opc w == 0x58 && fld w 18 3 == 3) (collBroadcastBody t))

/-- COLL_SEND (R393). COLL OP 4 sends to the member PEER. -/
def execCollSend (b : Fin 64) (i : Fin 3) (s : State) : Host.Outcome State Fault Refusal :=
  s.run (fun t d => d.issue t b i (fun w => opc w == 0x58 && fld w 18 3 == 4) (collSendBody t))

/-- COLL_RECEIVE (R393). COLL OP 5 receives from the member PEER. -/
def execCollReceive (b : Fin 64) (i : Fin 3) (s : State) : Host.Outcome State Fault Refusal :=
  s.run (fun t d => d.issue t b i (fun w => opc w == 0x58 && fld w 18 3 == 5) (collReceiveBody t))

/-- COLL_ENGINE_START (R386). The collective engine begins once every bay in the mask has issued the COLL and the
departure slot has come. -/
def execCollEngineStart (n : Nat) (s : State) : Host.Outcome State Fault Refusal :=
  s.run (collEngineStart n)

/-- COLL_COMPLETE (R389). A collective completes; DST and the status record are written and visible. -/
def execCollComplete (n : Nat) (s : State) : Host.Outcome State Fault Refusal :=
  s.run (collComplete n)

/-- COLL_WATCHDOG (R399). No COLL packet has arrived for LNK_CWD.SLOTS slots; the COLL is abandoned and ABANDON is
sent. -/
def execCollWatchdog (n : Nat) (s : State) : Host.Outcome State Fault Refusal :=
  s.run (collWatchdog n)

/-- UPD (R107). A stream issues UPD for a shard to the pier's update unit. -/
def execUpd (b : Fin 64) (i : Fin 3) (s : State) : Host.Outcome State Fault Refusal :=
  s.run (fun t d => d.issue t b i (fun w => opc w == 0x60) (updBody t))

/-- UPD_PROLOGUE (R287). The update unit begins a UPD, reads and checks headers, step, coefficients and lists, then
writes NONE to the Down line's LSTEP. -/
def execUpdPrologue (b : Fin 64) (extra : Nat) (s : State) : Host.Outcome State Fault Refusal :=
  s.run (updPrologue b extra)

/-- UPD_BODY (R281). Once the NONE write is accepted, the update unit computes the recurrence and writes the Down-line
bricks. -/
def execUpdRun (p : Fin 4) (stall : Nat) (s : State) : Host.Outcome State Fault Refusal :=
  s.run (updRunBody p stall)

/-- UPD_EPILOGUE (R294). After every body store is visible, the Down line's header is written with LSTEP = k + 1 and
the UPD completes. -/
def execUpdEpilogue (p : Fin 4) (s : State) : Host.Outcome State Fault Refusal :=
  s.run (updEpilogue p)

/-- SEAL_COMPUTE (R500). SEAL OP 0 computes each brick's seal and writes it to the side plane and the seal array. -/
def execSealCompute (b : Fin 64) (i : Fin 3) (s : State) : Host.Outcome State Fault Refusal :=
  s.run (fun t d => d.issue t b i (fun w => opc w == 0x68 && !bit w 9) (sealComputeBody t))

/-- SEAL_VERIFY (R358). SEAL OP 1 checks every brick; a mismatch faults, or poisons the brick with POISON set. -/
def execSealVerify (b : Fin 64) (i : Fin 3) (s : State) : Host.Outcome State Fault Refusal :=
  s.run (fun t d => d.issue t b i (fun w => opc w == 0x68 && bit w 9) (sealVerifyBody t))

/-- INSTRUCTION_COMPLETE (R81). An instruction completes with its stores visible, releasing WAITU, the tile scoreboard
and the queues. -/
def execInstructionComplete (b : Fin 64) (n : Nat) (s : State) : Host.Outcome State Fault Refusal :=
  s.run (instructionComplete b n)

end Sys2Proof.Machine
end

