-- ==== Sys2Proof/Machine/Hosts.lean ====
section
/-! DEFINITION. Platforms, submissions and replies; partition reset, clean quarters and zeroed windows; the PCIe ports and
what a host reaches through them (R353, R431 to R449, R452). -/

namespace Sys2Proof.Machine

/-! ### Replies (R442, R444) -/

/-- Free entries of the completion ring; none while its header has not been read. -/
def Part.compFree (p : Part) : Nat := if (p.ring 1).known then p.ringSize 1 - (p.ring 1).used else 0

/-- Queue a reply of partition `q`: it is written at slot `due` or as soon after as the ring has room, in ring order. -/
def Dev.reply (q due : Nat) (bs : List Nat) (d : Dev) : Dev :=
  d.modPart q (fun p => { p with replies := p.replies ++ [(due, bs)] })

/-- Write the replies that are due, in order; replies are never discarded for want of room (R442, R445). -/
def Dev.flushList (t : TimeUnit) (q : Nat) : List (Nat × List Nat) → Dev → Dev
  | [], d => d.modPart q (fun p => { p with replies := [] })
  | (due, bs) :: rest, d =>
    let d1 := if (d.part q).compFree = 0 then d.readCons t q 1 else d
    if t.slot < due ∨ ((d1.part q).compFree = 0 ∧ (d1.part q).platEn) then
      d1.modPart q (fun p => { p with replies := (due, bs) :: rest })
    else (d1.ringPut t q 1 1 bs []).flushList t q rest

def Dev.flushReplies (t : TimeUnit) (q : Nat) (d : Dev) : Dev := (d.flushList t q (d.part q).replies).flushOwed t

/-- Pad an entry to 64 bytes. -/
def padEntry (bs : List Nat) : List Nat := bs ++ List.replicate (64 - bs.length) 0

def acceptedBytes (subid base : Nat) : List Nat := padEntry ([0x81, 0, 0, 0] ++ toBytes 4 subid ++ toBytes 8 base)
def doneBytes (subid slot : Nat) : List Nat := padEntry ([0x83, 0, 0, 0] ++ toBytes 4 subid ++ toBytes 8 slot)
def refusedBytes (subid slot base : Nat) (r : Refuse) : List Nat :=
  padEntry ([0x82, 0, 0, 0] ++ toBytes 4 subid ++ toBytes 8 slot ++ [r.cause, r.resource] ++ toBytes 2 r.index ++
    toBytes 4 (r.slot - base) ++ toBytes 4 r.demand ++ toBytes 4 r.ceiling)

/-! ### Submissions (R443) -/

/-- Platform causes of R443. -/
def platKind : Nat := 0x20
def platScope : Nat := 0x21
def platBusy : Nat := 0x22
def platState : Nat := 0x23

/-- The bits of a submission entry that its kind names (R443). -/
def submitMask (kind : Nat) : Nat :=
  let head := 0xFF + (2 ^ 32 - 1) <<< 32
  let all (i : Nat) := (2 ^ 64 - 1) <<< (64 * i)
  match kind with
  | 1 => head + all 1 + all 2 + all 3 + all 4
  | 3 => head + all 1 + 7 <<< 128 + all 3 + (2 ^ 32 - 1) <<< 256
  | 4 => head + all 1 + 7 <<< 128 + all 3
  | _ => head

/-- Whether KIND is reserved or a reserved byte is non-zero (R443). -/
def submitBad (w : Nat) : Bool :=
  let kind := fld w 0 8
  kind == 0 || decide (5 < kind) || w &&& submitMask kind != w

/-- Refuse a submission with a platform cause; nothing takes effect (R443). -/
def Dev.refuseSub (t : TimeUnit) (q w cause : Nat) (d : Dev) : Dev :=
  d.reply q t.slot (refusedBytes (fld w 32 32) t.slot 0 (refuseAt cause 0))

/-- The reply of an effect that commits at the next slot boundary (R444). -/
def Dev.doneSub (t : TimeUnit) (q w : Nat) (d : Dev) : Dev := d.reply q (t.slot + 1) (doneBytes (fld w 32 32) (t.slot + 1))

/-- The request of partition `q`'s platform, which writes as the owner function does (R443). -/
def Dev.platReq (d : Dev) (q : Nat) : Req :=
  { src := coreSrc (d.serving q), part := some q, func := some { port := (d.part q).port.toNat, num := (d.part q).func.toNat },
    occ := none }

/-- Whether the arrays of an INSTALL for `n` entries lie in the partition's windows: the promise array, writable, and, when there
is a bitmap, the bitmap and the notes (R443). -/
def Part.arraysInside (p : Part) (promises notify note n : Nat) : Bool :=
  p.inside true promises (8 * n) && (notify == 0 || p.inside false notify ((n + 7) / 8) && p.inside false note (32 * n))

/-- INSTALL: start admission, or refuse (R443). Its addresses are checked here for one entry; admission, which reads how many there
are, checks the arrays whole (DEDUCED, log entry 128). -/
def submitInstall (t : TimeUnit) (q w : Nat) (d : Dev) : Dev :=
  let hdr := fld w 64 64
  let promises := fld w 128 64
  let notify := fld w 192 64
  let note := fld w 256 64
  let p := d.part q
  if submitBad w then d.refuseSub t q w platKind
  else if !(p.inside false hdr 64 && p.arraysInside promises notify note 1) then d.refuseSub t q w platScope
  else if p.staged.isSome ∨ p.install.isSome then d.refuseSub t q w platBusy
  else d.modPart q (fun p =>
    { p with install := some { header := hdr, promises := promises, notify := notify, noteBase := note, subid := fld w 32 32 } })

/-- WITHDRAW: both timetables go at the next boundary (R443). -/
def submitWithdraw (t : TimeUnit) (q w : Nat) (d : Dev) : Dev :=
  if submitBad w then d.refuseSub t q w platKind
  else (d.modPart q (fun p => { p with withdraw := true })).doneSub t q w

/-- The streams that a bay mask and a stream mask name. -/
def maskStreams (bays streams : Nat) : List (Nat × Nat) :=
  (maskBits 64 bays).flatMap (fun b => (maskBits 3 streams).map (fun s => (b, s)))

/-- Whether a bay mask names a bay outside the partition (R443, R461). -/
def Dev.masksForeign (d : Dev) (q bays : Nat) : Bool := (maskBits 64 bays).any (fun b => !d.holdsBay q b)

/-- START: write TT_SQ_BASE and RUN of every masked stream (R76, R77, R443). -/
def submitStart (t : TimeUnit) (q w : Nat) (d : Dev) : Dev :=
  let xs := maskStreams (fld w 64 64) (fld w 128 3)
  let base := fld w 192 64
  if submitBad w then d.refuseSub t q w platKind
  else if d.masksForeign q (fld w 64 64) ∨ !(d.part q).inside false base 16 then d.refuseSub t q w platScope
  else if xs.any (fun x => let st := (d.stream x.1 x.2).state; st != .idle && st != .faulted) then d.refuseSub t q w platState
  else
    (xs.foldl (fun d x =>
      (d.modStream x.1 x.2 (fun y => { y with base := BitVec.ofNat 48 (fld base 4 48) })).sqCtlWrite t (d.platReq q) x.1 x.2
        (1 + (fld w 256 32) <<< 32)) d).doneSub t q w

/-- MODEL: write TT_SQ_MODEL into the host shadow of every masked stream (R94, R443, R446). -/
def submitModel (t : TimeUnit) (q w : Nat) (d : Dev) : Dev :=
  let xs := maskStreams (fld w 64 64) (fld w 128 3)
  let base := fld w 192 64
  if submitBad w then d.refuseSub t q w platKind
  else if d.masksForeign q (fld w 64 64) ∨ !(d.part q).inside false base 1 then d.refuseSub t q w platScope
  else (xs.foldl (fun d x => d.cfgWrite t (d.platReq q) x.1 x.2 0 0 base) d).doneSub t q w

/-- RESET: partition reset at the next boundary (R440, R443). -/
def submitReset (t : TimeUnit) (q w : Nat) (d : Dev) : Dev :=
  if submitBad w then d.refuseSub t q w platKind
  else (d.modPart q (fun p => { p with resetPend := some (p.resetPend.getD (t.slot + 1)) })).doneSub t q w

/-- One submission entry, by its KIND. A poisoned entry is a bus error, refused with cause FORMAT (R353). -/
def Dev.submit (t : TimeUnit) (q w : Nat) (poison : Bool) (d : Dev) : Dev :=
  if poison then d.refuseSub t q w 0x01
  else
    match fld w 0 8 with
    | 1 => submitInstall t q w d
    | 2 => submitWithdraw t q w d
    | 3 => submitStart t q w d
    | 4 => submitModel t q w d
    | 5 => submitReset t q w d
    | _ => d.refuseSub t q w platKind

/-- A submission word with its KIND byte set: the operand of the submission commands (DESIGN CHOICE, log entry 18). -/
def withKind (kind w : Nat) : Nat := setFld w 0 8 kind

/-- A job as a requester: its requests carry its number and what it has waited for. -/
def jobReq (id : Nat) (w : Await) (r : Req) : Req := { r with flight := some (79, id), await := w }

/-- Process up to `fuel` entries of the submission ring in order, reading them as requester `c` (R442). -/
def Dev.processRing (t : TimeUnit) (c : Req) (q : Nat) : Nat → Dev → Dev
  | 0, d => d
  | fuel + 1, d =>
    let p := d.part q
    let k := p.ring 0
    let room := p.compFree - p.replies.length
    if k.prod = k.cons ∨ p.install.isSome ∨ room < 2 then d
    else
      let a := p.ringBase 0 + 64 + 64 * (k.cons.toNat % p.ringSize 0)
      let ((bs, bad), d1) := d.coreRead t c q a 64
      if !d1.stall.isEmpty then d1
      else
        let d2 := (d1.submit t q (ofBytes bs) bad).modPart q (fun p => p.modRing 0 (fun k => { k with cons := k.cons + 1 }))
        (((d2.post t q (p.ringBase 0 + 32) (toBytes 4 (k.cons + 1).toNat) []).flushReplies t q)).processRing t c q fuel

/-- The bytes of a ring's header that hold PROD and CONS (R441). -/
def headWord (a i : Nat) : Bool := (decide (a ≤ i) && decide (i < a + 4)) || (decide (a + 32 ≤ i) && decide (i < a + 36))

/-- The serving core, as requester `c`, reads PROD and CONS of the submission ring and processes up to 16 entries, unless one of
the two is poisoned (R442, R448). -/
def Dev.inspectRing (t : TimeUnit) (c : Req) (q : Nat) (d : Dev) : Dev :=
  let p := d.part q
  if !(p.en && p.platEn && (p.ring 0).known) then d
  else
    let a := p.ringBase 0
    let (x, d1) := d.readMask t c a 36 (headWord a)
    let bad := (upTo 36).filter (fun i => headWord 0 i && x.2.getD i false)
    if !d1.stall.isEmpty then d1
    else
      match bad with
      | i :: _ => d1.emit t (some q) (biteRecord c.src 4 (a + i) bad.length 0 0xFF)
      | [] =>
        (d1.modPart q (fun p => p.modRing 0 (fun k => { k with prod := w32 (ofBytes (natBytes (x.1.take 4))) }))).processRing t c q 16

/-- The serving core, as requester `c`, takes PROD and CONS of a ring from its header and continues from them (R441); after a
partition reset it sets CONS of the submission ring equal to PROD (R440). A poisoned PROD is read again at a later boundary, except
in a reset, where the count that the device holds stands for it; a poisoned CONS counts as a full ring (R448). -/
def Dev.adoptRing (t : TimeUnit) (c : Req) (q r : Nat) (drop : Bool) (d : Dev) : Dev :=
  let p := d.part q
  if !p.platEn then d
  else
    let a := p.ringBase r
    let (x, d1) := d.readMask t c a 36 (headWord a)
    let badProd := (upTo 4).any (fun i => x.2.getD i false)
    let badCons := (upTo 4).any (fun i => x.2.getD (32 + i) false)
    let prod := if badProd then (p.ring r).prod else w32 (ofBytes (natBytes (x.1.take 4)))
    let cons := if badCons then prod - w32 (p.ringSize r) else w32 (ofBytes (natBytes (x.1.drop 32)))
    if !d1.stall.isEmpty then d1
    else if drop then
      (d1.post t q (a + 32) (toBytes 4 prod.toNat) []).modPart q (fun p => p.modRing r (fun k =>
        { k with prod := prod, cons := prod, known := true }))
    else if badProd then d1
    else (d1.modPart q (fun p => p.modRing r (fun k => { k with prod := prod, cons := cons, known := true }))).flushHeld t

/-- The serving core, as requester `c`, reads CONS of a completion or event ring (R448). -/
def Dev.consJob (t : TimeUnit) (c : Req) (q r : Nat) (d : Dev) : Dev :=
  if !((d.part q).platEn && ((d.part q).ring r).known) then d
  else
    let (x, d1) := d.readMask t c ((d.part q).ringBase r + 32) 4 (fun _ => true)
    d1.takeCons q r x

/-- The serving core, as requester `c`, reads bit `e` of the notify bitmap of a delivered occurrence and, when that is 1, the note,
which keeps its poison, and writes the DELIVERY record (R349, R445). A poisoned byte of the bitmap counts as 0 (DESIGN CHOICE, log
entry 129). -/
def Dev.noteServe (t : TimeUnit) (c : Req) (q e promise now notify base : Nat) (d : Dev) : Dev :=
  let (x, d1) := d.readMask t c (notify + e / 8) 1 (fun _ => true)
  if x.2.any id ∨ !bit (ofBytes (natBytes x.1)) (e % 8) then d1
  else
    let (y, d2) := d1.fetch t c (base + 32 * e) 32
    if !d2.stall.isEmpty then d2
    else d2.ringPut t q 1 1 (deliveryBytes e promise now (natBytes y.1)) (List.replicate 32 false ++ y.2)

/-- RING_SIGNAL: MSI-X vector 0 for new completion entries, vector 1 for new event records, once per slot (R449). Answer
kind 6 holds the port, function and vector. -/
def Dev.signalRings (q : Nat) (d : Dev) : Dev :=
  let p := d.part q
  if !p.en then d
  else [1, 2].foldl (fun d r =>
    if ((d.part q).ring r).fresh then
      (d.modPart q (fun p => p.modRing r (fun c => { c with fresh := false }))).answer 6
        (1024 * p.port.toNat + 4 * p.func.toNat + (r - 1)) [] []
    else d) d

/-! ### Admission's answer (R47, R49, R444, R498) -/

/-- Admission's answer to partition `q`'s INSTALL, whose timetable the serving core has read: refused with its reply, and a record
where admission refuses it, or accepted, with the promise array written before the reply; installed at once, or staged while a
timetable is installed. -/
def Dev.admitPlan (t : TimeUnit) (q : Nat) (ins : Install) (h : THeader) (tt : Timetable) (bad : Bool) (d : Dev) : Dev :=
  let d2 := d.modPart q (fun p => { p with install := none })
  if !bad ∧ 1 ≤ h.entries ∧ h.entries ≤ 16384 ∧ !(d.part q).arraysInside ins.promises ins.notify ins.noteBase h.entries then
    (d2.reply q t.slot (refusedBytes ins.subid t.slot 0 (refuseAt platScope 0))).flushReplies t q
  else
    match admission t d2 q h tt bad with
    | some r =>
      ((d2.emit t (some q) (d2.refusedRecord q ins.header h.base r)).reply q t.slot
        (refusedBytes ins.subid t.slot h.base r)).flushReplies t q
    | none =>
      let d3 := (tt.entries.zipIdx).foldl (fun d x =>
        d.post t q (ins.promises + 8 * x.2) (toBytes 8 (h.base + x.1.depart + x.1.span - 1)) []) d2
      let d4 := d3.modPart q (fun p =>
        match p.installed with
        | none => { p with installed := some tt, nextGen := p.nextGen + 1 }
        | some _ => { p with staged := some tt, nextGen := p.nextGen + 1 })
      ((((d4.setPowerNeed t).reply q t.slot (acceptedBytes ins.subid h.base))).flushReplies t q).sendSteps (t.slot + 1)
        (t.slot + 1 + t.lead)

/-- The effect of ADMISSION_COMPLETE, given what the reading of the timetable has waited for. -/
def Dev.admitEffect (t : TimeUnit) (q : Nat) (ins : Install) (w : Await) (d : Dev) : Dev :=
  let x := d.readTimetable t { d.coreReq q with flight := some (78, q), await := w } q ins
  if !x.2.stall.isEmpty then x.2 else x.2.admitPlan t q ins x.1.1 x.1.2.1 x.1.2.2

/-- ADMISSION_COMPLETE of partition `q`'s INSTALL. A timetable that lies behind a window is read through it, and admission goes on
when its bytes have come (R34, R35). -/
def admissionComplete (q : Nat) (t : TimeUnit) (d : Dev) : Dev :=
  match (d.part q).install with
  | none => d
  | some ins =>
    if d.awaits 78 q then d
    else
      match d.attempt t ins.await (fun w => Dev.admitEffect t q ins w) with
      | (none, d1) => d1
      | (some (w, _), d1) => d1.modPart q (fun p => { p with install := some { ins with await := w } })

/-! ### Partition reset, quarters and windows (R435, R436, R440) -/

/-- The bays of partition `q`'s quarters. -/
def Part.bays (p : Part) : List Nat := (maskBits 16 p.quarters.toNat).flatMap (fun i => [4 * i, 4 * i + 1, 4 * i + 2, 4 * i + 3])

/-- A stream placed in IDLE by a reset: nothing bound, pending host shadows and requests dropped (R440). -/
def Stream.resetIdle (x : Stream) : Stream :=
  { x with state := .idle, occ := none, wait := none, clock := none, stall := false, runPend := false, haltPend := false,
           afterHalt := false, hostCfg := [], hostDesc := [] }

/-- PARTITION_RESET: the four steps of R440, at a slot boundary once a reset is due. A pending INSTALL is dropped with the
submission ring's other entries (DEDUCED, log entry 19). -/
def partitionReset (q : Nat) (t : TimeUnit) (d : Dev) : Dev :=
  match (d.part q).resetPend with
  | none => d
  | some due =>
    if t.slot < due ∨ t.now % t.slotLen ≠ 0 then d
    else
      let d1 := d.dropTimetables t q lateReset
      let d2 := (d1.part q).bays.foldl (fun d b => d.modBay b (fun y =>
        { y with streams := y.streams.map Stream.resetIdle, openBlocks := Vector.replicate 3 none, tokens := 0, void := 0,
                 voidClass := [], tokWait := [], met := [] })) d1
      let d3 : Dev := { d2 with piers := d2.piers.map (fun k =>
        { k with rstState := vmod k.rstState q (fun st => if st = 1 then 3 else st), restores := k.restores.filter (fun r => r.part != q) }) }
      let d4 := d3.modPart q (fun p =>
        { (p.modRing 0 (fun k => { k with cons := k.prod, known := !p.platEn })) with
          install := none, withdraw := false, resetPend := none })
      if (d3.part q).platEn then d4.enqueue (.adopt q 0 true) [] else d4

/-- A bay made clean: zeros over its stores, registers, descriptor tables, drain and feeders; tokens clear; streams IDLE
with every configuration group at its reset value (R435). -/
def Bay.clean (y : Bay) : Bay :=
  { y with
    tiles := [], tilePoison := [], drain := [], drainPoison := [], tokens := 0, void := 0, voidClass := [], tokWait := [], met := []
    openBlocks := Vector.replicate 3 none, closed := [], flights := [], staged := []
    streams := y.streams.map (fun x =>
      { x.resetIdle with live := Cfg.reset, shadow := Cfg.reset, desc := [], descPoison := [], fetch := [] }) }

/-- QUARTER_CLEAN_DONE: quarter `i` of partition `q` is clean, and usable from the next slot boundary (R435). -/
def quarterCleanDone (q i : Nat) (d : Dev) : Dev :=
  if !(d.part q).cleaning.toNat.testBit i ∨ (d.part q).cleanDone.toNat.testBit i then d
  else
    let d1 := [4 * i, 4 * i + 1, 4 * i + 2, 4 * i + 3].foldl (fun d b =>
      (d.modBay b Bay.clean).modMem (fun m =>
        (m.fillRange (bayBase b) 0x800000 false).fillRange (capBase b) 0x30000000 false)) d
    d1.modPart q (fun p => { p with cleanDone := p.cleanDone ||| BitVec.ofNat 16 (2 ^ i) })

/-- Zeros over a window: over this device's memory, or as writes through a host or peer window (R34, R35, R436). -/
def Dev.zeroWindow (t : TimeUnit) (q : Nat) (g : Seg) (d : Dev) : Dev :=
  let away : Bool := match regionOf g.start with
    | .host _ _ => true
    | .peer _ _ => true
    | _ => false
  if away then d.store t { boxReq with part := some q } g.start (List.replicate (g.stop - g.start) 0) [] []
  else d.modMem (·.fillRange g.start (g.stop - g.start) false)

/-- SEGMENT_ZERO_DONE: zeros are over the window, it becomes valid, and requests that waited for it go on (R436). -/
def segmentZeroDone (q n : Nat) (t : TimeUnit) (d : Dev) : Dev :=
  if !(d.part q).zeroing.contains n then d
  else
    (d.zeroWindow t q (vget Seg.none (d.part q).segs n)).modPart q (fun p =>
      { (p.modSeg n (fun g => { g with valid := true })) with zeroing := p.zeroing.filter (· != n) })

/-- FUNCTION_LEVEL_RESET: the partition that the function owns resets at the next boundary; a PF's SR-IOV control returns
to its PCIe reset (R431, R440; PRESUMED, log entry 21). -/
def functionReset (f : Func) (t : TimeUnit) (d : Dev) : Dev :=
  let d1 := if f.num = 0 then d.modPort f.port (fun v => { v with vfEnable := false, numVfs := 0 }) else d
  match d.partOf f with
  | none => d1
  | some q => d1.modPart q (fun p => { p with resetPend := some (p.resetPend.getD (t.slot + 1)) })

/-! ### PCIe (R431 to R433, R437, R452, R494) -/

/-- Whether port `v` answers as more than retry status: published and not in reset (R452, R494). -/
def Dev.portOpen (d : Dev) (v : Nat) : Bool := d.box.stage == 3 && !(d.portOf v).inReset

/-- The bay whose control block holds a register, if one does (R433). -/
def regBay (r : Reg) : Option Nat :=
  match r with
  | .sqCtl b _ => some b
  | .sqBase b _ => some b
  | .sqStatus b _ => some b
  | .sqOcc b _ => some b
  | .sqLc b _ _ => some b
  | .vecStatus b _ => some b
  | .cfg b _ _ _ => some b
  | .tokens b => some b
  | .tokSet b => some b
  | .tokClr b => some b
  | .tokVoid b => some b
  | .desc b _ _ _ => some b
  | .qCnt b _ => some b
  | .qClr b => some b
  | .mxRepair b => some b
  | .mxCnt b _ => some b
  | .mxClr b => some b
  | .vecRepair b _ => some b
  | .vecCnt b _ => some b
  | .vecClr b => some b
  | .integ (.bay b) _ => some b
  | _ => none

/-- Whether a function reaches a register through BAR0 (R433). -/
def Dev.reaches (d : Dev) (f : Func) (r : Reg) : Bool :=
  f == Func.admin ||
  (match d.partOf f with
   | none => false
   | some q =>
     match r with
     | .bondPlat p _ => p == q
     | .updWb _ p => p == q
     | .updRst _ p => p == q
     | _ => match regBay r with
       | some b => (d.part q).quarters.toNat.testBit (b / 4)
       | none => false)

/-- Word `i` of the bond table (R472): before publication a header with BT_GEN = 1 and no entries (R452). -/
def Dev.bondWord (d : Dev) (i : Nat) : Nat :=
  let n := if d.box.stage = 3 then d.bond.img.length else 0
  match i with
  | 0 => 0x0100 + (64 + 8 * n) <<< 32
  | 1 => if d.box.stage = 3 then d.bond.gen else 1
  | 2 => if n = 0 then 0 else 124
  | 3 => d.bond.devid.toNat
  | 4 => d.bond.ltime
  | _ => if i < 8 then 0 else if n = 0 then 0 else d.bond.img.getD (i - 8) 0

/-- Eight little-endian bytes as an answer's bytes. -/
def wordBytes (v : Nat) : List Byte := byteList (toBytes 8 v)

/-- Whether the word that a register names holds a poisoned byte: only a word of a descriptor table can (R349, R353). -/
def Dev.regPoison (d : Dev) (r : Reg) : Bool :=
  match r with
  | .desc b s slot w => (upTo 8).any (fun i => (d.stream b s).descPoison.contains (64 * slot + 8 * w + i))
  | _ => false

/-- A host's write of a register word. One that came with EP set poisons the bytes of a descriptor-table word; no other register
holds poison, and it takes the value as it stands (R349; DESIGN CHOICE, log entry 130). -/
def Dev.hostPut (q : Req) (r : Reg) (v : Nat) (ep : Bool) (t : TimeUnit) (d : Dev) : TimeUnit × Dev :=
  match r with
  | .desc b s slot w => (t, d.descWrite b s slot w v ep)
  | _ => d.regWrite q r v t

/-- BAR0_ACCESS: one aligned 8-byte request of function `f` at control-space offset `o`, a read or a write of a word. What
the function does not reach, what names no register, and a write of the bond table are hole accesses (R33, R36, R433). A
completion that holds a poisoned byte has EP set, and `ep` is that of a write (R349). -/
def bar0Access (f : Func) (o : Nat) (data : Option W64) (ep : Bool) (t : TimeUnit) (d : Dev) : TimeUnit × Dev :=
  let q := d.hostReq f
  let isRead := data.isNone
  let hole : Dev := if isRead then (d.countHole q o).answer 5 f.port (wordBytes 0) [] else d.countHole q o
  if !d.portOpen f.port ∨ 2 ^ 32 ≤ o then (t, d)
  else if o < 0x100000 then
    if isRead ∧ o % 8 = 0 then (t, d.answer 5 f.port (wordBytes (d.bondWord (o / 8))) []) else (t, hole)
  else
    match regAt o with
    | none => (t, hole)
    | some r =>
      if !d.reaches f r then (t, hole)
      else
        match data with
        | none => (t, d.answer 5 f.port (wordBytes (d.readReg t r)) (if d.regPoison r then List.replicate 8 true else []))
        | some v => d.hostPut q r v.toNat ep t

/-- The valid windows of a partition in ascending number, with their BAR2 offsets (R437). -/
def Part.bar2Map (p : Part) : List (Nat × Seg) :=
  (p.segs.toList.foldl (fun (acc : Nat × List (Nat × Seg)) g =>
    if g.valid then (acc.1 + (g.stop - g.start), acc.2 ++ [(acc.1, g)]) else acc) (0, [])).2

/-- Cut a BAR2 access at window edges: device address (none beyond the last window), length and whether stores may go there
(R437). -/
def bar2Runs (ws : List (Nat × Seg)) : Nat → Nat → Nat → List (Option Nat × Nat × Bool)
  | 0, _, _ => []
  | fuel + 1, o, n =>
    if n = 0 then []
    else
      match ws.find? (fun x => decide (x.1 ≤ o) && decide (o < x.1 + (x.2.stop - x.2.start))) with
      | none => [(none, n, false)]
      | some (at', g) =>
        let k := min n (at' + (g.stop - g.start) - o)
        (some (g.start + (o - at')), k, g.wr) :: bar2Runs ws fuel (o + k) (n - k)

/-- The device addresses of a function's BAR2 access, with lengths, and whether stores may go there (R437). -/
def Dev.bar2Runs (d : Dev) (q : Req) (o n : Nat) : List (Option Nat × Nat × Bool) :=
  Machine.bar2Runs (match q.part with | some p => (d.part p).bar2Map | none => []) 34 o n

/-- A BAR2 read of up to 4 KiB: one request, unclaimed traffic of the partition; its completion has EP set when any byte is
poisoned (R349, R437). What lies beyond the last window is a hole access, counted once; it has no device address, and HOLE_ADDR
records bits [51:28] of its BAR2 offset (R37; DESIGN CHOICE, log entry 131). -/
def bar2Read (q : Req) (f : Func) (o n : Nat) (t : TimeUnit) (d : Dev) : Dev :=
  let ((bs, ps, _), d1) := (d.bar2Runs q o n).foldl (fun (acc : (List Byte × List Bool × Bool) × Dev) r =>
    let (bs, ps, holed) := acc.1
    match r.1 with
    | none =>
      ((bs ++ List.replicate r.2.1 0, ps ++ List.replicate r.2.1 false, true),
       if holed then acc.2 else acc.2.countHole q (o + bs.length))
    | some a =>
      let (x, e) := acc.2.read t q a r.2.1
      ((bs ++ x.1, ps ++ x.2, holed), e)) (([], [], false), d)
  d1.answer 5 f.port bs (List.replicate bs.length (ps.any id))

/-- A BAR2 write of one request; with EP set every byte it covers is written poisoned. What lies in no window, or in a read-only
one, is discarded and counted once as a hole access; beyond the last window HOLE_ADDR records bits of the BAR2 offset (R37, R349,
R436, R437; DEDUCED, log entry 20; DESIGN CHOICE, log entry 131). -/
def bar2Write (q : Req) (o : Nat) (data : List Byte) (ep : Bool) (t : TimeUnit) (d : Dev) : Dev :=
  ((d.bar2Runs q o data.length).foldl (fun (acc : Nat × Bool × Dev) r =>
    let (at', holed, e) := acc
    let piece := (data.drop at').take r.2.1
    match r.1, r.2.2 with
    | some a, true => (at' + r.2.1, holed, e.write t q a piece (List.replicate r.2.1 ep) [])
    | some a, false => (at' + r.2.1, true, if holed then e else e.countHole q a)
    | none, _ => (at' + r.2.1, true, if holed then e else e.countHole q (o + at'))) (0, false, d)).2.2

/-- One PCIe request TLP of function `f` at BAR2, as requester `q`: a read of `n` bytes, or a write of data (R437). -/
def bar2Serve (q : Req) (f : Func) (o n : Nat) (data : Option (List Byte)) (ep : Bool) (t : TimeUnit) (d : Dev) : Dev :=
  match data with
  | none => bar2Read q f o (min n 4096) t d
  | some bs => bar2Write q o (bs.take 512) ep t d

/-- CONFIG_REQUEST: before stage 3 retry status (answer kind 7); in stage 3 a read returns what PCIe defines, a free value
here, and a write of SR-IOV control sets VF Enable and NumVFs within TotalVFs (R432, R450, R452; DESIGN CHOICE, log entry 22). -/
def configRequest (f : Func) (c : CfgReq) (d : Dev) : Dev :=
  if d.box.stage = 4 ∨ (d.portOf f.port).inReset then d
  else if d.box.stage ≠ 3 then d.answer 7 f.port [] []
  else
    match c with
    | .read _ =>
      let (v, d1) := d.takeFree
      d1.answer 5 f.port (byteList (toBytes 4 v.toNat)) []
    | .write _ _ => d.answer 5 f.port [] []
    | .vfControl en n =>
      if f.num ≠ 0 then d.answer 5 f.port [] []
      else (d.modPort f.port (fun v =>
        { v with vfEnable := en, numVfs := if n ≤ v.vfs.toNat then BitVec.ofNat 5 n else v.numVfs })).answer 5 f.port [] []

/-- PERST: while PEv_PERST_N is low port v is in reset, alone: its PCIe configuration and its outstanding requests are lost
(R494; PRESUMED, log entry 21). -/
def perst (v : Nat) (low : Bool) (d : Dev) : Dev :=
  d.modPort v (fun k =>
    if low then { k with inReset := true, vfEnable := false, numVfs := 0, waiting := [], nextTag := 0 }
    else { k with inReset := false })

end Sys2Proof.Machine
end

