-- ==== Sys2Proof/Machine/Requests.lean ====
section
/-! DEFINITION. Requests of every kind as jobs that may have to wait: requests at the memory controllers, PCIe requests at BAR2,
requests of peers, and the serving core's ring jobs; and how they go on (R33, R301, R302, R321, R323, R326, R345, R362, R371, R377,
R379 to R381, R437, R441, R442, R445, R448, R497). -/

namespace Sys2Proof.Machine

/-! ### Requests of peers (R371, R377, R379 to R381) -/

/-- Count a packet without a route on the link it came by (R377). -/
def Dev.noRoute (l : Nat) (d : Dev) : Dev := d.modLink l (fun k => { k with cnt := vmod k.cnt 2 (fun c => c.addLo 1) })

/-- Count a refused request or COLL packet on the link it came by (R380, R400). -/
def Dev.refusal (l : Nat) (d : Dev) : Dev := d.modLink l (fun k => { k with cnt := vmod k.cnt 1 (fun c => c.addHi 1) })

/-- Send a response to a packet's sender along its route (R377). -/
def Dev.respond (l : Nat) (p : Packet) (d : Dev) : Dev :=
  match d.routeTo p.daddr.toNat with
  | some r => d.sendOn r p
  | none => d.noRoute l

/-- A response to request `p` (R371). -/
def responseTo (d : Dev) (p : Packet) (typ arg : Nat) : Packet :=
  packet typ true p.part.toNat p.saddr.toNat d.fab.addr.toNat arg p.tag.toNat

/-- The length in bytes that an RD asks for (R371). -/
def rdLength (p : Packet) : Nat := 32 * (fld p.arg.toNat 52 5 + 1)

/-- Answer an RD with `n` bytes: one RDR, or two when it asked for more than 512 (R371). -/
def Dev.answerRd (l : Nat) (p : Packet) (refused : Bool) (bs : List Byte) (ps : List Bool) (d : Dev) : Dev :=
  let part (off : Nat) : Packet :=
    let b := (bs.drop (32 * off)).take 512
    let q := (ps.drop (32 * off)).take 512
    { responseTo d p 0x18 (b2n refused + 2 * off) with payload := b, poisonBits := if q.any id then q else [] }
  let d1 := d.respond l (part 0)
  if bs.length ≤ 512 then d1 else d1.respond l (part 16)

/-- Refuse a request with its own kind of response (R371, R377, R380). -/
def Dev.refuseRequest (l : Nat) (p : Packet) (d : Dev) : Dev :=
  if p.typ = 0x10 then d.answerRd l p true (List.replicate (rdLength p) 0) []
  else if p.typ = 0x11 ∨ p.typ = 0x12 then d.respond l (responseTo d p 0x19 1)
  else d

/-- The checks of an arriving RD, WR or AT, in order (R380). -/
def Dev.requestOk (d : Dev) (l : Nat) (p : Packet) (a n : Nat) : Option Nat :=
  let k := d.link l
  let q := fld k.pmap.toNat (4 * p.part.toNat) 4
  let hbm : Bool := match regionOf a with
    | .hbm _ _ => true
    | _ => false
  if !k.pmapEn.toNat.testBit p.part.toNat then none
  else if a < 0x100000000 then none
  else if !((d.part q).en && (d.part q).inside (p.typ != 0x10) a n) then none
  else if p.typ = 0x12 ∧ !hbm then none
  else some q

/-- The requester that a peer is, arriving on link `l` as a request of partition `q` (R37, R380). -/
def peerReq (l q : Nat) : Req := { src := plainSrc 0x20 l, part := some q, func := none, occ := none }

/-- The byte mask of a packet, all ones when no block follows (R370). -/
def packetMask (p : Packet) : List Bool := if p.maskBits.isEmpty then List.replicate p.payload.length true else p.maskBits

/-- An RD, WR or AT for this device: it is checked, served as a request of the partition that its link maps it to, and answered, or
refused (R316, R317, R349, R371, R380). -/
def Dev.servePeer (t : TimeUnit) (id : Nat) (w : Await) (l : Nat) (p : Packet) (d : Dev) : Dev :=
  let a := fld p.arg.toNat 0 52
  match d.requestOk l p a (if p.typ = 0x10 then rdLength p else p.payload.length) with
  | none => (d.refuseRequest l p).refusal l
  | some q =>
    let r := jobReq id w (peerReq l q)
    if p.typ = 0x10 then
      let (x, d1) := d.read t r a (rdLength p)
      d1.answerRd l p false x.1 x.2
    else
      let d1 := if p.typ = 0x11 then d.write t r a p.payload p.poisonBits (packetMask p)
        else d.atomic t r (fld p.arg.toNat 52 4) a p.payload p.poisonBits (packetMask p)
      d1.respond l (responseTo d p 0x19 0)

/-! ### Control space (R33, R36, R497) -/

/-- The word of control space at `8 * i`, with its poison: of the bond table or of a register; none in a hole (R33). -/
def Dev.controlWord (t : TimeUnit) (d : Dev) (i : Nat) : Option (Nat × Bool) :=
  if 8 * i < 0x100000 then some (d.bondWord i, false) else (regAt (8 * i)).map (fun r => (d.readReg t r, d.regPoison r))

/-- A read of control space by a requester on the device: bytes of the bond table and of registers; bytes of a hole are zero, and
the access is counted once (R33, R36, R497). -/
def Dev.controlRead (t : TimeUnit) (q : Req) (a n : Nat) (d : Dev) : (List Byte × List Bool) × Dev :=
  let ws := (upTo ((a + n + 7) / 8 - a / 8)).map (fun i => d.controlWord t (a / 8 + i))
  let take {α : Type} (xs : List α) : List α := (xs.drop (a % 8)).take n
  ((take (ws.flatMap (fun w => wordBytes (w.getD (0, false)).1)), take (ws.flatMap (fun w => List.replicate 8 (w.getD (0, false)).2))),
   if ws.any Option.isNone then d.countHole q a else d)

/-- A write of control space by a requester on the device: every whole word that names a register is written to it; what names none,
the bond table and part of a word are hole accesses, counted once (R33, R36; DEDUCED, log entry 132). -/
def Dev.controlPut (q : Req) (a : Nat) (data : List Byte) (poison mask : List Bool) (t : TimeUnit) (d : Dev) : TimeUnit × Dev :=
  let n := data.length
  let r := (upTo ((a + n + 7) / 8 - a / 8)).foldl (fun (acc : Bool × (TimeUnit × Dev)) i =>
    let lo := 8 * (a / 8 + i)
    let whole := decide (a ≤ lo) && decide (lo + 8 ≤ a + n) && (upTo 8).all (fun j => mask.getD (lo - a + j) true)
    match (if lo < 0x100000 then none else regAt lo), whole with
    | some r, true =>
      (acc.1, acc.2.2.hostPut q r (ofBytes (natBytes ((data.drop (lo - a)).take 8)))
        ((upTo 8).any (fun j => poison.getD (lo - a + j) false)) acc.2.1)
    | _, _ => (true, acc.2)) (false, (t, d))
  (r.2.1, if r.1 then r.2.2.countHole q a else r.2.2)

/-! ### Requests at the memory controllers (R301, R302, R312) -/

/-- A requester with no occurrence. -/
def plainReq (src : Nat) (part : Option Nat) : Req := { src := src, part := part, func := none, occ := none }

/-- A controller accepts a request: a read is answered with the latest accepted value (R301, R302). -/
def Dev.serveMem (t : TimeUnit) (id : Nat) (w : Await) (m : MemReq) (d : Dev) : Dev :=
  match m with
  | .read a n src part tag =>
    let q := jobReq id w (plainReq src part)
    let (r, d1) := match d.regionAt a with
      | .control _ => d.controlRead t q a n
      | _ => d.read t q a n
    d1.answer 1 tag r.1 r.2
  | .write a bs ps mask src part => d.write t (jobReq id w (plainReq src part)) a bs ps mask
  | .atomic code a bs ps mask src part => d.atomic t (jobReq id w (plainReq src part)) code a bs ps mask

/-! ### Jobs -/

/-- The signal box reads the nonce of the quote that waits for the buffer at `a` (R465). -/
def Dev.readNonce (t : TimeUnit) (q : Req) (a : Nat) (d : Dev) : Dev :=
  let (x, d1) := d.fetch t q a 64
  if !d1.stall.isEmpty then d1
  else
    { d1 with bond := { d1.bond with signer := d1.bond.signer.map (fun j =>
        match j with
        | .quote (some b) none none => .quote (some b) (some (natBytes x.1, x.2)) none
        | _ => j) } }

/-- Serve a job as its requester, given what it has waited for. -/
def Dev.serve (t : TimeUnit) (id : Nat) (j : Work) (w : Await) (d : Dev) : Dev :=
  let core (q : Nat) : Req := jobReq id w (d.coreReq q)
  match j with
  | .mem m => d.serveMem t id w m
  | .host f o n data ep => bar2Serve (jobReq id w (d.hostReq f)) f o n data ep t d
  | .peer l p => d.servePeer t id w l p
  | .note q e promise now notify base => d.noteServe t (core q) q e promise now notify base
  | .cons q r => d.consJob t (core q) q r
  | .inspect q => d.inspectRing t (core q) q
  | .adopt q r drop => d.adoptRing t (core q) q r drop
  | .nonce q a => d.readNonce t (jobReq id w { boxReq with part := some q }) a

/-- The memory that a job's requests touch, as far as its words say. -/
def Dev.workSpans (d : Dev) (j : Work) : List (Nat × Nat) :=
  match j with
  | .mem (.read a n _ _ _) => [(a, n)]
  | .mem (.write a bs _ _ _ _) => [(a, bs.length)]
  | .mem (.atomic _ a bs _ _ _ _) => [(a, bs.length)]
  | .host f o n data _ =>
    (d.bar2Runs (d.hostReq f) o (match data with | some bs => bs.length | none => n)).filterMap (fun r => r.1.map (fun a => (a, r.2.1)))
  | .peer _ p => [(fld p.arg.toNat 0 52, if p.typ = 0x10 then rdLength p else p.payload.length)]
  | .nonce _ a => [(a, 64)]
  | _ => []

/-- A job reaches the device: it is served, or waits in arrival order (R302, R313, R321, R323, R379, R381). -/
def Dev.request (t : TimeUnit) (j : Work) (d : Dev) : Dev :=
  let id := d.nextJob
  match ({ d with nextJob := id + 1 } : Dev).attempt t Await.none (Dev.serve t id j) with
  | (none, d1) => d1
  | (some (w, spans), d1) =>
    { d1 with held := d1.held ++ [{ id := id, work := j, await := w, spans := d.workSpans j ++ spans }] }

/-- Try waiting jobs once, in arrival order: what still waits goes back to wait, before those that arrived after it, and what it
touches is not overtaken (R302, R323). -/
def Dev.retry (t : TimeUnit) : List Held → Dev → Dev
  | [], d => d
  | h :: rest, d =>
    let wait (h : Held) (d : Dev) : Dev := { d with held := d.held ++ [h] }
    if d.awaits 79 h.id then (wait h d).retry t rest
    else
      match d.attempt t h.await (Dev.serve t h.id h.work) with
      | (none, d1) => d1.retry t rest
      | (some (w, spans), d1) => (wait { h with await := w, spans := d.workSpans h.work ++ spans } d1).retry t rest

/-- Try what waits, and what that gives rise to, at most `fuel` times. -/
def Dev.retries (t : TimeUnit) : Nat → Dev → Dev
  | 0, d => d
  | fuel + 1, d =>
    let d1 := ({ d with held := [] } : Dev).retry t d.held
    if d1.nextJob = d.nextJob then d1 else d1.retries t fuel

/-- The jobs that wait go on, as far as they can. -/
def Dev.pump (t : TimeUnit) (d : Dev) : Dev := if d.held.isEmpty then d else d.retries t 4

/-- An effect after which waiting jobs go on. -/
def thenPump (f : TimeUnit → Dev → Dev) (t : TimeUnit) (d : Dev) : Dev := (f t d).pump t

/-! ### What arrives -/

/-- MEMORY_READ: a read request of at most 4 KiB reaches a controller (R301, R347, R348). `die` is what the memory dies or the
interface will report at the next burst of the sector at `a`, which may be this one; a read of no bytes makes no request (R322,
R343; DESIGN CHOICE, log entry 63). -/
def memoryRead (a n src tag die : Nat) (part : Option Nat) (t : TimeUnit) (d : Dev) : Dev :=
  let d1 := match die, d.regionAt a with
    | 0, _ => d
    | _, .hbm s _ => d.modStack s (fun k => { k with dies := tabSet 0 k.dies (a / 32 * 32) die })
    | _, _ => d
  if n = 0 then d1 else d1.request t (.mem (.read a (min n 4096) src part tag))

/-- MEMORY_WRITE: a write request of at most 4 KiB reaches a controller, or control space (R33, R301, R302, R344). -/
def memoryWrite (a src : Nat) (part : Option Nat) (bs : List Byte) (ps mask : List Bool) (t : TimeUnit) (d : Dev) : TimeUnit × Dev :=
  match d.regionAt a with
  | .control _ => d.controlPut (plainReq src part) a (bs.take 4096) ps mask t
  | _ => (t, d.request t (.mem (.write a (bs.take 4096) ps mask src part)))

/-- A memory-side request of one block reaches an HBM controller, or waits there; elsewhere there is no memory-side unit
(R312, R316, R317, R323). -/
def msRequest (code a : Nat) (data : List Byte) (poison mask : List Bool) (src : Nat) (part : Option Nat) (t : TimeUnit)
    (d : Dev) : Dev :=
  match d.regionAt a with
  | .hbm _ _ => d.request t (.mem (.atomic code a (data.take 64) poison mask src part))
  | _ => d

/-- MS_RESERVED_OP: a request with a reserved code is discarded with an ADMISSION_REFUSED record (R316). -/
def msReserved (code a : Nat) (src : Nat) (part : Option Nat) (t : TimeUnit) (d : Dev) : Dev :=
  if msKnown code then d
  else msRequest code a [0] [] [] src part t d

/-- BAR2_ACCESS: one PCIe request TLP of function `f`: a read of `n` bytes, or a write of data (R437). -/
def bar2Access (f : Func) (o n : Nat) (data : Option (List Byte)) (ep : Bool) (t : TimeUnit) (d : Dev) : Dev :=
  if !d.portOpen f.port then d else d.request t (.host f o n data ep)

/-- A platform that becomes enabled, or whose rings have moved, continues from the counts in the rings' headers (R441). -/
def Dev.adoptRings (t : TimeUnit) (q : Nat) (d : Dev) : Dev :=
  [0, 1, 2].foldl (fun (d : Dev) r => d.request t (.adopt q r false))
    (d.modPart q (fun p => { p with counts := p.counts.map (fun c => { c with known := false }) }))

/-- PLATFORM_INSPECT at a slot boundary: headers that could not be read are tried again, CONS of the completion and event rings is
read, waiting replies go out, and the submission ring is inspected (R441, R442, R448). -/
def Dev.inspect (t : TimeUnit) (q : Nat) (d : Dev) : Dev :=
  let p := d.part q
  if !(p.en && p.platEn) then d
  else
    let lost := [0, 1, 2].filter (fun r => !(p.ring r).known && !d.hasJob (.adopt q r false) && !d.hasJob (.adopt q r true))
    let d0 := lost.foldl (fun (d : Dev) r => d.request t (.adopt q r false)) d
    let d1 := (((d0.readCons t q 1).readCons t q 2).flushOwed t).flushReplies t q
    if d1.hasJob (.inspect q) then d1 else d1.request t (.inspect q)

end Sys2Proof.Machine
end

