-- ==== Sys2Proof/Machine/Links.lean ====
section
/-! DEFINITION. Ozrinen links: bring-up, width changes, link service, and every packet that arrives (R43, R349, R365 to R385,
R395 to R402). -/

namespace Sys2Proof.Machine

/-! ### Width and state changes (R367, R369, R385, R401) -/

/-- Make the records of the occurrences that the timetables have in the current slot and that claim link `l` (R385). -/
def Dev.linkOccs (t : TimeUnit) (l : Nat) (d : Dev) : Dev :=
  let per (d : Dev) (x : Nat × Timetable) : Dev :=
    let tt := x.2
    let base := tt.base + d.shiftOf tt.shift0
    if t.slot < base then d
    else
      (upTo tt.entries.length).foldl (fun (d : Dev) e =>
        let uses : Bool := match tt.entries[e]? with
          | some te => match tt.pathSet te.pathset with
            | some ps => ps.claims.any (fun c => c.link == l)
            | none => false
          | none => false
        if uses then
          match d.ensureOcc x.1 tt e ((t.slot - base) / tt.period) with
          | some (_, d1) => d1
          | none => d
        else d) d
  d.timetables.foldl per d

/-- Whether, in a slot of the remaining span of an occurrence that uses link `l`, the valid claims on one of its directions
exceed the ceiling now (R385). -/
def Dev.overLink (t : TimeUnit) (d : Dev) (l : Nat) (o : Occ) : Bool :=
  let uses : Bool := match o.paths with
    | some ps => ps.claims.any (fun c => c.link == l)
    | none => false
  let xs := d.laid
  let lo := max t.slot (d.depSlot o)
  uses && (upTo (d.promise o + 1 - lo)).any (fun i =>
    let ds := demandsAt t.slotLen xs (lo + i)
    [2 * l, 2 * l + 1].any (fun n => decide (d.ceiling t.slotLen 0x0A n < totalOf ds 0x0A n)))

/-- What waits on a link that is not UP and did not come by its window goes by its route: over ALT where PRIM is down (R377, R385). -/
def Dev.reroute (l : Nat) (d : Dev) : Dev :=
  let k := d.link l
  let window (p : Packet) : Bool := !p.path && p.saddr == d.fab.addr && (p.typ == 0x10 || p.typ == 0x11 || p.typ == 0x12)
  if k.isUp then d.service l
  else (k.blocked.filter (fun p => !window p)).foldl (fun (d : Dev) p => d.sendRouted p)
    (d.modLink l (fun k => { k with blocked := k.blocked.filter window }))

/-- Withdraw an occurrence with cause LINK: its path packets go on without a claim (R385). -/
def Dev.unlink (t : TimeUnit) (k : OccKey) (d : Dev) : Dev :=
  (d.withdraw t lateLink noSlot k).modOcc k (fun o => { o with unlinked := true, meters := o.meters.filter (fun m => m.code != 0x0A) })

/-- A link's state or quads change: the record, and the occurrences that no longer fit are withdrawn with cause LINK; what waits on it
goes on (R367, R385, R401, R474). -/
def Dev.linkChange (t : TimeUnit) (l : Nat) (st : LinkState) (quads reason : Nat) (d : Dev) : Dev :=
  let old := (d.link l).lanes
  let d1 := (d.linkOccs t l).modLink l (fun k =>
    { k with state := st, quads := BitVec.ofNat 4 quads, unc := if st = .up ∧ k.state ≠ .up then Vector.replicate 4 0 else k.unc })
  let k := d1.link l
  let lost := d1.openOccs.filter (d1.overLink t l)
  let r := { record 0x0C (plainSrc 0x20 l) with
    withdrawn := !lost.isEmpty, count := w64 k.lanes
    detail := detail [(48, 1, old), (49, 1, k.lanes), (50, 1, reason), (51, 1, if k.isUp then quads else 0), (52, 2, k.far.toNat)] }
  ((lost.foldl (fun (d : Dev) o => d.unlink t o.key) (d1.emit t none r)).reroute l).bondDue

/-- A link that stays UP on the quads `rest` replays every unacknowledged packet; with fewer than two it goes DOWN (R367). -/
def Dev.narrow (t : TimeUnit) (l rest reason : Nat) (d : Dev) : Dev :=
  if popCount 4 rest < 2 then d.linkChange t l .down 0 reason
  else (d.modLink l (fun k => k.replay k.unacked)).linkChange t l .up rest reason

/-- A quad leaves service; with fewer than two left the link goes DOWN (R367). -/
def Dev.loseQuad (t : TimeUnit) (l quad reason : Nat) (d : Dev) : Dev :=
  let k := d.link l
  if !k.isUp ∨ !k.quads.toNat.testBit quad then d
  else d.narrow t l (clrBit k.quads.toNat quad) reason

/-- QUAD_LOSS: a lane of the quad loses lock or fails (reason 0), or the signal is lost (reason 3); unacknowledged packets are
replayed at the new width (R367). -/
def quadLoss (l quad : Nat) (signal : Bool) (t : TimeUnit) (d : Dev) : Dev := d.loseQuad t l quad (if signal then 3 else 0)

/-- A link begins training: nothing agreed, nothing in service (R365, R367). -/
def Dev.startTraining (t : TimeUnit) (l : Nat) (d : Dev) : Dev :=
  let d1 := d.modLink l (fun k => { k with myQuads := 0, capSeen := false })
  if (d.link l).isUp then d1.linkChange t l .training 0 4
  else d1.modLink l (fun k => { k with state := .training })

/-- MAINTENANCE_SPAN_START: due channels retrain, and so does every enabled link that is not in service on all the quads that it is
permitted (R65, R321, R367; DESIGN CHOICE, log entry 139). -/
def maintenanceStart (q e k : Nat) (t : TimeUnit) (d : Dev) : Dev :=
  let d1 := maintStart q e k t d
  if (maintOcc q e k t d).isNone then d1
  else ((upTo 32).filter (fun l => (d.link l).en && (d.link l).state != .training &&
      ((d.link l).quads &&& (d.link l).qmask != (d.link l).qmask || !(d.link l).isUp))).foldl (fun (d : Dev) l => d.startTraining t l) d1

/-! ### Bring-up (R368, R369) -/

/-- The device's protocol version, lowest and highest (R368): 1.0. -/
def linkVersion : Nat := 0x0100

/-- The CAP packet of link `l` (R368). -/
def Dev.capPacket (d : Dev) (l : Nat) : Packet :=
  let k := d.link l
  { packet 0x01 false 0 0 d.fab.addr.toNat 0 0 with
    payload := byteList (toBytes 2 linkVersion ++ toBytes 2 linkVersion ++
      toBytes 2 (d.fab.addr.toNat + b2n d.fab.valid * 2 ^ 15) ++ [k.myQuads.toNat, l] ++ List.replicate 56 0) }

/-- Once both ends have trained and the far CAP has come, the link is UP at the agreed width or DOWN (R366, R367, R369). -/
def Dev.agree (t : TimeUnit) (l : Nat) (d : Dev) : Dev :=
  let k := d.link l
  if k.state ≠ .training ∨ !k.capSeen ∨ k.myQuads = 0 then d
  else
    let v := min linkVersion k.farHi.toNat
    let quads := (k.myQuads &&& k.farQuads &&& k.qmask).toNat
    if v < linkVersion ∨ v < k.farLo.toNat then d.linkChange t l .down 0 2
    else if popCount 4 quads < 2 then d.linkChange t l .down 0 0
    else (d.modLink l (fun k => { k with ver := BitVec.ofNat 16 v })).linkChange t l .up quads 5

/-- LINK_TRAINED: lane training of link `l` ends with the quads that trained at this end, and CAP is sent (R365, R368,
R474). -/
def linkTrained (l quads : Nat) (t : TimeUnit) (d : Dev) : Dev :=
  if (d.link l).state ≠ .training then d
  else if popCount 4 quads < 2 then d.linkChange t l .down 0 0
  else
    let d1 := d.modLink l (fun k => { k with myQuads := BitVec.ofNat 4 quads })
    (d1.sendOn l (d1.capPacket l)).agree t l

/-- The value of a LNK_CTL write that keeps the register's other fields and sets RETRAIN (R402). -/
def Dev.retrainValue (t : TimeUnit) (l : Nat) (d : Dev) : Nat := d.ahead.readReg t (.lnkCtl l) + 2

/-! ### Link service (R370 to R374) -/

/-- The TYPE values that are assigned (R371). -/
def knownType (n : Nat) : Bool := decide (n ≤ 3) || n == 0x10 || n == 0x11 || n == 0x12 || n == 0x18 || n == 0x19 || n == 0x20

/-- Receive a packet of one of some types: it must be the next in order on a link that is UP (a CAP may come while it trains).
A device without a valid fabric address discards all but IDLE, CAP, TIME and NOTICE; a reserved TYPE is counted there too (R368, R371,
R373, R376). -/
def Dev.arrive (l : Nat) (p : Packet) (types : Nat → Bool) (act : Dev → Dev) (d : Dev) : Dev :=
  let k := d.link l
  let open' : Bool := k.isUp || (k.state == .training && p.typ == 0x01)
  if !types p.typ.toNat ∨ !open' ∨ p.seq ≠ k.recvSeq + 1 then d
  else
    let d1 := (d.modLink l (·.accept p)).service l
    if !d.fab.valid ∧ 4 ≤ p.typ.toNat ∧ knownType p.typ.toNat then d1 else act d1

/-- Act on a packet for this device, or send another's on along its route; without a route a request is refused and the packet
counted. A device without a valid fabric address has none and forwards nothing (R376, R377, R384). -/
def Dev.consume (l : Nat) (p : Packet) (act : Dev → Dev) (d : Dev) : Dev :=
  if !d.fab.valid then d
  else if p.daddr = d.fab.addr then act d
  else
    match d.routeTo p.daddr.toNat with
    | some r => d.sendOn r p
    | none => (d.refuseRequest l p).noRoute l

/-! ### Requests (R379 to R381) -/

/-- RD: read and answer, or refuse (R371, R380). -/
def rdPacket (l : Nat) (p : Packet) (t : TimeUnit) (d : Dev) : Dev :=
  d.arrive l p (· == 0x10) (fun d => d.consume l p (·.request t (.peer l p)))

/-- WR: write and acknowledge, or refuse (R349, R370, R380, R381). -/
def wrPacket (l : Nat) (p : Packet) (t : TimeUnit) (d : Dev) : Dev :=
  d.arrive l p (· == 0x11) (fun d => d.consume l p (·.request t (.peer l p)))

/-- AT: the memory-side unit operates and the request is acknowledged, or it is refused (R316, R317, R380, R381). -/
def atPacket (l : Nat) (p : Packet) (t : TimeUnit) (d : Dev) : Dev :=
  d.arrive l p (· == 0x12) (fun d => d.consume l p (·.request t (.peer l p)))

/-! ### Responses (R371, R381) -/

/-- RDR: bytes of an outstanding read, zeros where it was refused; a long read is over when its second half has come. -/
def rdrPacket (l : Nat) (p : Packet) (d : Dev) : Dev :=
  d.arrive l p (· == 0x18) (fun d => d.consume l p (fun (d : Dev) =>
    let home := p.tag.toNat % 32
    match (d.link home).waiting.find? (fun w => w.tag == p.tag.toNat && w.typ == 0x10) with
    | none => d
    | some w =>
      let off := 32 * fld p.arg.toNat 1 5
      let n := min 512 (w.len - off)
      let no := bit p.arg.toNat 0
      let bs := (upTo n).map (fun i => if no then 0 else p.payload.getD i 0)
      let ps := (upTo n).map (fun i => !no && p.poisonBits.getD i false)
      let d1 := d.modMem (fun m => m.putAll (w.addr + off) bs ps [])
      let whole : Bool := decide (w.len ≤ 512) || (w.half && decide (off = 512))
      d1.modLink home (fun k => { k with
        waiting := if whole then k.waiting.filter (fun x => x != w)
          else k.waiting.map (fun x => if x = w then { x with half := true } else x) })))

/-- WACK: an outstanding WR or AT has completed; `after` is told who it was for and whether it was refused (R371, R381). -/
def wackPacket (l : Nat) (p : Packet) (after : Option (Nat × Nat) → Bool → Dev → Dev) (d : Dev) : Dev :=
  d.arrive l p (· == 0x19) (fun d => d.consume l p (fun (d : Dev) =>
    let home := p.tag.toNat % 32
    match (d.link home).waiting.find? (fun w => w.tag == p.tag.toNat && (w.typ == 0x11 || w.typ == 0x12)) with
    | none => d
    | some w => after w.flight (bit p.arg.toNat 0) (d.modLink home (fun k => { k with waiting := k.waiting.filter (fun x => x != w) }))))

/-- COLL_PACKET: taken into the collective it names, or discarded and counted (R376, R400). -/
def collPacket (l : Nat) (p : Packet) (t : TimeUnit) (d : Dev) : Dev :=
  d.arrive l p (· == 0x20) (fun d => d.consume l p (fun (d : Dev) =>
    let k := d.link l
    if !k.pmapEn.toNat.testBit p.part.toNat then d.refusal l
    else
      let (ok, d1) := d.collArrive t (fld k.pmap.toNat (4 * p.part.toNat) 4) p
      if ok then d1 else d.refusal l))

/-! ### The other packets -/

/-- CAP_PACKET (R368, R369). -/
def capArrival (l : Nat) (p : Packet) (t : TimeUnit) (d : Dev) : Dev :=
  d.arrive l p (· == 0x01) (fun (d : Dev) =>
    let w := ofBytes (natBytes p.payload)
    (d.modLink l (fun k =>
      { k with capSeen := true, farLo := BitVec.ofNat 16 (fld w 0 16), farHi := BitVec.ofNat 16 (fld w 16 16),
               far := BitVec.ofNat 12 (fld w 32 12), farValid := bit w 47, farQuads := BitVec.ofNat 4 (fld w 48 4),
               farLink := BitVec.ofNat 5 (fld w 56 5) })).agree t l)

/-- IDLE_PACKET: acknowledgement and credits only (R371). -/
def idlePacket (l : Nat) (p : Packet) (d : Dev) : Dev := d.arrive l p (· == 0x00) id

/-- UNKNOWN_PACKET: discarded and counted in BADPKT (R371). -/
def unknownPacket (l : Nat) (p : Packet) (d : Dev) : Dev :=
  d.arrive l p (fun n => !knownType n) (fun (d : Dev) => d.modLink l (fun k => { k with cnt := vmod k.cnt 2 (fun c => c.addHi 1) }))

/-- PACKET_NAK: a packet with a bad CRC or uncorrectable codewords, `unc` of them on the lanes of each quad, is dropped, and NAK is
sent (R373, R374). -/
def packetNak (l : Nat) (unc : Vector Nat 4) (d : Dev) : Dev :=
  if !(d.link l).isUp then d
  else (d.modLink l (fun k =>
    { k with cnt := vmod k.cnt 0 (fun c => c.addHi unc.sum), unc := Vector.zipWith (· + ·) k.unc unc })).sendOn l
    { packet 0x00 false 0 0 d.fab.addr.toNat 0 0 with nak := true }

/-- PACKET_REPLAY: a NAK whose ACK names the last good packet makes the sender replay from the packet after it (R373). -/
def packetReplay (l : Nat) (ack : BitVec 16) (d : Dev) : Dev :=
  if !(d.link l).isUp then d
  else d.modLink l (fun k =>
    let again := match k.unacked.findIdx? (fun u => u.seq == ack) with
      | some i => k.unacked.drop (i + 1)
      | none => k.unacked
    ({ k with unacked := again } : Link).replay again)

/-- A slot's capacity at full width, in bytes (R366). -/
def TimeUnit.linkBytes (t : TimeUnit) : Nat := 200 * t.slotLen

/-- The quad in service with the most uncorrectable codewords since the link came up: of equals `quad`, or the lowest where that is
not one of them (R374; DESIGN CHOICE, log entry 138). -/
def Link.worstQuad (k : Link) (quad : Nat) : Nat :=
  if bit k.quads.toNat quad && (upTo 4).all (fun q => !bit k.quads.toNat q || decide (vget 0 k.unc q ≤ vget 0 k.unc quad)) then quad
  else (((upTo 4).filter (fun q => bit k.quads.toNat q)).foldl (fun (m : Option Nat) q =>
    if optAll m (fun b => decide (vget 0 k.unc b < vget 0 k.unc q)) then some q else m) none).getD 0

/-- REPLAY_THRESHOLD: replays above 1/64 of a slot are a CAUTION, at most once in 1,024 slots; above 1/16 in a third
consecutive slot they take the quad with the most uncorrectable codewords out of service (R374, R396). -/
def replayThreshold (l quad : Nat) (t : TimeUnit) (d : Dev) : Dev :=
  let k := d.link l
  let n := k.replayed
  let d1 :=
    if t.linkBytes < 64 * n ∧ optAll k.lastCaution (fun s => decide (s + 1024 ≤ t.slot)) then
      let e := d.emit t none { record 0x06 (plainSrc 0x20 l) with count := w64 n, detail := detail [(48, 1, 0x05)] }
      let p := notice e 3 0x05 e.fab.addr.toNat 0 0 n 0
      let e1 := e.modLink l (fun k => { k with lastCaution := some t.slot })
      if k.isUp then e1.sendOn l p else e1
    else d
  if t.linkBytes < 16 * n ∧ 2 ≤ k.overSlots then d1.loseQuad t l (k.worstQuad quad) 1 else d1

/-- TIME_EXCHANGE: link `l` sends its TIME packet; `frac` is the send time within the line tick, in 1/16 ns. A device whose source
link reports LOCK = 3 reports it too (R43, R395, R397). -/
def timeSend (l frac : Nat) (t : TimeUnit) (d : Dev) : Dev :=
  let k := d.link l
  if !k.isUp then d
  else
    let stamp := 16 * t.now + frac
    let (value, slot) := d.stepNews t
    let sync := t.depth.toNat + 16 * (if d.fab.srcLock = 3 then 3 else t.lock.code) + 64 * b2n t.root
    let root := if t.root then d.fab.addr.toNat else d.fab.rootAddr.toNat
    let p := { packet 0x02 false 0 0 d.fab.addr.toNat 0 0 with
      payload := byteList (toBytes 8 stamp ++ toBytes 8 k.lastRx.toNat ++ toBytes 8 value ++ toBytes 8 slot ++ [sync, 0] ++
        toBytes 2 root ++ List.replicate 28 0) }
    (d.modLink l (fun k => { k with lastTx := w64 stamp })).sendOn l p

/-- TIME_PACKET: a TIME packet arrives on link `l` at `rx` in 1/16 ns (R43, R395). -/
def timeArrival (l : Nat) (p : Packet) (rx : Nat) (t : TimeUnit) (d : Dev) : TimeUnit × Dev :=
  let d1 := d.arrive l p (· == 0x02) id
  if p.typ = 0x02 ∧ (d.link l).isUp ∧ p.seq = (d.link l).recvSeq + 1 then timePacket l p rx t d1 else (t, d)

/-! ### Notices (R396 to R399) -/

/-- A NOTICE of kind `kind` on link `l`: its CAUSE, INITIATOR, SEQ, SLOT and VALUE (R396). -/
def Dev.onNotice (l kind : Nat) (p : Packet) (act : Nat → Nat → Nat → Nat → Nat → Dev → Dev) (d : Dev) : Dev :=
  let w := ofBytes (natBytes p.payload)
  if fld w 0 8 ≠ kind then d
  else d.arrive l p (· == 0x03) (act (fld w 8 8) (fld w 16 12) (fld w 32 16) (fld w 64 64) (fld w 128 64))

/-- HOLD_NOTICE (R61, R64, R397). -/
def holdPacket (l : Nat) (p : Packet) (t : TimeUnit) (d : Dev) : Dev :=
  d.onNotice l 1 p (fun cause init seq slot _ => holdNotice l init seq cause slot t)

/-- RESUME_NOTICE (R63, R397). -/
def resumePacket (l : Nat) (p : Packet) (t : TimeUnit) (d : Dev) : Dev :=
  d.onNotice l 2 p (fun _ init seq slot _ => resumeNotice l init seq slot t)

/-- CAUTION_NOTICE: it travels one hop and changes nothing here but link service (R396, R397). -/
def cautionPacket (l : Nat) (p : Packet) (d : Dev) : Dev := d.onNotice l 3 p (fun _ _ _ _ _ => id)

/-- STEP_NOTICE (R68, R397). -/
def stepPacket (l : Nat) (p : Packet) (t : TimeUnit) (d : Dev) : Dev :=
  d.onNotice l 4 p (fun _ _ _ slot value => stepNotice l value slot t)

/-- PEERLATE, routed to this device (R377, R398). -/
def peerLatePacket (l : Nat) (p : Packet) (t : TimeUnit) (d : Dev) : Dev :=
  d.onNotice l 5 p (fun _ _ seq slot _ => (·.consume l p (peerLate seq slot t)))

/-- ABANDON, routed to this device (R377, R399). -/
def abandonPacket (l : Nat) (p : Packet) (t : TimeUnit) (d : Dev) : Dev :=
  d.onNotice l 6 p (fun _ init seq _ value => (·.consume l p (abandonNotice init seq value t)))

end Sys2Proof.Machine
end

