-- ==== Sys2Proof/Machine/Sha.lean ====
section
/-! DEFINITION. SHA-512, HMAC and the random generator built on it, and RSASSA-PKCS1-v1_5: what waybills, quotes, the
repair record and the identity key are made with (R409 to R412, R454, R456, R462, R466). The constants are those of the
standard that the spec names (PRESUMED, log entry 8). -/

namespace Sys2Proof.Machine

/-- Round constants 0 to 19 of SHA-512. -/
def shaK0 : List Nat :=
  [0x428A2F98D728AE22, 0x7137449123EF65CD, 0xB5C0FBCFEC4D3B2F, 0xE9B5DBA58189DBBC,
   0x3956C25BF348B538, 0x59F111F1B605D019, 0x923F82A4AF194F9B, 0xAB1C5ED5DA6D8118,
   0xD807AA98A3030242, 0x12835B0145706FBE, 0x243185BE4EE4B28C, 0x550C7DC3D5FFB4E2,
   0x72BE5D74F27B896F, 0x80DEB1FE3B1696B1, 0x9BDC06A725C71235, 0xC19BF174CF692694,
   0xE49B69C19EF14AD2, 0xEFBE4786384F25E3, 0x0FC19DC68B8CD5B5, 0x240CA1CC77AC9C65]

/-- Round constants 20 to 39 of SHA-512. -/
def shaK1 : List Nat :=
  [0x2DE92C6F592B0275, 0x4A7484AA6EA6E483, 0x5CB0A9DCBD41FBD4, 0x76F988DA831153B5,
   0x983E5152EE66DFAB, 0xA831C66D2DB43210, 0xB00327C898FB213F, 0xBF597FC7BEEF0EE4,
   0xC6E00BF33DA88FC2, 0xD5A79147930AA725, 0x06CA6351E003826F, 0x142929670A0E6E70,
   0x27B70A8546D22FFC, 0x2E1B21385C26C926, 0x4D2C6DFC5AC42AED, 0x53380D139D95B3DF,
   0x650A73548BAF63DE, 0x766A0ABB3C77B2A8, 0x81C2C92E47EDAEE6, 0x92722C851482353B]

/-- Round constants 40 to 59 of SHA-512. -/
def shaK2 : List Nat :=
  [0xA2BFE8A14CF10364, 0xA81A664BBC423001, 0xC24B8B70D0F89791, 0xC76C51A30654BE30,
   0xD192E819D6EF5218, 0xD69906245565A910, 0xF40E35855771202A, 0x106AA07032BBD1B8,
   0x19A4C116B8D2D0C8, 0x1E376C085141AB53, 0x2748774CDF8EEB99, 0x34B0BCB5E19B48A8,
   0x391C0CB3C5C95A63, 0x4ED8AA4AE3418ACB, 0x5B9CCA4F7763E373, 0x682E6FF3D6B2B8A3,
   0x748F82EE5DEFB2FC, 0x78A5636F43172F60, 0x84C87814A1F0AB72, 0x8CC702081A6439EC]

/-- Round constants 60 to 79 of SHA-512. -/
def shaK3 : List Nat :=
  [0x90BEFFFA23631E28, 0xA4506CEBDE82BDE9, 0xBEF9A3F7B2C67915, 0xC67178F2E372532B,
   0xCA273ECEEA26619C, 0xD186B8C721C0C207, 0xEADA7DD6CDE0EB1E, 0xF57D4F7FEE6ED178,
   0x06F067AA72176FBA, 0x0A637DC5A2C898A6, 0x113F9804BEF90DAE, 0x1B710B35131C471B,
   0x28DB77F523047D84, 0x32CAAB7B40C72493, 0x3C9EBE0A15C9BEBC, 0x431D67C49C100D4C,
   0x4CC5D4BECB3E42B6, 0x597F299CFC657E2A, 0x5FCB6FAB3AD6FAEC, 0x6C44198C4A475817]

/-- The 80 round constants of SHA-512. -/
def shaK : List Nat := shaK0 ++ shaK1 ++ shaK2 ++ shaK3

/-- The initial hash value of SHA-512. -/
def shaH0 : List Nat :=
  [0x6A09E667F3BCC908, 0xBB67AE8584CAA73B, 0x3C6EF372FE94F82B, 0xA54FF53A5F1D36F1,
   0x510E527FADE682D1, 0x9B05688C2B3E6C1F, 0x1F83D9ABFB41BD6B, 0x5BE0CD19137E2179]

/-- A 64-bit word taken modulo 2^64. -/
def m64 (n : Nat) : Nat := n % 0x10000000000000000

/-- Rotate a 64-bit word right. -/
def rotr64 (x n : Nat) : Nat := m64 (x >>> n ||| x <<< (64 - n))

/-- The message schedule of one block, built up from its 16 words; the list is newest first. -/
def shaSchedule : Nat → List Nat → List Nat
  | 0, ws => ws
  | n + 1, ws =>
    let w2 := ws.getD 1 0
    let w7 := ws.getD 6 0
    let w15 := ws.getD 14 0
    let w16 := ws.getD 15 0
    let s0 := rotr64 w15 1 ^^^ rotr64 w15 8 ^^^ w15 >>> 7
    let s1 := rotr64 w2 19 ^^^ rotr64 w2 61 ^^^ w2 >>> 6
    shaSchedule n (m64 (w16 + s0 + w7 + s1) :: ws)

/-- One round of SHA-512 on its eight working words. -/
def shaRound (v : List Nat) (kw : Nat) : List Nat :=
  match v with
  | [a, b, c, d, e, f, g, h] =>
    let s1 := rotr64 e 14 ^^^ rotr64 e 18 ^^^ rotr64 e 41
    let ch := (e &&& f) ^^^ ((e ^^^ 0xFFFFFFFFFFFFFFFF) &&& g)
    let t1 := h + s1 + ch + kw
    let s0 := rotr64 a 28 ^^^ rotr64 a 34 ^^^ rotr64 a 39
    let mj := (a &&& b) ^^^ (a &&& c) ^^^ (b &&& c)
    [m64 (t1 + s0 + mj), a, b, c, m64 (d + t1), e, f, g]
  | _ => v

/-- Compress one 128-byte block, given as 16 words, into the hash value. -/
def shaBlock (h : List Nat) (ws : List Nat) : List Nat :=
  let sched := (shaSchedule 64 ws.reverse).reverse
  let v := (List.zipWith (fun k w => k + w) shaK sched).foldl shaRound h
  List.zipWith (fun x y => m64 (x + y)) h v

/-- The number that big-endian bytes spell. -/
def ofBytesBE (bs : List Nat) : Nat := bs.foldl (fun n b => n * 256 + b % 256) 0

/-- The `n` big-endian bytes of a number. -/
def toBytesBE (n v : Nat) : List Nat := (toBytes n v).reverse

/-- Cut a list into `n` pieces of length `k`. -/
def chunksOf {α : Type} : Nat → Nat → List α → List (List α)
  | 0, _, _ => []
  | n + 1, k, xs => xs.take k :: chunksOf n k (xs.drop k)

/-- SHA-512 of a list of bytes, as 64 bytes. -/
def sha512 (msg : List Nat) : List Nat :=
  let len := msg.length
  let pad := (128 - (len + 17) % 128) % 128
  let full := msg ++ [0x80] ++ List.replicate pad 0 ++ toBytesBE 16 (8 * len)
  let blocks := chunksOf (full.length / 128) 128 full
  let h := blocks.foldl (fun h b => shaBlock h ((chunksOf 16 8 b).map ofBytesBE)) shaH0
  (h.map (toBytesBE 8)).flatten

/-- HMAC with SHA-512. -/
def hmac512 (key msg : List Nat) : List Nat :=
  let k0 := if key.length > 128 then sha512 key else key
  let k := k0 ++ List.replicate (128 - k0.length) 0
  sha512 (k.map (· ^^^ 0x5C) ++ sha512 (k.map (· ^^^ 0x36) ++ msg))

/-- The update function of HMAC_DRBG on its pair (K, V). -/
def drbgUpdate (kv : List Nat × List Nat) (seed : List Nat) : List Nat × List Nat :=
  let k1 := hmac512 kv.1 (kv.2 ++ [0] ++ seed)
  let v1 := hmac512 k1 kv.2
  if seed.isEmpty then (k1, v1)
  else
    let k2 := hmac512 k1 (v1 ++ [1] ++ seed)
    (k2, hmac512 k2 v1)

/-- The instantiate function of HMAC_DRBG. -/
def drbgNew (seed personal : List Nat) : List Nat × List Nat :=
  drbgUpdate (List.replicate 64 0, List.replicate 64 1) (seed ++ personal)

/-- `n` blocks of 64 bytes of output, before the closing update. -/
def drbgBlocks : Nat → List Nat → List Nat → List Nat × List Nat
  | 0, _, v => ([], v)
  | n + 1, k, v =>
    let v1 := hmac512 k v
    let r := drbgBlocks n k v1
    (v1 ++ r.1, r.2)

/-- One draw of 256 bytes from HMAC_DRBG, with the generator's next state. -/
def drbgDraw (kv : List Nat × List Nat) : List Nat × (List Nat × List Nat) :=
  let r := drbgBlocks 4 kv.1 kv.2
  (r.1, drbgUpdate (kv.1, r.2) [])

/-- Candidate number `i` of R456 step 4, counted from 0: 2,048 bits with the two top bits and bit 0 forced to 1. -/
def candidate : Nat → (List Nat × List Nat) → Nat
  | 0, kv => ofBytesBE (drbgDraw kv).1 ||| 2 ^ 2047 ||| 2 ^ 2046 ||| 1
  | i + 1, kv => candidate i (drbgDraw kv).2

/-- `b ^ e mod n` by square and multiply over the low `bits` bits of the exponent. -/
def powMod (n : Nat) : Nat → Nat → Nat → Nat
  | 0, _, _ => 1 % n
  | bits + 1, b, e =>
    let r := powMod n bits (b * b % n) (e / 2)
    if e % 2 = 1 then b * r % n else r

/-- The encoded message of RSASSA-PKCS1-v1_5 with SHA-512 for a 512-byte modulus (R412). -/
def emsa512 (msg : List Nat) : Nat :=
  let info := [0x30, 0x51, 0x30, 0x0D, 0x06, 0x09, 0x60, 0x86, 0x48, 0x01, 0x65, 0x03, 0x04, 0x02, 0x03, 0x05, 0x00,
    0x04, 0x40]
  ofBytesBE ([0x00, 0x01] ++ List.replicate (512 - 3 - 83) 0xFF ++ [0x00] ++ info ++ sha512 msg)

/-- Sign with a private exponent; the signature is 512 bytes, big-endian. -/
def rsaSign (n d : Nat) (msg : List Nat) : List Nat := toBytesBE 512 (powMod n 4096 (emsa512 msg) d)

/-- Check a signature under public exponent 65537. -/
def rsaVerify (n : Nat) (msg sig : List Nat) : Bool :=
  let s := ofBytesBE sig
  s < n && powMod n 17 s 65537 == emsa512 msg

end Sys2Proof.Machine
end

