-- ==== Sys2Proof/Machine/Waybills.lean ====
section
/-! DEFINITION. Waybills: drain orders, drains, signatures and restores (R403 to R418, R425 to R430). -/

namespace Sys2Proof.Machine

/-! ### Writes and reads at the holder (R381, R406, R425) -/

/-- Whether the holder of a depot can be reached: it is this device, or a route leads there (R376, R377). -/
def Dev.reachesHolder (d : Dev) (holder : Nat) : Bool :=
  holder == d.fab.addr.toNat || (d.fab.valid && (d.routeTo holder).isSome)

/-- Write bytes at an address of the holder: locally, or as WR packets along its route, as path traffic when `psid` names a
path (R377, R379, R406). Without a route the writes are refused and nothing is awaited. -/
def Dev.holderWrite (t : TimeUnit) (q : Req) (owner : Nat × Nat) (psid holder a : Nat) (bs : List Nat) (ps mask : List Bool)
    (d : Dev) : Dev :=
  let part := q.part.getD 0
  if holder = d.fab.addr.toNat then d.store t q a (byteList bs) ps mask
  else
    match (if d.fab.valid then d.routeTo holder else none) with
    | none => d.noRoute 0
    | some l =>
      (cutPieces 512 (bs.length / 32 + 4) a bs.length).foldl (fun (d : Dev) pc =>
        let k := d.link l
        let off := pc.1 - a
        let lead := pc.1 % 32
        let body := padUnits 0 (List.replicate lead 0 ++ (bs.drop off).take pc.2)
        let pois := padUnits false (List.replicate lead false ++ (List.range pc.2).map (fun i => ps.getD (off + i) false))
        let msk := padUnits false (List.replicate lead false ++ (List.range pc.2).map (fun i => mask.getD (off + i) true))
        let p := { packet 0x11 false part holder d.fab.addr.toNat (pc.1 - lead) (k.tag l) with
          path := psid != 0, pathid := BitVec.ofNat 16 psid, payload := byteList body
          poisonBits := if pois.any id then pois else [], maskBits := if msk.all id then [] else msk }
        (d.modLink l (·.await { tag := k.tag l, typ := 0x11, addr := pc.1, len := pc.2, half := false, src := q.src,
                                flight := some owner })).sendOn l p) d

/-- The offset in a peer window at which a peer device address appears (R35). -/
def peerOff (a : Nat) : Option Nat :=
  if 0x10000000000 ≤ a ∧ a < 0x28000000000 then some (a - 0x10000000000)
  else if 0x1000000000 ≤ a ∧ a < 0x2000000000 then some (0x18000000000 + (a - 0x1000000000))
  else if 0x100000000 ≤ a ∧ a < 0x140000000 then some (0x19000000000 + (a - 0x100000000))
  else if 0x140000000 ≤ a ∧ a < 0x180000000 then some (0x19040000000 + (a - 0x140000000))
  else none

/-- The address in the peer window of link `l` at which a peer device address appears. -/
def peerWindow (l a : Nat) : Nat := 0x4000000000000 + l * 0x20000000000 + (peerOff a).getD 0x1FFFFFFF000

/-- Ask the holder behind link `l` for `n` bytes at `a` with RD packets (R377, R379). -/
def Dev.holderAsk (q : Req) (owner : Nat × Nat) (l holder a n : Nat) (d : Dev) : Dev :=
  (cutPieces 1024 (n / 32 + 4) a n).foldl (fun (d : Dev) pc =>
    let k := d.link l
    let lo := pc.1 / 32 * 32
    let units := (pc.1 + pc.2 + 31 - lo) / 32
    let p := packet 0x10 false (q.part.getD 0) holder d.fab.addr.toNat (lo + (units - 1) * 2 ^ 52) (k.tag l)
    (d.modLink l (·.await { tag := k.tag l, typ := 0x10, addr := peerWindow l lo, len := 32 * units, half := false, src := q.src,
                            flight := some owner })).sendOn l p) d

/-! ### Waybill tables (R403 to R405) -/

/-- The hash engine of pier `p` working for partition `q`. -/
def hashReq (p q : Nat) (occ : Option OccKey) : Req := { src := pierSrc 0x0B p, part := some q, func := none, occ := occ }

def wtShards (w : List Nat) : Nat := bytesAt w 2 2
def wtToken (w : List Nat) : Nat := bytesAt w 6 1 % 64
def wtBuddy (w : List Nat) : Nat := bytesAt w 8 2 % 4096
def wtShardId (w : List Nat) (i : Nat) : Nat := bytesAt w (64 + 32 * i) 4
def wtHeader (w : List Nat) (i : Nat) : Nat := bytesAt w (72 + 32 * i) 8
def wtOffset (w : List Nat) (i : Nat) : Nat := bytesAt w (80 + 32 * i) 8

/-- The slot that a drain at STEP `k` writes, at the holder (R408). -/
def wtSlot (w : List Nat) (k : Nat) : Nat := bytesAt w 16 8 + k % 2 * bytesAt w 24 8

/-- Granules of the line of a shard whose header is given (R276). -/
def headerGranules (h : List Nat) : Nat := lineGranules (bytesAt h 2 1) (bytesAt h 4 4) (bytesAt h 16 4) (bytesAt h 20 4)

/-- Whether the header of a waybill table keeps R404: version, counts, alignment, zeros. -/
def tableHeadBad (w : List Nat) : Bool :=
  bytesAt w 0 2 != 0x0100 || wtShards w == 0 || decide (1024 < wtShards w) || decide (0x4000 ≤ bytesAt w 4 2) ||
  decide (64 ≤ bytesAt w 6 1) || bytesAt w 7 1 != 0 || decide (0x1000 ≤ bytesAt w 8 2) ||
  fld (bytesAt w 10 2) 12 3 != 0 || bytesAt w 12 4 != 0 || decide (2 ^ 52 ≤ bytesAt w 16 8) || bytesAt w 16 8 % 256 != 0 ||
  bytesAt w 24 8 % 256 != 0 || decide (2 ^ 52 ≤ bytesAt w 40 8) || decide (2 ^ 52 ≤ bytesAt w 48 8) || bytesAt w 56 8 != 0

/-- Whether entry `i` of a table breaks R404 or R405; `size` is G_L of each shard. -/
def tableEntryBad (w : List Nat) (size : List Nat) (i : Nat) : Bool :=
  let bytes (j : Nat) : Nat := 256 * (1 + 2 * size.getD j 0)
  bytesAt w (68 + 32 * i) 4 != 0 || bytesAt w (88 + 32 * i) 8 != 0 || decide (2 ^ 52 ≤ wtHeader w i) || wtOffset w i % 256 != 0 ||
  (upTo i).any (fun j => wtShardId w j == wtShardId w i) ||
  (if i = 0 then decide (wtOffset w 0 < 1536 + 128 * wtShards w) else decide (wtOffset w i < wtOffset w (i - 1) + bytes (i - 1))) ||
  decide (bytesAt w 24 8 < wtOffset w i + bytes i)

/-- A WAYBILL_INCONSISTENT record of partition `q` (R429). -/
def waybillRecord (p cause addr step : Nat) (index : Option Nat) (expect : Nat) : EvRec :=
  { record 0x11 (pierSrc 0x0B p) with
    addr := BitVec.ofNat 52 addr, count := w64 step
    detail := detail [(48, 1, cause), (49, 2, index.getD 0xFFFF), (52, 8, expect)] }

/-- The completion token of a drain sets in every bay of its entry's mask, in one cycle (R406). -/
def Dev.drainToken (te : TEntry) (c : Nat) (d : Dev) : Dev := te.bays.foldl (fun (d : Dev) b => d.modBay b (fun y => y.setToken c)) d

/-! ### Waybill headers and manifests (R409 to R411) -/

/-- The SHA-512 of this device's modulus, zeros when the identity is absent (R409, R456). -/
def Dev.keyId (d : Dev) : List Nat := if d.box.idState = 2 then List.replicate 64 0 else sha512 (toBytesBE 512 d.bond.keyN)

/-- The first 512 bytes of a waybill header, and 512 more for its signature (R409). `digests` are MANDIG, DPOSDIG and
SEEDDIG. -/
def Dev.wbHeader (d : Dev) (p : Nat) (x : Drain) (flags ltime : Nat) (digests : List Nat) : List Nat :=
  let w := x.table
  let me := d.fab.addr.toNat
  let src := if bit (bytesAt w 10 2) 15 then bytesAt w 10 2 % 4096 else me
  let key := if digests = [] then List.replicate 256 0 else digests ++ d.keyId
  toBytes 2 0x0100 ++ [flags, 0] ++ toBytes 2 src ++ toBytes 2 me ++ toBytes 8 x.step ++ toBytes 8 (bytesAt w 32 8) ++
  toBytes 2 (wtShards w) ++ [p, x.occ.part] ++ [0, 0, 0, 0] ++ toBytes 8 ltime ++ key ++ List.replicate 728 0

/-- The manifest of a drain (R410). -/
def Drain.manifest (x : Drain) : List Nat :=
  (upTo (wtShards x.table)).flatMap (fun i =>
    let l := x.lines.getD i (0, 0, 0)
    toBytes 4 (wtShardId x.table i) ++ [l.1, 0, 0, 0] ++ toBytes 8 l.2.1 ++ toBytes 8 (wtOffset x.table i) ++
    toBytes 8 (256 * (1 + x.sizes.getD i 0)) ++ x.digests.getD i [] ++ List.replicate 32 0)

/-- The digest of an image: SHA-512 over the SHA-512 digests of its 1 MiB pieces (R411). -/
def imageDigest (bs : List Nat) : List Nat :=
  sha512 ((chunksOf (bs.length / 0x100000 + 1) 0x100000 bs).flatMap (fun c => if c.isEmpty then [] else sha512 c))

/-! ### Drains (R406 to R416) -/

def drainOwner (p q : Nat) : Nat × Nat := (64 + p, q)

/-- A drain as a requester: what it asks for follows from what it has read. -/
def Drain.req (x : Drain) (p : Nat) : Req :=
  { hashReq p x.occ.part (some x.occ) with flight := some (drainOwner p x.occ.part), await := x.await, serial := true }

/-- Write at the slot of a drain. -/
def Dev.drainWrite (t : TimeUnit) (p : Nat) (x : Drain) (off : Nat) (bs : List Nat) (ps : List Bool) (d : Dev) : Dev :=
  d.holderWrite t (x.req p) (drainOwner p x.occ.part) x.psid (wtBuddy x.table) (wtSlot x.table x.step + off) bs ps []

/-- Keep what has become of a drain. -/
def Dev.putDrain (p : Nat) (x : Drain) (d : Dev) : Dev :=
  d.modPier p (fun k => { k with drains := k.drains.map (fun y => if y.occ = x.occ then x else y) })

/-- Keep a drain that goes on in a phase with nothing waited for. -/
def Dev.drainTo (p phase : Nat) (x : Drain) (d : Dev) : Dev := d.putDrain p { x with phase := phase, await := Await.none }

/-- A drain is over: it leaves the engine, and its token sets (R406). -/
def Dev.endDrain (p : Nat) (x : Drain) (f : Pier → Pier) (d : Dev) : Dev :=
  (d.modPier p (fun k => f { k with drains := k.drains.filter (fun y => y.occ != x.occ) })).drainToken x.te (wtToken x.table)

/-- Void a drain: its header, its record, the count and the token (R413). -/
def Dev.voidDrain (t : TimeUnit) (p : Nat) (x : Drain) (cause : Nat) (index : Option Nat) (expect : Nat) (d : Dev) : Dev :=
  let addr := wtSlot x.table x.step + (match index with | some i => 1024 + 128 * i | none => 0)
  let d1 := d.drainWrite t p x 0 (d.wbHeader p x 4 0 []) []
  (d1.emit t (some x.occ.part) (waybillRecord p cause addr x.step index expect)).endDrain p x (fun k => { k with wbCnt := k.wbCnt.addHi 1 })

/-- A poisoned byte read for a drain bites, and the drain is void (R353, R354, R415). -/
def Dev.biteDrain (t : TimeUnit) (p : Nat) (x : Drain) (i addr bytes : Nat) (d : Dev) : Dev :=
  (d.emit t (some x.occ.part) (biteRecord (pierSrc 0x0B p) 3 addr bytes 0 x.te.mb)).voidDrain t p x 0x0C (some i) 0

/-- Read for shard `i` of a drain and go on with the bytes, unless a poisoned one bites or an answer has not come (R413, R415). -/
def Dev.drainRead (t : TimeUnit) (p : Nat) (x : Drain) (i a n : Nat) (k : List Nat → Dev → Dev) (d : Dev) : Dev :=
  let (r, d1) := d.updRead t (x.req p) a n
  if !d1.stall.isEmpty then d1
  else
    match r with
    | .error (.bite b m) => d1.biteDrain t p x i b m
    | .error _ => d1
    | .ok bs => k bs d1

/-- Copy shard `i`: its header and Up line are read, checked, hashed and sent (R413, R415). -/
def Dev.drainCopy (t : TimeUnit) (p i : Nat) (x : Drain) (d : Dev) : Dev :=
  d.drainRead t p x i (wtHeader x.table i) 256 (fun h d =>
    d.drainRead t p x i (bytesAt h 32 8) 8 (fun s0 d =>
      d.drainRead t p x i (bytesAt h 40 8) 8 (fun s1 d =>
        let l0 := ofBytes s0
        let l1 := ofBytes s1
        let u := if l0 = noneStep then 1 else if l1 = noneStep then 0 else if l0 < l1 then 1 else 0
        let lstep := if u = 0 then l0 else l1
        let line := if u = 0 then bytesAt h 32 8 else bytesAt h 40 8
        let lazy' := bit (bytesAt h 2 1) 2
        if lstep = noneStep ∨ (!lazy' ∧ lstep ≠ x.step) ∨ (lazy' ∧ x.step < lstep) then d.voidDrain t p x 0x0A (some i) x.step
        else
          let g := headerGranules h
          d.drainRead t p x i line (256 * g) (fun bs d =>
            let image := h ++ bs
            (d.drainWrite t p x (wtOffset x.table i) image []).drainTo p 3
              { x with lines := x.lines ++ [(u, lstep, line)], sizes := x.sizes ++ [g], digests := x.digests ++ [imageDigest image] }))))

/-- Read the LSTEP of the shard copied last again, now that every read of its line has returned: when it has changed the drain is void
(R413). -/
def Dev.drainReread (t : TimeUnit) (p : Nat) (x : Drain) (d : Dev) : Dev :=
  let i := x.lines.length - 1
  let l := x.lines.getD i (0, 0, 0)
  d.drainRead t p x i l.2.2 8 (fun s d => if ofBytes s ≠ l.2.1 then d.voidDrain t p x 0x0A (some i) l.2.1 else d.drainTo p 2 x)

/-- Copy the data-position and the seed record, which are read once and hashed (R413). -/
def Dev.drainRecords (t : TimeUnit) (p : Nat) (x : Drain) (d : Dev) : Dev :=
  let n := wtShards x.table
  let (r1, d1) := d.fetch t (x.req p) (bytesAt x.table 40 8) 256
  let (r2, d2) := d1.fetch t (x.req p) (bytesAt x.table 48 8) 256
  ((d2.drainWrite t p x (1024 + 128 * n) (natBytes r1.1) r1.2).drainWrite t p x (1280 + 128 * n) (natBytes r2.1) r2.2).drainTo p 2
    { x with dpos := natBytes r1.1, seeds := natBytes r2.1 }

/-- MANDIG, DPOSDIG and SEEDDIG of a drain (R409). -/
def Drain.sums (x : Drain) : List Nat := sha512 x.manifest ++ sha512 x.dpos ++ sha512 x.seeds

/-- What a drain does next (R413). -/
def Dev.drainStep (t : TimeUnit) (p : Nat) (x : Drain) (d : Dev) : Dev :=
  match x.phase with
  | 0 => (d.drainWrite t p x 0 (d.wbHeader p x 0 0 []) []).drainTo p 1 x
  | 1 => d.drainRecords t p x
  | 2 =>
    if x.lines.length < wtShards x.table then d.drainCopy t p x.lines.length x
    else (d.drainWrite t p x 1024 x.manifest []).drainTo p 4 x
  | 3 => d.drainReread t p x
  | _ => (d.drainWrite t p x 0 (d.wbHeader p x 1 t.now x.sums) []).drainTo p 5 { x with ltime := t.now }

/-- Whether a drain waits: for its WACKs where the pseudocode waits for them, else for the answers of its reads (R381, R413). -/
def Dev.drainWaits (p : Nat) (x : Drain) (d : Dev) : Bool :=
  if x.phase = 2 ∨ x.phase = 3 then d.awaitsRead (64 + p) x.occ.part else d.awaits (64 + p) x.occ.part

/-- Carry the running drain of partition `q` on pier `p` on as far as it goes; drains stop at a HOLD pause slot (R407, R413). -/
def Dev.drainRun (t : TimeUnit) (p q : Nat) : Nat → Dev → Dev
  | 0, d => d
  | fuel + 1, d =>
    match (d.pier p).drains.find? (fun x => x.running && x.occ.part == q) with
    | none => d
    | some x =>
      if d.hold.paused ∨ 5 ≤ x.phase ∨ d.drainWaits p x then d
      else
        match d.attempt t x.await (fun w d => d.drainStep t p { x with await := w }) with
        | (none, d1) => d1.drainRun t p q fuel
        | (some (w, _), d1) => d1.putDrain p { x with await := w }

/-- How many steps a drain may take. -/
def Dev.drainFuel (p : Nat) (d : Dev) : Nat := (((d.pier p).drains.map (fun x => wtShards x.table)).foldl max 0) * 2 + 8

/-- Whether a drain of partition `q` runs on any pier (R407). -/
def Dev.draining (d : Dev) (q : Nat) : Bool :=
  (List.range 4).any (fun p => (d.pier p).drains.any (fun x => x.running && x.occ.part == q))

/-- A captured drain begins, unless the partition's previous one still runs (R407). -/
def Dev.drainBegin (t : TimeUnit) (p : Nat) (x : Drain) (d : Dev) : Dev :=
  let q := x.occ.part
  if d.draining q ∨ x.table.isEmpty ∨ d.hold.paused then d
  else let d1 := d.putDrain p { x with running := true }; d1.drainRun t p q (d1.drainFuel p)

/-- Capture the waybill table that an occurrence's departure names: a table of another entry starts nothing, one that breaks R404 or
R405 starts no drain and sets the token (R403). -/
def Dev.drainCapture (t : TimeUnit) (p : Nat) (x : Drain) (d : Dev) : Dev :=
  let q := x.occ.part
  let a := x.addr
  let drop (d : Dev) : Dev := d.modPier p (fun k => { k with drains := k.drains.filter (fun y => y.occ != x.occ) })
  let (h, d1) := d.fetch t (x.req p) a 64
  let head := natBytes h.1
  let refuse (i : Option Nat) (w : List Nat) (d : Dev) : Dev :=
    (d.emit t (some q) (waybillRecord p 0x0D (match i with | some i => a + 64 + 32 * i | none => a) x.step i 0)).endDrain p
      { x with table := w } id
  if !d1.stall.isEmpty then d1
  else if bytesAt head 4 2 % 0x4000 ≠ x.occ.entry then drop d1
  else if tableHeadBad head ∨ h.2.any id then refuse none head d1
  else
    let n := wtShards head
    let (r, d2) := d1.fetch t (x.req p) (a + 64) (32 * n)
    let w := head ++ natBytes r.1
    if !d2.stall.isEmpty then d2
    else if r.2.any id then refuse none w d2
    else
      let (sizes, d3) := (upTo n).foldl (fun (acc : List Nat × Dev) i =>
        let (x, e) := acc.2.fetch t (x.req p) (wtHeader w i) 256
        (acc.1 ++ [headerGranules (natBytes x.1)], e)) ([], d2)
      if !d3.stall.isEmpty then d3
      else
        match (upTo n).find? (tableEntryBad w sizes) with
        | some i => refuse (some i) w d3
        | none => d3.putDrain p { x with table := w, await := Await.none }

/-- Try to capture the table of a drain, and begin it (R403, R407). -/
def Dev.drainOrder (t : TimeUnit) (p : Nat) (x : Drain) (d : Dev) : Dev :=
  if d.hold.paused ∨ d.awaitsRead (64 + p) x.occ.part then d
  else
    match d.attempt t x.await (fun w d => d.drainCapture t p { x with await := w }) with
    | (none, d1) => match (d1.pier p).drains.find? (fun y => y.occ == x.occ) with
      | some y => d1.drainBegin t p y
      | none => d1
    | (some (w, _), d1) => d1.putDrain p { x with await := w }

/-- The drain that an occurrence's departure orders, if UPD_WBq of its pier names a table for its entry (R403, R405). -/
def Dev.drainDepart (t : TimeUnit) (o : Occ) (d : Dev) : Dev :=
  let q := o.key.part
  let p := o.te.quarter / 4
  let k := d.pier p
  if !k.present ∨ !vget false k.wbEn q ∨ !o.open then d
  else
    let x : Drain := { occ := o.key, te := o.te, addr := (vget 0 k.wbTable q).toNat * 256, table := [], step := d.step.toNat
                       psid := match o.paths with | some ps => ps.id | none => 0, running := false, phase := 0, lines := [], sizes := []
                       digests := [], dpos := [], seeds := [], ltime := 0, await := Await.none }
    (d.modPier p (fun k => { k with drains := k.drains ++ [x] })).drainOrder t p x

/-- OCCURRENCE_DEPARTURE_SLOT: the departure slot of an occurrence, and the drain that it may order (R77, R88, R113, R403). -/
def departure (q e k : Nat) (t : TimeUnit) (d : Dev) : Dev :=
  let d1 := departureSlot q e k t d
  match d.ttFor q e k with
  | none => d1
  | some (tt, _) =>
    let key : OccKey := { part := q, gen := tt.gen, entry := e, k := k }
    let before : Bool := match d.occ key with | some o => o.reached | none => false
    match d1.occ key with
    | some o => if o.reached ∧ !before ∧ o.open then d1.drainDepart t o else d1
    | none => d1

/-- DRAIN_QUEUED_START: the drain that waited for partition `q`'s previous one begins (R407). -/
def drainQueued (p q : Nat) (t : TimeUnit) (d : Dev) : Dev :=
  match (d.pier p).drains.find? (fun x => x.occ.part == q && !x.running && !x.table.isEmpty) with
  | some x => d.drainBegin t p x
  | none => d

/-- Every drain goes on, as far as it can. -/
def Dev.drainsOn (t : TimeUnit) (d : Dev) : Dev :=
  (upTo 4).foldl (fun (d : Dev) p => (d.pier p).drains.foldl (fun (d : Dev) x =>
    if x.running then d.drainRun t p x.occ.part (d.drainFuel p) else if x.table.isEmpty then d.drainOrder t p x else d) d) d

/-- DRAIN_COMPLETE of partition `q`'s drain on pier `p`: once its last header has been accepted, the token sets and the signature is
queued; in a HOLD tokens are frozen (R62, R409, R413, R414). -/
def drainComplete (p q : Nat) (t : TimeUnit) (d0 : Dev) : Dev :=
  let d := d0.drainRun t p q (d0.drainFuel p)
  match (d.pier p).drains.find? (fun x => x.running && x.occ.part == q) with
  | none => d
  | some x =>
    if x.phase < 5 ∨ d.hold.paused ∨ d.awaits (64 + p) q then d
    else
      let job := SignJob.waybill p q (wtBuddy x.table) (wtSlot x.table x.step) ((d.wbHeader p x 1 x.ltime x.sums).take 512) none
      let d1 := d.endDrain p x (fun k => { k with wbCnt := k.wbCnt.addLo 1 })
      if d1.box.idState = 2 then d1 else { d1 with bond := { d1.bond with signer := d1.bond.signer ++ [job] } }

/-! ### Signatures (R412, R414) -/

/-- Write for the signer at a holder: here as a request of the signal box, which may have to wait, else by its route. -/
def Dev.signerWrite (t : TimeUnit) (owner q holder a : Nat) (bs : List Nat) (d : Dev) : Dev :=
  if holder = d.fab.addr.toNat then d.request t (.mem (.write a (byteList bs) [] [] boxReq.src (some q)))
  else d.holderWrite t { boxReq with part := some q } (72, owner) 0 holder a bs [] []

/-- Whether a write of the signal box waits for its memory. -/
def Dev.signerPosts (d : Dev) : Bool :=
  d.held.any (fun h => match h.work with | .mem (.write _ _ _ _ s _) => s == boxReq.src | _ => false)

/-- The front job's writes have landed: SIGNED of a waybill whose WB_SIG was accepted is set, a quote's STATE becomes 2, and the signer
goes on (R414, R465). -/
def Dev.signerOn (t : TimeUnit) (d : Dev) : Dev :=
  match d.bond.signer with
  | .waybill _ q holder slot _ (some ok) :: rest =>
    if d.awaits 72 0 ∨ d.signerPosts then d
    else
      let d1 := if ok then d.signerWrite t 1 q holder (slot + 2) [3] else d
      { d1 with bond := { d1.bond with signer := rest } }
  | .quote _ _ (some id) :: rest =>
    if d.awaits 79 id ∨ d.held.any (fun h => h.id == id) then d
    else { d.modBox (fun x => { x with quoteState := 2 }) with bond := { d.bond with signer := rest } }
  | _ => d

/-- A WACK for the signer's WB_SIG has come; one that refuses it leaves the waybill unsigned (R380, R414). -/
def Dev.signerAnswer (owner : Option (Nat × Nat)) (refused : Bool) (d : Dev) : Dev :=
  if owner ≠ some (72, 0) ∨ !refused then d
  else
    match d.bond.signer with
    | .waybill p q holder slot header (some _) :: rest =>
      { d with bond := { d.bond with signer := .waybill p q holder slot header (some false) :: rest } }
    | _ => d

/-- WAYBILL_SIGNED: the signer's front job is a waybill; its signature is written at the holder, and once that is accepted
SIGNED is set (R412, R414). -/
def waybillSigned (t : TimeUnit) (d : Dev) : Dev :=
  match d.bond.signer with
  | .waybill p q holder slot header none :: rest =>
    let sig := rsaSign d.bond.keyN d.bond.keyD (header.set 2 1)
    let d1 := d.signerWrite t 0 q holder (slot + 512) sig
    ({ d1 with bond := { d1.bond with signer := .waybill p q holder slot header (some (d.reachesHolder holder)) :: rest } } : Dev).signerOn t
  | _ => d.signerOn t

/-! ### Restores (R425 to R428) -/

def restoreOwner (p q : Nat) : Nat × Nat := (68 + p, q)

def rsShards (o : List Nat) : Nat := bytesAt o 2 2
def rsHolder (o : List Nat) : Nat := bytesAt o 4 2 % 4096
def rsSlot (o : List Nat) : Nat := bytesAt o 8 8 % 2 ^ 52

/-- A restore as a requester: what it asks for follows from what it has read. -/
def Restore.req (x : Restore) (p : Nat) : Req :=
  { hashReq p x.part none with flight := some (restoreOwner p x.part), await := x.await, serial := true }

/-- Keep what has become of a restore. -/
def Dev.putRestore (p : Nat) (x : Restore) (d : Dev) : Dev :=
  d.modPier p (fun k => { k with restores := k.restores.map (fun y => if y.part = x.part then x else y) })

/-- Write at a local address for a restore, inside the partition's windows only (R426, R436). -/
def Dev.restorePut (t : TimeUnit) (p : Nat) (x : Restore) (a : Nat) (bs : List Nat) (ps : List Bool) (d : Dev) : Dev :=
  if (d.part x.part).inside true a bs.length then d.store t (x.req p) a (byteList bs) ps [] else d

/-- Bytes of the waybill's slot: read locally when the holder is this device, else as its answers have brought them. -/
def Dev.slotRead (t : TimeUnit) (p : Nat) (x : Restore) (off n : Nat) (d : Dev) : (List Nat × List Bool) × Dev :=
  let a := rsSlot x.order + off
  if rsHolder x.order = d.fab.addr.toNat then
    let (r, d1) := d.fetch t (x.req p) a n
    ((natBytes r.1, r.2), d1)
  else
    match x.link with
    | some l =>
      let r := d.mem.bytes (peerWindow l a) n
      ((natBytes r.1, r.2), d)
    | none => ((List.replicate n 0, List.replicate n false), d)

/-- Ask a remote holder for a part of the slot (R425). -/
def Dev.slotAsk (p : Nat) (x : Restore) (off n : Nat) (d : Dev) : Dev :=
  if rsHolder x.order = d.fab.addr.toNat then d
  else
    match x.link with
    | some l => d.holderAsk (x.req p) (restoreOwner p x.part) l (rsHolder x.order) (rsSlot x.order + off) n
    | none => d

/-- NONE into both line headers of the shard whose header is at `a` (R427). -/
def Dev.noneLines (t : TimeUnit) (p : Nat) (x : Restore) (a : Nat) (d : Dev) : Dev :=
  let (r, d1) := d.fetch t (x.req p) a 256
  let h := natBytes r.1
  if !d1.stall.isEmpty then d1
  else (d1.restorePut t p x (bytesAt h 32 8) (toBytes 8 noneStep) []).restorePut t p x (bytesAt h 40 8) (toBytes 8 noneStep) []

/-- A restore starts: its order and map are captured, NONE is written into every mapped shard, and the head of the slot is
asked for (R425, R427). -/
def Dev.restoreStart (t : TimeUnit) (p : Nat) (x : Restore) (d : Dev) : Dev :=
  let (o, d1) := d.fetch t (x.req p) ((vget 0 (d.pier p).rstOrder x.part).toNat * 256) 256
  let order := natBytes o.1
  let n := rsShards order
  if !d1.stall.isEmpty then d1
  else
    let (m, d2) := d1.fetch t (x.req p) (bytesAt order 40 8 % 2 ^ 52) (16 * n)
    let mb := natBytes m.1
    let map := (upTo n).map (fun i => (bytesAt mb (16 * i) 4, bytesAt mb (16 * i + 8) 8 % 2 ^ 52))
    if !d2.stall.isEmpty then d2
    else
      let d3 := map.foldl (fun (d : Dev) e => d.noneLines t p x e.2) d2
      let x1 := { x with phase := 1, order := order, map := map, await := Await.none
                         link := if d3.fab.valid then d3.routeTo (rsHolder order) else none }
      if !d3.stall.isEmpty then d3 else (d3.putRestore p x1).slotAsk p x1 0 (1536 + 128 * n)

/-- Take a restore off the engine with a STATE and a CAUSE. -/
def Dev.restoreEnd (p q state cause : Nat) (d : Dev) : Dev :=
  d.modPier p (fun k =>
    { k with restores := k.restores.filter (fun y => y.part != q), rstState := vmod k.rstState q (fun _ => BitVec.ofNat 2 state)
             rstCause := if state = 3 then vmod k.rstCause q (fun _ => BitVec.ofNat 8 cause) else k.rstCause })

/-- Refuse a restore (R427, R429). -/
def Dev.restoreRefuse (t : TimeUnit) (p : Nat) (x : Restore) (cause step : Nat) (index : Option Nat) (expect : Nat) (d : Dev) : Dev :=
  let addr := rsSlot x.order + (match index with | some i => 1024 + 128 * i | none => 0)
  (d.emit t (some x.part) (waybillRecord p cause addr step index expect)).restoreEnd p x.part 3 cause

/-- Checks 1 to 8, on the head of the slot (R427): the cause and the expected step of the first that fails. -/
def headFault (x : Restore) (head modulus : List Nat) : Option (Nat × Nat) :=
  let n := rsShards x.order
  let flags := bytesAt head 2 1
  let step := bytesAt head 8 8
  let job := bytesAt head 16 8
  let man := (head.drop 1024).take (128 * n)
  let dpos := (head.drop (1024 + 128 * n)).take 256
  let seeds := (head.drop (1280 + 128 * n)).take 256
  let part (k : Nat) : List Nat := (head.drop k).take 64
  if fld flags 0 3 ≠ 3 then some (0x01, 0)
  else if bytesAt head 0 2 ≠ 0x0100 ∨ n ≠ bytesAt head 24 2 then some (0x02, 0)
  else if sha512 modulus ≠ part 232 ∨ !rsaVerify (ofBytesBE modulus) ((head.take 512).set 2 1) ((head.drop 512).take 512) then some (0x03, 0)
  else if job ≠ bytesAt x.order 24 8 then some (0x04, 0)
  else if step ≠ bytesAt x.order 16 8 then some (0x05, bytesAt x.order 16 8)
  else if sha512 man ≠ part 40 ∨ sha512 dpos ≠ part 104 ∨ sha512 seeds ≠ part 168 then some (0x06, 0)
  else if bytesAt dpos 0 8 ≠ step ∨ bytesAt dpos 8 8 ≠ job then some (0x07, step)
  else if bytesAt seeds 0 8 ≠ step ∨ bytesAt seeds 8 8 ≠ job then some (0x08, step)
  else none

/-- What a restore knows of one shard: its manifest entry, its image, its local header. -/
structure RestoreShard where
  id : Nat
  line : Nat
  lstep : Nat
  digest : List Nat
  image : List Nat
  poison : List Bool
  header : Option (List Nat)

/-- The address of a shard's local line `u` (R275). -/
def localLine (h : List Nat) (u : Nat) : Nat := bytesAt h (32 + 8 * u) 8 % 2 ^ 52

/-- Checks 9 to 11 over all shards (R427): cause, index and expected step of the first that fails. -/
def shapeFault (d : Dev) (q step : Nat) (x : Restore) (ss : List RestoreShard) : Option (Nat × Option Nat × Nat) :=
  let at' (p : RestoreShard → Bool) : Option Nat := ss.findIdx? p
  let shape (s : RestoreShard) : Bool := match s.header with
    | none => true
    | some h => [(0, 2), (2, 1), (4, 4), (8, 8), (16, 4), (20, 4)].any (fun f => bytesAt h f.1 f.2 != bytesAt s.image f.1 f.2)
  let line (s : RestoreShard) : Bool :=
    if bit (bytesAt s.image 2 1) 2 then decide (step < s.lstep) else s.lstep != step
  let scope (s : RestoreShard) : Bool := match s.header with
    | none => true
    | some h => [0, 1].any (fun u => !(d.part q).inside true (localLine h u) (256 * headerGranules h))
  match at' shape with
  | some i => some (0x09, some i, 0)
  | none => match at' line with
    | some i => some (0x0A, some i, step)
    | none => match at' scope with
      | some i => some (0x0B, some i, 0)
      | none => if !(d.part q).inside true (bytesAt x.order 48 8 % 2 ^ 52) 512 then some (0x0B, none, 0) else none

/-- Copy the shards' line bodies in order, with checks 12 and 13 (R427, R428). -/
def Dev.copyShards (t : TimeUnit) (p : Nat) (x : Restore) : List (Nat × RestoreShard) → Dev → Option (Nat × Nat) × Dev
  | [], d => (none, d)
  | (i, s) :: rest, d =>
    let h := s.header.getD []
    let body := s.image.drop 512
    let pois := s.poison.drop 512
    let d1 := d.restorePut t p x (localLine h s.line + 256) body pois
    let d2 := if bit (bytesAt h 2 1) 2 then d1.restorePut t p x (localLine h (1 - s.line) + 256) body pois else d1
    if imageDigest s.image ≠ s.digest then (some (i, 0x06), d2)
    else if s.poison.any id then (some (i, 0x0C), d2)
    else d2.copyShards t p x rest

/-- Entry `i` of the manifest in the head of a slot (R410). -/
def manifestEntry (head : List Nat) (i : Nat) : List Nat := (head.drop (1024 + 128 * i)).take 128

/-- The head of the slot has come: checks 1 to 8, then the images are asked for (R427). -/
def Dev.restoreHead (t : TimeUnit) (p : Nat) (x : Restore) (d : Dev) : Dev :=
  let n := rsShards x.order
  let ((head, _), d1) := d.slotRead t p x 0 (1536 + 128 * n)
  let (key, d2) := d1.fetch t (x.req p) (bytesAt x.order 32 8 % 2 ^ 52) 512
  if !d2.stall.isEmpty then d2
  else
    match headFault x head (natBytes key.1) with
    | some (cause, expect) => d2.restoreRefuse t p x cause (bytesAt head 8 8) none expect
    | none =>
      let x1 := { x with phase := 2, await := Await.none }
      (upTo n).foldl (fun (d : Dev) i => d.slotAsk p x1 (bytesAt (manifestEntry head i) 16 8) (bytesAt (manifestEntry head i) 24 8))
        (d2.putRestore p x1)

/-- The images have come: they are checked and copied, and the lines and records written (R427, R428). -/
def Dev.restoreImages (t : TimeUnit) (p : Nat) (x : Restore) (d : Dev) : Dev :=
  let q := x.part
  let n := rsShards x.order
  let ((head, _), d1) := d.slotRead t p x 0 (1536 + 128 * n)
  let step := bytesAt head 8 8
  let (ss, d2) := (upTo n).foldl (fun (acc : List RestoreShard × Dev) i =>
    let m := manifestEntry head i
    let ((im, ps), e1) := acc.2.slotRead t p x (bytesAt m 16 8) (bytesAt m 24 8)
    let id' := bytesAt m 0 4
    let (hdr, e2) := match x.map.find? (fun y => y.1 = id') with
      | some y => let (r, e) := e1.fetch t (x.req p) y.2 256; (some (natBytes r.1), e)
      | none => (none, e1)
    (acc.1 ++ [{ id := id', line := bytesAt m 4 1 % 2, lstep := bytesAt m 8 8, digest := (m.drop 32).take 64, image := im,
                 poison := ps, header := hdr }], e2)) ([], d1)
  if !d2.stall.isEmpty then d2
  else
    match shapeFault d2 q step x ss with
    | some (cause, index, expect) => d2.restoreRefuse t p x cause step index expect
    | none =>
      match d2.copyShards t p x ((upTo n).zip ss) with
      | (some (i, cause), d3) => d3.restoreRefuse t p x cause step (some i) 0
      | (none, d3) =>
        let d4 := ss.foldl (fun (d : Dev) s =>
          let h := s.header.getD []
          (d.restorePut t p x (localLine h s.line) ((s.image.drop 256).take 12) []).restorePut t p x (localLine h (1 - s.line))
            (toBytes 8 noneStep) []) d3
        (d4.restorePut t p x (bytesAt x.order 48 8 % 2 ^ 52) ((head.drop (1024 + 128 * n)).take 512) []).restoreEnd p q 2 0

/-- What a restore does next (R427, R428). -/
def Dev.restoreStep (t : TimeUnit) (p : Nat) (x : Restore) (d : Dev) : Dev :=
  match x.phase with
  | 0 => d.restoreStart t p x
  | 1 => d.restoreHead t p x
  | _ => d.restoreImages t p x

/-- Carry partition `q`'s restore on pier `p` on while none of its reads is outstanding, up to phase `last`. -/
def Dev.restoreRun (t : TimeUnit) (p q last : Nat) : Nat → Dev → Dev
  | 0, d => d
  | fuel + 1, d =>
    match (d.pier p).restores.find? (fun y => y.part == q) with
    | none => d
    | some x =>
      if last < x.phase ∨ d.awaitsRead (68 + p) q then d
      else
        match d.attempt t x.await (fun w d => d.restoreStep t p { x with await := w }) with
        | (none, d1) => d1.restoreRun t p q last fuel
        | (some (w, _), d1) => d1.putRestore p { x with await := w }

/-- A write of GO starts a restore (R426, R427). -/
def Dev.restoreGo (t : TimeUnit) (p q : Nat) (d : Dev) : Dev :=
  (d.modPier p (fun k => { k with restores := k.restores ++
    [{ part := q, phase := 0, order := [], map := [], link := none, await := Await.none }] })).restoreRun t p q 1 2

/-- RESTORE_COMPLETE of partition `q`'s restore on pier `p`: it goes on as far as the answers that have come let it, to its end
(R427, R428). -/
def restoreComplete (p q : Nat) (t : TimeUnit) (d : Dev) : Dev :=
  if vget 0 (d.pier p).rstState q ≠ 1 then d.modPier p (fun k => { k with restores := k.restores.filter (fun y => y.part != q) })
  else (if (d.pier p).restores.any (fun y => y.part == q) then d else d.restoreGo t p q).restoreRun t p q 2 3

/-- The value of a UPD_RSTq write with GO (R430). -/
def restoreValue (order : Nat) : Nat := fld order 8 44 <<< 8 + 1 <<< 52

/-- Start every restore that a write of GO has asked for and that has not begun (R426, R427). -/
def Dev.startRestores (t : TimeUnit) (d : Dev) : Dev :=
  ((upTo 4).flatMap (fun p => (upTo 16).map (fun q => (p, q)))).foldl (fun (d : Dev) x =>
    if vget 0 (d.pier x.1).rstState x.2 = 1 ∧ !(d.pier x.1).restores.any (fun r => r.part == x.2) then d.restoreGo t x.1 x.2 else d) d

/-- Every restore goes on, as far as it can before its images. -/
def Dev.restoresOn (t : TimeUnit) (d : Dev) : Dev :=
  (upTo 4).foldl (fun (d : Dev) p => (d.pier p).restores.foldl (fun (d : Dev) x => d.restoreRun t p x.part 1 2) d) d

/-! ### What waits goes on -/

/-- Waiting jobs, drains, restores and the signer go on, as far as they can. -/
def Dev.goOn (t : TimeUnit) (d : Dev) : Dev := (((d.pump t).drainsOn t).restoresOn t).signerOn t

/-- An effect after which what waits goes on. -/
def thenGo (f : TimeUnit → Dev → Dev) (t : TimeUnit) (d : Dev) : Dev := (f t d).goOn t

/-- What follows a write of registers: the restores that it started begin, and what waited goes on. -/
def afterWrite (s : TimeUnit × Dev) : TimeUnit × Dev := (s.1, (s.2.startRestores s.1).goOn s.1)

/-- WACK: a peer write or memory-side operation has completed, and what waited for it goes on (R381, R413, R414). -/
def wackArrival (l : Nat) (p : Packet) (t : TimeUnit) (d : Dev) : Dev := (wackPacket l p Dev.signerAnswer d).goOn t

/-- RDR: read data has come, and what waited for it goes on (R371, R381). -/
def rdrArrival (l : Nat) (p : Packet) (t : TimeUnit) (d : Dev) : Dev := (rdrPacket l p d).goOn t

end Sys2Proof.Machine
end

