-- ==== Sys2Proof/Machine/Bond.lean ====
section
/-! DEFINITION. What boot publishes and stores: the bond table (R472 to R474), the measurements (R467), the repair record
(R460 to R463), the flash and its image directory (R454, R455). -/

namespace Sys2Proof.Machine

/-! ### Flash (R454, R470) -/

/-- A byte of the flash: as written in service, or else as manufactured (DESIGN CHOICE, log entry 6). -/
def Dev.flashByte (d : Dev) (o : Nat) : Nat := tabGet (Config.flashByte o).toNat d.bond.flash o

def Dev.flashBytes (d : Dev) (o n : Nat) : List Nat := (upTo n).map (fun i => d.flashByte (o + i))

/-- Put bytes into the flash from an offset upward, in place of what stood there. -/
def Dev.flashPut (o : Nat) (bs : List Nat) (d : Dev) : Dev :=
  let lo := d.bond.flash.filter (fun e => decide (e.1 < o))
  let hi := d.bond.flash.filter (fun e => decide (o + bs.length ≤ e.1))
  { d with bond := { d.bond with flash := lo ++ (bs.zipIdx).map (fun x => (o + x.2, x.1 % 256)) ++ hi } }

/-- The flash offset of a copy of the image directory. -/
def dirBase (copy : Bool) : Nat := if copy then 0x10000 else 0

/-- How many entries a directory copy has. -/
def Dev.dirCount (d : Dev) (copy : Bool) : Nat := ofBytes (d.flashBytes (dirBase copy + 2) 2)

/-- The 96 bytes of the directory entry of an image type, if the copy has one. -/
def Dev.dirEntry (d : Dev) (copy : Bool) (typ : Nat) : Option (List Nat) :=
  ((upTo (min 16 (d.dirCount copy))).map (fun i => d.flashBytes (dirBase copy + 64 + 96 * i) 96)).find? (fun e =>
    ofBytes (e.take 2) == typ)

/-- A 4-byte field of a directory entry: 4 the version, 8 the flash offset, 12 the length. -/
def dirField (e : List Nat) (o : Nat) : Nat := ofBytes ((e.drop o).take 4)

/-- Whether a directory copy names every required image, and each matches its digest but for the repair-record sectors, whose
contents change in service (R454, R455). -/
def Dev.dirSound (d : Dev) (copy : Bool) : Bool :=
  decide (1 ≤ d.dirCount copy) && decide (d.dirCount copy ≤ 16) && ofBytes (d.flashBytes (dirBase copy) 2) == 0x0100 &&
  [1, 2, 3, 4, 5, 6].all (fun typ =>
    match d.dirEntry copy typ with
    | none => false
    | some e => typ == 5 || sha512 (d.flashBytes (dirField e 8) (dirField e 12)) == (e.drop 16).take 64)

/-- The directory entry in use for an image type, zeros if there is none. -/
def Dev.image (d : Dev) (typ : Nat) : List Nat := (d.dirEntry d.box.dirCopy typ).getD (List.replicate 96 0)

/-! ### What is in service (R459, R460, R473) -/

/-- State and cause of a bay (R464): an absent pier takes its bays with it. -/
def Dev.bayCause (d : Dev) (b : Nat) : Nat := tabGet 0 d.bond.bayCause b
def Dev.pierCause (d : Dev) (p : Nat) : Nat := tabGet 0 d.bond.pierCause p

/-- Device addresses of present bays, and the cap bytes and HBM bytes in service. -/
def Dev.presentBays (d : Dev) : List Nat := (upTo 64).filter d.bayPresent

/-- `n` numbers of `k` bytes each, in slots of which the unused hold all ones (R462). -/
def slotBytes (n k : Nat) (xs : List Nat) : List Nat :=
  (upTo n).flatMap (fun i => toBytes k (match xs[i]? with | some x => x | none => 256 ^ k - 1))

/-! ### The bond table (R472, R473) -/

/-- One entry: its header and its body, padded to a multiple of 8 bytes. -/
def bondEntry (typ : Nat) (body : List Nat) : List Nat :=
  let pad := (8 - body.length % 8) % 8
  toBytes 2 typ ++ toBytes 2 0x0100 ++ toBytes 4 (8 + body.length + pad) ++ body ++ List.replicate pad 0

/-- The provisional ID (R468). -/
def Dev.pid (d : Dev) : Nat := Config.manufacturerId % 2 ^ 15 * 2 ^ 33 + 2 ^ 32 + d.bond.devid.toNat % 2 ^ 32

def Dev.deviceEntry (d : Dev) : List Nat :=
  bondEntry 0x0001 (toBytes 8 d.bond.devid.toNat ++ toBytes 6 d.pid ++ toBytes 2 Config.romRevision ++
    [1, 2, 4, 3].flatMap (fun typ => toBytes 4 (dirField (d.image typ) 4)) ++ [d.box.idState.toNat, d.box.repState.toNat])

def versionsEntry : List Nat :=
  bondEntry 0x0002 (toBytes 4 9 ++ (upTo 9).flatMap (fun i => toBytes 2 (i + 1) ++ toBytes 2 0x0100 ++ toBytes 2 0x0100 ++ [0, 0]))

def Dev.serviceEntry (d : Dev) : List Nat :=
  let n := d.presentBays.length
  let sum (f : Nat → Nat) (k : Nat) : Nat := ((upTo k).map f).foldl (· + ·) 0
  bondEntry 0x0003 (toBytes 8 d.bond.bays.toNat ++ toBytes 8 (8192 * n) ++ toBytes 2 (sum (fun s => (d.stack s).c) 12) ++
    toBytes 2 (sum (fun s => b2n (d.stack s).present * 2 ^ s) 12) ++ toBytes 4 (sum (fun l => (d.link l).lanes) 32) ++
    toBytes 8 (0x30000000 * n) ++ toBytes 8 (0x200000000 * sum (fun s => (d.stack s).c) 12))

def Dev.pierEntry (d : Dev) (p : Nat) : List Nat :=
  bondEntry 0x0010 [p, b2n (!(d.pier p).present), d.pierCause p, (d.pier p).cores.toNat]

def Dev.bayEntry (d : Dev) (b : Nat) : List Nat :=
  let g := d.integ b
  let y := d.bay b
  bondEntry 0x0011 ([b, b2n (!d.bayPresent b), d.bayCause b, 0] ++ slotBytes 2 1 g.banks ++ [0, 0] ++ toBytes 8 y.mxRepair.toNat ++
    toBytes 8 (vget 0 y.vecRepair 0).toNat ++ toBytes 8 (vget 0 y.vecRepair 1).toNat ++ toBytes 2 g.pages.length ++
    List.replicate 6 0 ++ slotBytes 16 2 g.pages)

def Dev.stackEntry (d : Dev) (s : Nat) : List Nat :=
  let k := d.stack s
  let g := d.integ (64 + s)
  bondEntry 0x0012 ([s, b2n (!k.present)] ++ toBytes 2 k.inService.toNat ++ [k.c, 224 * k.c / 16] ++ toBytes 2 g.pages.length ++
    toBytes 8 k.lanes.toNat ++ toBytes 8 (k.c * 0x200000000) ++ slotBytes 64 4 g.pages)

def Dev.linkEntry (d : Dev) (l : Nat) : List Nat :=
  let k := d.link l
  bondEntry 0x0013 ([l, fld (lnkStatusWord k) 0 2, k.lanes, fld (lnkStatusWord k) 4 4] ++ toBytes 2 k.ver.toNat ++
    toBytes 2 (k.far.toNat + b2n k.farValid * 2 ^ 15))

def Dev.portEntry (d : Dev) (v : Nat) : List Nat :=
  let k := d.portOf v
  bondEntry 0x0014 [v, k.width, k.rate, k.vfs.toNat]

/-- The records of FNREV begin at byte 16, where the next whole word lies (DEDUCED, log entry 33). -/
def Dev.fnrevEntry (d : Dev) : List Nat :=
  let rs := d.bond.fnRevs
  bondEntry 0x0020 ([rs.length] ++ List.replicate 7 0 ++ rs.flatMap (fun r =>
    toBytes 2 r ++ List.replicate 6 0 ++ (upTo 64).map (fun i => (Config.fnDigest r i).toNat)))

def powerEntry : List Nat :=
  bondEntry 0x0021 (toBytes 4 (Config.powerFigure 0).toNat ++ (upTo 10).flatMap (fun i =>
    [i + 1, 0, 0, 0] ++ toBytes 4 (Config.powerFigure (i + 1)).toNat))

/-- The registers of the signal-box block: offset and name. -/
def boxNames : List (Nat × String) :=
  [(0x40, "BOND_HOLE_STATUS"), (0x100, "TT_LTIME"), (0x108, "TT_SYNC"), (0x110, "TT_STEP"), (0x118, "TT_SHIFT"),
   (0x120, "TT_PWR_NEED"), (0x128, "TT_EPOCH"), (0x200, "LNK_FABADDR"), (0x208, "LNK_CWD"), (0x300, "BOND_BOOT"),
   (0x308, "BOND_QUOTE"), (0x310, "BOND_REPAIR"), (0x318, "BOND_I3C"), (0x400, "PWR_CAP"), (0x408, "PWR_SLEW"),
   (0x410, "PWR_VFLOOR"), (0x418, "PWR_STATUS"), (0x420, "PWR_CNT0"), (0x428, "PWR_CNT1"), (0x430, "PWR_CLR"),
   (0x8000, "LNK_ROUTE"), (0x10000, "BOND_PLATq"), (0x10400, "BOND_PARTq"), (0x11000, "BOND_SEGq_n")]

def viaductNames : List (Nat × String) := [(0x100, "LNK_TIME_DELAY"), (0x2000, "BOND_PORTv"), (0x4000, "BOND_HWINv_i")]

def pierNames : List (Nat × String) :=
  [(0x5000, "UPD_CTAB"), (0x5008, "UPD_CNT0"), (0x5010, "UPD_CNT1"), (0x5018, "UPD_CNT2"), (0x5020, "UPD_CNT3"),
   (0x5028, "UPD_CLR"), (0x5100, "UPD_WBq"), (0x5180, "UPD_RSTq"), (0x5200, "UPD_WBCNT"), (0x5208, "UPD_WBCLR"),
   (0x6000, "PTS_CNT0"), (0x6008, "PTS_CNT1"), (0x6010, "PTS_CNT2"), (0x6018, "PTS_CLR")]

def bayNames : List (Nat × String) :=
  [(0x2000, "VEC_QCNT0"), (0x2008, "VEC_QCNT1"), (0x2010, "VEC_QCLR"), (0x2100, "MX_REPAIR"), (0x2108, "MX_CNT0"),
   (0x2110, "MX_CNT1"), (0x2118, "MX_CNT2"), (0x2120, "MX_CLR"), (0x2200, "VEC_REPAIR0"), (0x2208, "VEC_REPAIR1"),
   (0x2210, "VEC_CNT0"), (0x2218, "VEC_CNT1"), (0x2220, "VEC_CLR")]

def streamNames : List (Nat × String) :=
  [(0x000, "TT_SQ_CTL"), (0x008, "TT_SQ_BASE"), (0x010, "TT_SQ_STATUS"), (0x018, "TT_SQ_OCC"), (0x020, "TT_SQ_LCn"),
   (0x040, "VEC_STATUS"), (0x100, "TT_SQ_MODEL"), (0x140, "MX_MODE"), (0x148, "MX_CODEBOOK"), (0x150, "MX_CSKIP"),
   (0x180, "VEC_VL"), (0x1C0, "VEC_QHIST"), (0x1C8, "VEC_QLEN"), (0x1D0, "VEC_QAMAX"), (0x200, "VEC_FNREV"),
   (0x240, "VEC_RSEED"), (0x248, "VEC_RSTREAM"), (0x280, "MX_SEALCHK"), (0x2C0, "PTS_EXPERTS"), (0x2C8, "PTS_CAPACITY"),
   (0x2D0, "PTS_POLICY")]

def tokenNames : List (Nat × String) := [(0x000, "TT_TOKENS"), (0x008, "TT_TOKSET"), (0x010, "TT_TOKCLR"), (0x018, "TT_TOKVOID")]

def stackNames : List (Nat × String) :=
  [(0x000, "HBM_STATUS"), (0x008, "HBM_LANES"), (0x010, "HBM_RETRAIN"), (0x018, "HBM_THERM"), (0x020, "HBM_CNT0"),
   (0x028, "HBM_CNT1"), (0x030, "HBM_CNT2"), (0x038, "HBM_CLR"), (0x100, "HBM_REGq")]

def linkNames : List (Nat × String) :=
  [(0x00, "LNK_STATUS"), (0x08, "LNK_CTL"), (0x10, "LNK_PMAP"), (0x18, "LNK_PMAPEN"), (0x20, "LNK_CNT0"), (0x28, "LNK_CNT1"),
   (0x30, "LNK_CNT2"), (0x38, "LNK_CLR")]

def integNames : List (Nat × String) :=
  [(0x000, "ECCNT0"), (0x008, "ECCNT1"), (0x010, "SCRUB"), (0x018, "CODE0"), (0x020, "CODE1"), (0x028, "RETIRE"),
   (0x030, "INJECT"), (0x038, "ECLR"), (0x100, "LOGn")]

/-- One record per register of the spec's tables, at its first instance, by block kind and then offset (DEDUCED, log entry 33). -/
def regmapEntry : List Nat :=
  let rows := ([boxNames, viaductNames, pierNames, bayNames, streamNames, tokenNames, stackNames, linkNames, integNames].zipIdx).flatMap
    (fun x => x.1.map (fun r => (x.2, r)))
  bondEntry 0x0022 (toBytes 4 rows.length ++ rows.flatMap (fun r =>
    let name := (r.2.2.toList.map Char.toNat).take 24
    [r.1, 0, 0, 0] ++ toBytes 4 r.2.1 ++ name ++ List.replicate (24 - name.length) 0))

/-- Certificate `i` padded to 8 bytes. -/
def certBytes (i : Nat) : List Nat :=
  let n := Config.certLength i % 65536
  (upTo n).map (fun j => (Config.certByte i j).toNat) ++ List.replicate ((8 - n % 8) % 8) 0

def identEntry : List Nat :=
  bondEntry 0x0023 (toBytes 4 (Config.certLength 0 % 65536) ++ toBytes 4 (Config.certLength 1 % 65536) ++ certBytes 0 ++ certBytes 1)

/-- The body of the bond table: its 124 entries in order. -/
def Dev.bondBody (d : Dev) : List Nat :=
  d.deviceEntry ++ versionsEntry ++ d.serviceEntry ++ (upTo 4).flatMap d.pierEntry ++ (upTo 64).flatMap d.bayEntry ++
  (upTo 12).flatMap d.stackEntry ++ (upTo 32).flatMap d.linkEntry ++ (upTo 4).flatMap d.portEntry ++ d.fnrevEntry ++ powerEntry ++
  regmapEntry ++ identEntry ++ bondEntry 0x0024 d.bond.meas

/-- Bytes as 8-byte words. -/
def wordsOf (bs : List Nat) : List Nat := (chunksOf (bs.length / 8) 8 bs).map ofBytes

/-- The bytes of the bond table in use, as software reads them. -/
def Dev.bondBytes (d : Dev) : List Nat := (upTo (8 + d.bond.img.length)).flatMap (fun i => toBytes 8 (d.bondWord i))

/-- BOND_TABLE_CHANGE: at a slot boundary the changed entries are rewritten, and BT_GEN passes through an odd value to the next
even one (R474; DEDUCED, log entry 34). -/
def Dev.bondChange (t : TimeUnit) (d : Dev) : Dev :=
  if !d.bond.dirty ∨ d.box.stage ≠ 3 then d
  else { d with bond := { d.bond with dirty := false, gen := d.bond.gen + 2, ltime := t.now, img := wordsOf d.bondBody } }

/-! ### Measurements (R467) -/

/-- M7: the partitions' and windows' words in force. -/
def Dev.measure7 (t : TimeUnit) (d : Dev) : List Nat :=
  let word (r : Reg) : List Nat := toBytes 8 (d.readReg t r)
  sha512 ((upTo 16).flatMap (fun q => word (.bondPart q 0) ++ word (.bondPart q 1)) ++
    (upTo 16).flatMap (fun q => (upTo 32).flatMap (fun n => word (.bondSeg q n 0) ++ word (.bondSeg q n 1))))

/-- The digest of image `typ` that the directory holds. -/
def Dev.imageDigest (d : Dev) (typ : Nat) : List Nat := ((d.image typ).drop 16).take 64

/-! ### The repair record (R460, R462, R463) -/

/-- Retired pages that count: in force or accepted (R464). -/
def Integ.allPages (g : Integ) : List Nat := g.pages ++ g.pagePend

/-- The body of a repair record, bytes 1,024 to 16,383, for the applied set. -/
def Dev.repairBody (d : Dev) : List Nat :=
  let bays := (upTo 64).flatMap (fun b =>
    let y := d.bay b
    toBytes 8 y.mxRepair.toNat ++ toBytes 8 (vget 0 y.vecRepair 0).toNat ++ toBytes 8 (vget 0 y.vecRepair 1).toNat ++
      [b2n (!d.bayPresent b), d.bayCause b] ++ slotBytes 2 1 (d.integ b).banks ++ [0, 0, 0, 0])
  let piers := (upTo 4).flatMap (fun p =>
    [b2n (!(d.pier p).present), d.pierCause p, (d.pier p).cores.toNat] ++ List.replicate 13 0)
  let hbms := (upTo 12).flatMap (fun s =>
    let k := d.stack s
    [b2n (!k.present)] ++ toBytes 2 (k.inService &&& ~~~k.failed).toNat ++ List.replicate 5 0 ++ toBytes 8 k.lanes.toNat ++
      List.replicate 16 0)
  let hbm := (upTo 12).flatMap (fun s => slotBytes 64 4 (d.integ (64 + s)).allPages)
  let cap := (upTo 64).flatMap (fun b => slotBytes 16 2 (d.integ b).allPages)
  let body := bays ++ piers ++ hbms ++ hbm ++ cap
  body ++ List.replicate (15360 - body.length) 0

/-- The body that says that nothing is unusable: what no record in force stands for. -/
def blankRepair : List Nat := Dev.reset.repairBody

/-- The body in force (R463). -/
def Dev.repairInForce (d : Dev) : List Nat := if d.box.repInForce.isEmpty then blankRepair else d.box.repInForce

/-- A whole repair record with a sequence number, signed under the identity key; without an identity its signature and DEVID are
zeros (R457, R462; DESIGN CHOICE, log entry 35). -/
def Dev.repairRecord (d : Dev) (seq : Nat) : List Nat :=
  let body := d.repairBody
  let head := toBytes 2 0x0100 ++ List.replicate 6 0 ++ toBytes 8 seq ++ toBytes 8 d.bond.devid.toNat ++ sha512 body ++
    List.replicate 424 0
  let sig := if d.box.idState = 2 then List.replicate 512 0 else rsaSign d.bond.keyN d.bond.keyD head
  head ++ sig ++ body

/-- The flash offset of a repair-record sector. -/
def Dev.sectorBase (d : Dev) (k : Nat) : Nat := dirField (d.image 5) 8 + 0x10000 * k

/-- What a sector holds: nothing, a valid record with its RR_SEQ and body, or one that is not valid (R463). -/
inductive Sector where
  | blank
  | valid (seq : Nat) (body : List Nat)
  | bad
deriving DecidableEq, Repr

/-- Read a repair-record sector; it is blank when every byte of the record's place is as erased. -/
def Dev.readSector (d : Dev) (k : Nat) : Sector :=
  let bs := d.flashBytes (d.sectorBase k) 16384
  let body := bs.drop 1024
  if bs.all (· == 0xFF) then .blank
  else if d.box.idState ≠ 2 ∧ rsaVerify d.bond.keyN (bs.take 512) ((bs.drop 512).take 512) ∧
      ofBytes ((bs.drop 16).take 8) = d.bond.devid.toNat ∧ sha512 body = (bs.drop 24).take 64 then
    .valid (ofBytes ((bs.drop 8).take 8)) body
  else .bad

end Sys2Proof.Machine
end

