-- ==== Sys2Proof/Machine/Boot.lean ====
section
/-! DEFINITION. The boot stages, identity, self-test and publication, quotes and repair-record writes (R451 to R467). -/

namespace Sys2Proof.Machine

/-- Whether the signal box runs: power good and not in reset (R451, R494). -/
def Dev.powered (d : Dev) : Bool := d.pwr.rails && d.pwr.pwrGood && d.pwr.resetN

/-- Every die at its reset values, with boot in stage 0: what outlives a reset are memory, the flash, a CLEAR for the next
boot, and the pins (R17, R451, R494; DESIGN CHOICE, log entry 36). -/
def Dev.restart (d : Dev) : Dev :=
  { Dev.reset with
    mem := d.mem, answers := d.answers, records := d.records, free := d.free
    box := { Box.reset with repClear := d.box.repClear, chainIn := d.box.chainIn }
    bond := { Bond.reset with flash := d.bond.flash }
    ports := d.ports.map (fun k => { Port.reset with inReset := k.inReset })
    pwr := { Power.reset with
      vin := d.pwr.vin, standby := d.pwr.standby, pwrEn := d.pwr.pwrEn, pwrGood := d.pwr.pwrGood, resetN := d.pwr.resetN,
      thermtripN := d.pwr.thermtripN, rails := d.pwr.rails, vinZone := d.pwr.vinZone, zoneSince := d.pwr.zoneSince } }

/-! ### Stage 0 (R454, R455) -/

/-- ROM_DONE: the first directory copy whose signature checks and whose images are sound is used; with neither the device
enters RECOVERY. `sig0` and `sig1` say whether a release key signed each copy (R454, R473; DESIGN CHOICE, log entry 37). -/
def romDone (sig0 sig1 : Bool) (d : Dev) : Dev :=
  if d.box.stage ≠ 0 ∨ !d.powered then d
  else if sig0 && d.dirSound false then d.modBox (fun x => { x with stage := 1, dirCopy := false })
  else if sig1 && d.dirSound true then d.modBox (fun x => { x with stage := 1, dirCopy := true })
  else d.modBox (fun x => { x with stage := 4, error := if sig0 && sig1 then 0x02 else 0x01 })

/-! ### Stage 1 (R456 to R458) -/

/-- The inverse of `a` modulo `n` by Euclid's algorithm, given (r, s) of two successive remainders and coefficients. -/
def invMod (n : Int) : Nat → Int → Int → Int → Int → Int
  | 0, _, _, _, _ => 0
  | fuel + 1, r0, r1, s0, s1 => if r1 = 0 then s0 % n else invMod n fuel r1 (r0 % r1) s1 (s0 - r0 / r1 * s1)

/-- The private exponent for public exponent 65537 and the group order of p and q. -/
def privateExp (p q : Nat) : Nat :=
  let m : Int := ((p - 1) * (q - 1) : Nat)
  (invMod m 64 m 65537 0 1).toNat

/-- The primes p and q of the identity, as the corrected PUF response and the helper data give them (R456). -/
def identityPrimes : Nat × Nat :=
  let seed := (sha512 ((upTo 32768).map (fun i => (Config.pufByte i).toNat))).take 32
  let kv := drbgNew seed [0x54, 0x56, 0x38, 0x32, 0x30, 0x30, 0x49, 0x44]
  (candidate Config.helperP kv, candidate Config.helperQ kv)

/-- DEVID of a modulus: bytes 0 to 7 of its SHA-512, big-endian (R456). -/
def devidOf (n : Nat) : Nat := ofBytesBE ((sha512 (toBytesBE 512 n)).take 8)

/-- Rebuild the identity key; without it IDSTATE is 2 and DEVID zero, and ERROR says so (R456 to R458, R473). -/
def Dev.rebuildIdentity (puf : Bool) (d : Dev) : Dev :=
  let (p, q) := identityPrimes
  if puf && Config.isPrime p && Config.isPrime q then
    let n := p * q
    { d.modBox (fun x => { x with idState := if n = Config.certModulus then 0 else 1 }) with
      bond := { d.bond with keyN := n, keyD := privateExp p q, devid := w64 (devidOf n) } }
  else
    { d.modBox (fun x => { x with idState := 2, error := 0x03 }) with bond := { d.bond with keyN := 0, keyD := 0, devid := 0 } }

/-- The defaults of the configuration image (R455); values outside their registers' ranges leave the Reset column's. -/
def Dev.loadDefaults (d : Dev) : Dev :=
  let vfs (v : Nat) : Nat := Config.imageVfs v
  let fits := decide (vfs 0 + vfs 1 + vfs 2 + vfs 3 ≤ 16)
  { d with
    ports := Vector.ofFn (fun v : Fin 4 => { d.ports[v] with vfs := if fits then BitVec.ofNat 5 (vfs v.val) else d.ports[v].vfs })
    links := Vector.ofFn (fun l : Fin 32 => { d.links[l] with pmd := Config.imagePmd l.val })
    integs := Vector.ofFn (fun i : Fin 80 =>
      let n := Config.imageLapmax i.val % 256
      { d.integs[i] with lapMax := if n = 0 then d.integs[i].lapMax else BitVec.ofNat 8 n }) }

/-- The function-table revisions of the image, 1 to 4 of them, from 0x0001 to 0xFFFF and each listed once (R232). -/
def imageRevisions : List Nat :=
  (upTo (max 1 (min 4 Config.fnCount))).foldl (fun xs i => setPut xs (1 + Config.fnRevision i % 65535) true) []

/-- IMAGES_DONE: the identity is rebuilt, the images are loaded, the other dies leave reset, and self-test begins; `puf` says
whether the PUF response could be corrected (R451, R455 to R458). -/
def imagesDone (puf : Bool) (d : Dev) : Dev :=
  if d.box.stage ≠ 1 ∨ !d.powered then d
  else
    let d1 := (d.rebuildIdentity puf).loadDefaults
    { d1.modBox (fun x => { x with stage := 2 }) with bond := { d1.bond with fnRevs := imageRevisions } }

/-! ### Stage 2: self-test and repair (R180, R181, R224, R225, R320, R459 to R463) -/

/-- Two bytes of the applied record's body as a number, and so on. -/
def recNum (body : List Nat) (o n : Nat) : Nat := ofBytes ((body.drop (o - 1024)).take n)

/-- The unusable rows of an array: those of the record and those found (R460). -/
def unionRows (rec' : Nat) (found : List Nat) : List Nat :=
  let old := [fld rec' 0 7, fld rec' 8 7].filter (· < 66)
  (found.filter (· < 66)).foldl (fun s r => setInsert r s) (old.foldl (fun s r => setInsert r s) [])

/-- MX_REPAIR of a set of unusable rows (R180, R201). -/
def mxRepairOf (rows : List Nat) : Nat :=
  rows.getD 0 0x7F + rows.getD 1 0x7F * 2 ^ 8 + min 3 rows.length * 2 ^ 16

/-- The unusable lanes of one cluster: the record's and those found (R460). -/
def unionLanes (rec' : Nat) (cluster : Nat) (found : List (Nat × Nat)) : List Nat :=
  let old := if rec' % 64 < 33 then [rec' % 64] else []
  ((found.filter (fun x => x.1 = cluster ∧ x.2 < 33)).map (·.2)).foldl (fun s r => setInsert r s) old

/-- Whether a cluster has more than one unusable lane, now or by the record's byte (R225, R460). -/
def badCluster (rec' : Nat) (lanes : List Nat) : Bool := decide (1 < lanes.length) || bit rec' 7

/-- One byte of VEC_REPAIR (R224, R230). -/
def vecByte (rec' : Nat) (lanes : List Nat) : Nat := lanes.getD 0 0x3F + b2n (badCluster rec' lanes) * 128

/-- The first of some causes that is not 0. -/
def firstCause (cs : List Nat) : Nat := ((cs.filter (· != 0)).head?).getD 0

/-- Apply self-test's findings and the record to bay `b` (R459, R460). -/
def Dev.testBay (body : List Nat) (f : BayFinding) (b : Nat) (d : Dev) : Dev :=
  let o := 1024 + 32 * b
  let rows := unionRows (recNum body o 8) f.rows
  let was (c : Nat) : Nat := recNum body (o + 8 + c) 1
  let lanes (c : Nat) : List Nat := unionLanes (was c) c f.lanes
  let bad := (upTo 16).any (fun c => badCluster (was c) (lanes c))
  let old := [recNum body (o + 26) 1, recNum body (o + 27) 1].filter (· < 32)
  let banks := (f.banks.filter (· < 32)).foldl (fun (bs : List Nat) x => if bs.contains x then bs else bs ++ [x]) old
  let pages := ((upTo 16).map (fun i => recNum body (6592 + 32 * b + 2 * i) 2)).filter (· < 384)
  let out := if recNum body (o + 24) 1 = 1 then max 1 (recNum body (o + 25) 1) else 0
  let cause := firstCause [out, if 2 < rows.length then 1 else 0, if bad then 2 else 0, f.cause,
    if 2 < banks.length then 4 else 0]
  let d1 := (d.modBay b (fun y => { y with
    mxRepair := w64 (mxRepairOf rows)
    vecRepair := Vector.ofFn (fun j : Fin 2 => w64 (ofBytes ((upTo 8).map (fun i => vecByte (was (8 * j.val + i)) (lanes (8 * j.val + i)))))) })).modInteg b
    (fun g => { g with banks := banks.take 2, pages := pages })
  if cause = 0 then d1
  else { d1 with bond := { d1.bond with bays := w64 (clrBit d1.bond.bays.toNat b), bayCause := tabSet 0 d1.bond.bayCause b cause } }

/-- Apply them to pier `p`: a pier that is mapped out takes its bays, its cap and its stacks with it (R459, R460). -/
def Dev.testPier (body : List Nat) (f : PierFinding) (p : Nat) (d : Dev) : Dev :=
  let o := 3072 + 16 * p
  let cores := f.badCores.foldl clrBit (fld (recNum body (o + 2) 1) 0 4)
  let out := if recNum body o 1 = 1 then max 1 (recNum body (o + 1) 1) else 0
  let cause := firstCause [out, f.cause, if cores = 0 then 7 else 0]
  let d1 := d.modPier p (fun k => { k with cores := BitVec.ofNat 4 cores, present := cause = 0 })
  if cause = 0 then d1
  else
    let bays := (upTo 16).map (16 * p + ·)
    let d2 : Dev := { d1 with bond := { d1.bond with
      pierCause := tabSet 0 d1.bond.pierCause p cause
      bays := w64 (bays.foldl clrBit d1.bond.bays.toNat)
      bayCause := bays.foldl (fun t b => if tabGet 0 t b = 0 then tabSet 0 t b cause else t) d1.bond.bayCause } }
    [3 * p, 3 * p + 1, 3 * p + 2].foldl (fun (d : Dev) s => d.modStack s (fun k => { k with present := false, inService := 0 })) d2

/-- A pseudo-channel's lane code after this boot's training: the worse of the record's and the finding (R320, R460; log
entry 38). -/
def laneCode (rec' : Nat) (found : List (Nat × Nat)) (pc : Nat) : Nat :=
  max (min 2 (fld rec' (2 * pc) 2)) (min 2 (tabGet 0 found pc))

/-- Apply training and the record to stack `s`; how long a channel trained is not stated, so its record's DURATION is a free value
(R309, R320, R327, R328, R333, R453, R460; DESIGN CHOICE, log entry 3). -/
def Dev.testStack (t : TimeUnit) (body : List Nat) (f : StackFinding) (s : Nat) (d : Dev) : Dev :=
  let o := 3136 + 32 * s
  if !(d.stack s).present then d
  else
    let lanes := (upTo 32).map (laneCode (recNum body (o + 8) 8) f.lanes)
    let ok (ch : Nat) : Bool := bit (recNum body (o + 1) 2) ch && lanes.getD (2 * ch) 0 < 2 && lanes.getD (2 * ch + 1) 0 < 2
    let service := (upTo 16).filter ok
    let gone := (upTo 16).filter (fun ch => !ok ch)
    let small := decide (service.length < 8) || recNum body o 1 == 1
    let pages := ((upTo 64).map (fun i => recNum body (3520 + 256 * s + 4 * i) 4)).filter (· < 65536)
    let d1 := (d.modStack s (fun k =>
      { k with
        present := !small, inService := if small then 0 else BitVec.ofNat 16 (service.foldl setBit 0)
        lanes := w64 ((lanes.zipIdx).foldl (fun n x => n + x.1 * 4 ^ x.2) 0)
        temp := BitVec.ofNat 8 f.temp
        chans := k.chans.map (fun c => { c with trainTemp := f.temp, trainTime := t.now }) })).modInteg (64 + s)
      (fun g => { g with pages := pages })
    let found (ch : Nat) : Nat := max (tabGet 0 f.lanes (2 * ch)) (tabGet 0 f.lanes (2 * ch + 1))
    let d2 := ((upTo 16).filter (fun ch => decide (0 < found ch))).foldl (fun (d : Dev) ch =>
      let (v, d) := d.takeFree
      d.emit t none (retrainRecord s 0 ch (if found ch = 1 then 2 else 3) 0 (fld v.toNat 0 32) t.slot false)) d1
    let d3 := (if small then [0xFF] else gone).foldl (fun (d : Dev) ch => d.emit t none (d.mappedRecord s ch 0)) d2
    d3.thermSteps t s 4

/-- The findings about a unit; none means that all its tests pass, and that a stack's temperature is as last read. -/
def bayFinding (f : Findings) (b : Nat) : BayFinding :=
  (f.bays.find? (fun x => x.bay = b)).getD { bay := b, rows := [], lanes := [], banks := [], cause := 0 }
def pierFinding (f : Findings) (p : Nat) : PierFinding :=
  (f.piers.find? (fun x => x.pier = p)).getD { pier := p, badCores := [], cause := 0 }
def stackFinding (f : Findings) (temp s : Nat) : StackFinding :=
  (f.hbms.find? (fun x => x.stack = s)).getD { stack := s, lanes := [], temp := temp }

/-- The record that this boot applies: its sector, sequence number and body, and REPSTATE (R463). -/
def Dev.chooseRecord (d : Dev) : Option (Nat × Nat × List Nat) × Nat :=
  if d.box.repClear then (none, 1)
  else
    match d.readSector 0, d.readSector 1 with
    | .valid a x, .valid b y => if a < b then (some (1, b, y), 0) else (some (0, a, x), 0)
    | .valid a x, _ => (some (0, a, x), 0)
    | _, .valid b y => (some (1, b, y), 0)
    | .blank, .blank => (none, 1)
    | _, _ => (none, 2)

/-- Put the chosen record in force (R463). -/
def Dev.applyRecord (c : Option (Nat × Nat × List Nat) × Nat) (d : Dev) : Dev :=
  d.modBox (fun x => { x with
    repState := BitVec.ofNat 2 c.2, repClear := false
    repSeq := match c.1 with | some r => w32 r.2.1 | none => 0
    repSector := match c.1 with | some r => r.1 | none => 1
    repInForce := match c.1 with | some r => r.2.2 | none => [] })

/-- SELFTEST_DONE: the findings of stage 2 and the repair record in force are applied (R451, R459 to R463, R473). -/
def selftestDone (f : Findings) (t : TimeUnit) (d : Dev) : Dev :=
  if d.box.stage ≠ 2 ∨ d.box.tested ∨ !d.powered then d
  else
    let d0 := d.applyRecord d.chooseRecord
    let body := d0.repairInForce
    let d1 := (upTo 64).foldl (fun (d : Dev) b => d.testBay body (bayFinding f b) b) d0
    let d2 := (upTo 4).foldl (fun (d : Dev) p => d.testPier body (pierFinding f p) p) d1
    let d3 := (upTo 12).foldl (fun (d : Dev) s => d.testStack t body (stackFinding f (d.stack s).temp.toNat s) s) d2
    d3.modBox (fun x => { x with tested := true, error := if d3.bond.bays = 0 then 0x04 else x.error })

/-! ### Stage 3: publication (R451, R467, R472) -/

/-- PUBLISHED: links begin training, the measurements and the bond table are published, held records go to their ring if it
stands, and a changed repair record is due (R451, R453, R464, R467, R472, R474). -/
def published (t : TimeUnit) (d : Dev) : Dev :=
  if d.box.stage ≠ 2 ∨ !d.box.tested ∨ !d.powered then d
  else
    let d1 : Dev := { d.modBox (fun x => { x with stage := 3, pubMs := w32 ((t.now - d.box.bootAt.toNat) / 1000000) }) with
      links := d.links.map (fun k => if k.en then { k with state := .training } else k) }
    let rep := if d.box.repState = 0 then sha512 d.box.repInForce else sha512 (List.replicate 15360 0)
    let m := (upTo 64).map (fun i => (Config.romDigest i).toNat) ++ [1, 2, 3, 4].flatMap d1.imageDigest ++ rep
    let m7 := d1.measure7 t
    let publish (m6 : List Nat) (d : Dev) : Dev :=
      let e : Dev := { d with bond := { d.bond with gen := 2, ltime := t.now, dirty := false, meas := m ++ m6 ++ m7 } }
      { e with bond := { e.bond with img := wordsOf e.bondBody } }
    let d2 := publish (List.replicate 64 0) d1
    let d3 := (publish (sha512 d2.bondBytes) d1).flushHeld t
    if d3.repairBody = d3.repairInForce then d3 else d3.repairDue

/-! ### The repair record in service (R464, R475) -/

/-- REPAIR_RECORD_WRITE: Ehrush begins to write the record of the applied set into the other sector (R463, R464). -/
def repairRecordWrite (d : Dev) : Dev :=
  if d.box.stage ≠ 3 ∨ !d.powered ∨ !d.box.repPending ∨ d.box.repWriting.isSome then d
  else
    let seq := if d.box.repInForce.isEmpty then 1 else d.box.repSeq.toNat + 1
    d.modBox (fun x => { x with repWriting := some (d.repairRecord seq), repAgain := false })

/-- REPAIR_RECORD_DONE: the record stands in its sector and is in force; a change that came meanwhile is still due (R463,
R464). -/
def repairRecordDone (d : Dev) : Dev :=
  match d.box.repWriting with
  | none => d
  | some bs =>
    let k := 1 - d.box.repSector % 2
    (d.flashPut (d.sectorBase k) (bs ++ List.replicate 49152 0xFF)).modBox (fun x =>
      { x with
        repWriting := none, repPending := x.repAgain, repAgain := false, repSector := k
        repSeq := w32 (ofBytes ((bs.drop 8).take 8)), repInForce := bs.drop 1024 })

/-! ### Quotes (R465, R466) -/

/-- A quote, formed now (R466). -/
def Dev.quoteBytes (t : TimeUnit) (d : Dev) (nonce : List Nat) : List Nat :=
  let body := toBytes 2 0x0100 ++ List.replicate 6 0 ++ toBytes 8 d.bond.devid.toNat ++ toBytes 8 t.now ++ toBytes 8 d.step.toNat ++
    toBytes 8 d.bond.gen ++ nonce ++ d.keyId ++ d.bond.meas.take 448 ++ d.measure7 t
  let head := body ++ List.replicate (1024 - body.length) 0
  head ++ rsaSign d.bond.keyN d.bond.keyD head

/-- The value of a BOND_QUOTE write with GO. -/
def quoteValue (buf : Nat) : Nat := buf / 64 % 2 ^ 46 * 64 + 1

/-- The poison of a quote whose nonce came with poison `ps`: that of Q_NONCE, and all of Q_SIG, which is taken over it (R350;
DEDUCED, log entry 141). -/
def quotePoison (ps : List Bool) : List Bool :=
  if ps.any id then List.replicate 40 false ++ ps ++ List.replicate 920 false ++ List.replicate 512 true else []

/-- QUOTE_DONE: the quote at the head of the signer's queue is signed, and STATE becomes 2 once it is visible (R465, R466, R470). -/
def quoteDone (t : TimeUnit) (d : Dev) : Dev :=
  match d.bond.signer with
  | .quote none (some (nonce, _)) _ :: rest =>
    ({ d with bond := { d.bond with signer := rest } } : Dev).modBox (fun x => { x with reply := .data (d.quoteBytes t nonce) })
  | .quote (some a) (some (nonce, ps)) none :: rest =>
    let d1 : Dev := { d with bond := { d.bond with signer := .quote (some a) (some (nonce, ps)) (some d.nextJob) :: rest } }
    (d1.request t (.mem (.write (a + 64) (byteList (d.quoteBytes t nonce)) (quotePoison ps) [] boxReq.src d.adminPart))).signerOn t
  | _ => d.signerOn t

end Sys2Proof.Machine
end

