-- ==== Sys2Proof/Machine/Power.lean ====
section
/-! DEFINITION. Supply, draw shaping, core voltage, droop, temperature, and power-up and power-down (R476 to R496). -/

namespace Sys2Proof.Machine

/-- The EV_SOURCE of the power and thermal controller (R12). -/
def powerSrc : Nat := plainSrc 0x32 0

/-- A CAUTION record of the power controller (R60). -/
def powerCaution (cause count : Nat) : EvRec := { record 0x06 powerSrc with count := w64 count, detail := detail [(48, 1, cause)] }

/-! ### Power-up, reset and power-down (R493 to R495) -/

/-- VIN_RISE: VIN has reached 40 V and the standby rail is up. -/
def vinRise (d : Dev) : Dev := d.modPwr (fun p => { p with standby := true })

/-- PWR_EN_RISE: the rails ramp. -/
def pwrEnRise (d : Dev) : Dev := d.modPwr (fun p => if p.standby then { p with pwrEn := true, falling := false } else p)

/-- POWER_GOOD: the rails are up and boot begins in stage 0, line time at 0; memory holds nothing of before (R451, R493). -/
def powerGood (t : TimeUnit) (d : Dev) : TimeUnit × Dev :=
  if !d.pwr.standby ∨ !d.pwr.pwrEn ∨ d.pwr.pwrGood ∨ !d.pwr.thermtripN then (t, d)
  else
    let d1 := d.modPwr (fun p => { p with rails := true, pwrGood := true })
    (TimeUnit.reset, { d1.restart with mem := Memory.reset })

/-- The rails go off: nothing but the flash and the pins outlives it. -/
def Dev.unpower (trip : Bool) (d : Dev) : Dev :=
  let d1 := d.modPwr (fun p => { p with rails := false, pwrGood := false, thermtripN := p.thermtripN && !trip })
  { d1.restart with mem := Memory.reset }

/-- PWR_EN_FALL: every undelivered occurrence is withdrawn with cause SAFETY and issue stops; THERMTRIP_N is released; a
repair-record write in progress is lost (R478, R495, R496). -/
def pwrEnFall (t : TimeUnit) (d : Dev) : Dev :=
  if !d.pwr.pwrEn then d
  else
    let owed := d.openOccs.filter (fun o => !o.withdrawn)
    let d1 := d.openOccs.foldl (fun (d : Dev) o => d.withdrawCancel t lateSafety o.key) d
    (d1.modPwr (fun p => { p with
      pwrEn := false, thermtripN := true, falling := p.rails, cnt1 := p.cnt1.addHi owed.length })).modBox
      (fun x => { x with repWriting := none })

/-- RAILS_OFF: after PWR_EN has fallen every rail is off (R495). -/
def railsOff (d : Dev) : Dev := if d.pwr.pwrEn ∨ !d.pwr.rails then d else d.unpower false

/-- RESET_N: low for 1 µs or more every die is held in reset with its rails up; on release boot restarts from stage 0 (R494). -/
def resetPin (low : Bool) (t : TimeUnit) (d : Dev) : TimeUnit × Dev :=
  if low then (TimeUnit.reset, (d.modPwr (fun p => { p with resetN := false })).restart)
  else if d.pwr.resetN then (t, d)
  else (TimeUnit.reset, (d.modPwr (fun p => { p with resetN := true })).restart)

/-! ### The 54 V input (R477, R478) -/

/-- The condition that VIN in mV puts the module in: 0 normal, 1 near a limit, 2 riding through, 3 low, 4 out. -/
def vinZone (mv : Nat) : Nat :=
  if mv < 34000 ∨ 66000 < mv then 4
  else if mv < 36000 then 3
  else if mv < 40000 ∨ 60000 < mv then 2
  else if mv ≤ 42000 ∨ 58000 ≤ mv then 1
  else 0

/-- SUPPLY: 3 while this device's supply hold is outstanding, else as the zone says (R496). -/
def Dev.supplyNow (d : Dev) : BitVec 2 :=
  if d.hold.own.any (fun x => x.1 = .supply) || d.hold.raised.contains .supply then 3
  else if d.pwr.vinZone = 0 then 0 else if d.pwr.vinZone = 1 then 1 else 2

/-- VIN_SAMPLE: note VIN, its condition and since when; a disturbance that ended within 10 ms is counted in RIDES; below 36 V
ballast is removed at once (R477, R481). -/
def vinSample (mv : Nat) (t : TimeUnit) (d : Dev) : Dev :=
  let z := vinZone mv
  let old := d.pwr.vinZone
  let d1 := d.modPwr (fun p => { p with
    vin := BitVec.ofNat 16 (min mv 0xFFFF), vinZone := z, zoneSince := if z = old then p.zoneSince else t.now
    cnt1 := if old = 2 ∧ z < 2 ∧ t.now ≤ p.zoneSince + 10000000 then p.cnt1.addLo 1 else p.cnt1
    vinOkSince := if z < 2 then some (p.vinOkSince.getD t.now) else none
    ballast := if mv < 36000 then 0 else p.ballast })
  d1.modPwr (fun p => { p with supply := d1.supplyNow })

/-- VIN_CAUTION: 100 µs near a limit write CAUTION, at most one per 1,024 slots (R477). -/
def vinCaution (t : TimeUnit) (d : Dev) : Dev :=
  if d.pwr.vinZone ≠ 1 ∨ t.now < d.pwr.zoneSince + 100000 ∨ !optAll d.pwr.lastVinCaution (fun s => decide (s + 1024 ≤ t.slot)) then d
  else (d.modPwr (fun p => { p with lastVinCaution := some t.slot })).emit t none (powerCaution 0x01 d.pwr.vin.toNat)

/-- Whether a condition that calls for a protective stop holds (R477, R485). -/
def Dev.mustStop (t : TimeUnit) (d : Dev) : Bool :=
  (d.pwr.vinZone == 4 && decide (d.pwr.zoneSince + 20000 ≤ t.now)) ||
  (d.pwr.vinZone == 3 && decide (d.pwr.zoneSince + 1000000 < t.now)) ||
  decide (110 ≤ d.pwr.tdie.toNat) || (upTo 12).any (fun s => (d.stack s).present && decide (105 ≤ (d.stack s).temp.toNat))

/-- PROTECTIVE_STOP: every rail off, PWR_GOOD deasserted, THERMTRIP_N asserted, and no record (R478). -/
def protectiveStop (t : TimeUnit) (d : Dev) : Dev := if d.pwr.rails ∧ d.mustStop t then d.unpower true else d

/-- VIN_RIDE_EXPIRY: out of range beyond 10 ms a HOLD is raised; below 36 V beyond 1 ms the module stops (R477). -/
def vinRideExpiry (t : TimeUnit) (d : Dev) : Dev :=
  if d.pwr.vinZone = 2 ∧ d.pwr.zoneSince + 10000000 < t.now then
    let d1 := d.raiseHold .supply
    d1.modPwr (fun p => { p with supply := d1.supplyNow })
  else if d.pwr.vinZone = 3 then protectiveStop t d
  else d

/-- VIN_STABLE_EXPIRY: VIN has stayed within 40 V to 60 V for 1,000,000 lt: RESUME of the supply hold (R477). -/
def vinStableExpiry (t : TimeUnit) (d : Dev) : Dev :=
  if d.cleared t .supply then
    let d1 := d.sendResume t .supply
    d1.modPwr (fun p => { p with supply := d1.supplyNow })
  else d

/-! ### Draw shaping (R479 to R481) -/

/-- The slot of the timetables that a line slot will run, as a HOLD that is outstanding shifts them: none while the device is
paused (R63, R481). -/
def Dev.ranSlot (d : Dev) (s : Nat) : Option Nat :=
  match d.hold.pauseSlot with
  | none => some s
  | some p =>
    if s < p then some s
    else
      match d.hold.resumeSlot with
      | some r => if r ≤ s then some (s - (r - p)) else none
      | none => none

/-- The look-ahead ramp A in 0.1 W, rounded up: over the slots that begin within the longest ramp (R54, R479; DESIGN CHOICE, log entry 39). -/
def Dev.lookAhead (t : TimeUnit) (d : Dev) : Nat :=
  let L := t.slotLen
  let S := max 1 d.pwr.slew.toNat
  let xs := d.laid
  if xs.isEmpty then 0
  else
    (upTo (34000 * 1000 / (S * L) + 2)).foldl (fun n i =>
      let s := t.slot + 1 + i
      match d.ranSlot s with
      | none => n
      | some u =>
        let top := powerAt L xs u * 10000
        let dip := S * (s * L - t.now) * powerScale L
        max n (ceilDiv (top - dip) (1000 * powerScale L))) 0

/-- SHAPER_TICK: the draw and the ballast from the measured work draw in W; `gated` counts the cycles of unclaimed issue that
were held back since the last tick (R479 to R481, R496). -/
def shaperTick (work gated : Nat) (t : TimeUnit) (d : Dev) : Dev :=
  let W := 10 * work
  let S := d.pwr.slew.toNat
  let old := d.pwr.draw
  let free := max W (max (d.lookAhead t) (old - S))
  let D := min free (min (10 * d.pwr.cap.toNat) 34000)
  let room := if d.pwr.balen ∧ 36000 ≤ d.pwr.vin.toNat then 20000 else 0
  let ballast := min (D - W) room
  let excess := max (max D W - (old + S)) (if 20000 < D - W then D - W - 20000 else 0)
  let d1 := d.modPwr (fun p => { p with draw := D, ballast := ballast, work := W, cnt0 := p.cnt0.addHi gated })
  if excess = 0 ∨ !optAll d.pwr.lastDrawCaution (fun s => decide (s + 1024 ≤ t.slot)) then d1
  else (d1.modPwr (fun p => { p with lastDrawCaution := some t.slot })).emit t none (powerCaution 0x02 (ceilDiv excess 10))

/-! ### Core voltage and droop (R482, R483) -/

/-- VOLTAGE_STEP of rail `r`: `pass` is the lowest voltage in mV at which its monitors pass, `safe` the highest that cap and
temperature allow; the rail moves by at most 5 mV every 10 µs (R67, R482; DESIGN CHOICE, log entry 40). -/
def voltageStep (r pass safe : Nat) (t : TimeUnit) (d : Dev) : Dev :=
  if t.now < vget 0 d.pwr.voltAt r + 10000 ∧ vget 0 d.pwr.voltAt r ≠ 0 then d
  else
    let floor := d.pwr.vfloor.toNat
    let held := decide (safe < floor)
    let aim := max 700 (min 900 (max pass (if held then safe else floor)))
    let v := vget 900 d.pwr.volts r
    let next := if v < aim then min aim (v + 5) else max aim (v - 5)
    let was := bit d.pwr.limited.toNat r
    let d1 := d.modPwr (fun p => { p with
      volts := vmod p.volts r (fun _ => next), voltAt := vmod p.voltAt r (fun _ => t.now)
      limited := BitVec.ofNat 9 (if held then setBit p.limited.toNat r else clrBit p.limited.toNat r) })
    if held ∧ !was then d1.emit t none (powerCaution 0x01 next) else d1

/-- The occurrences running on a bay: bound by it, started, and not closed there (R87, R89). -/
def Dev.runningOn (d : Dev) (b : Nat) : List Occ :=
  d.openOccs.filter (fun o => o.te.names b && o.start.isSome && bit o.bound (b % 4) && !bit o.closed (b % 4))

/-- One bay freezes for 4 cycles; beyond L / 16 cycles in a slot its running occurrences are withdrawn, once each (R483). -/
def Dev.droopBay (t : TimeUnit) (b : Nat) (d : Dev) : Dev :=
  let spent := tabGet 0 d.pwr.droop b + 4
  let hit := if t.slotLen / 16 < spent then (d.runningOn b).filter (fun o => !o.withdrawn) else []
  let d1 := d.modPwr (fun p => { p with
    droop := tabSet 0 p.droop b spent, cnt0 := p.cnt0.addLo 4, cnt1 := p.cnt1.addHi hit.length })
  hit.foldl (fun (d : Dev) o => d.withdraw t lateSafety noSlot o.key) d1

/-- DROOP_EVENT: the detector of pier `p` freezes the bays that a 16-bit mask names (R483). -/
def droopEvent (p mask : Nat) (t : TimeUnit) (d : Dev) : Dev :=
  ((maskBits 16 mask).filter (fun j => d.bayPresent (16 * p + j))).foldl (fun (d : Dev) j => d.droopBay t (16 * p + j)) d

/-! ### Temperature (R485) -/

/-- DIE_TEMP_READING: the largest die temperature drives ALERT_N and the thermal hold (R485). -/
def dieTemp (temp : Nat) (t : TimeUnit) (d : Dev) : Dev :=
  let d1 := d.modPwr (fun p => { p with
    tdie := BitVec.ofNat 8 (min temp 255)
    alertN := if 95 ≤ temp then false else if temp ≤ 93 then true else p.alertN
    dieCoolSince := if temp ≤ 95 then some (p.dieCoolSince.getD t.now) else none })
  if 100 ≤ temp then d1.raiseHold .thermal else d1

/-- DIE_COOL_EXPIRY: at or below 95 °C for 1,000,000 lt: RESUME of the thermal hold (R485). -/
def dieCool (t : TimeUnit) (d : Dev) : Dev := if d.cleared t .thermal then d.sendResume t .thermal else d

/-! ### PCIe (R349, R438, R474) -/

/-- PCIE_RETRAIN: port `v` has a new width and rate; its bond-table entry follows at the next boundary (R474). -/
def pcieRetrain (v width rate : Nat) (d : Dev) : Dev := (d.modPort v (fun k => { k with width := width, rate := rate })).bondDue

/-- The data of a read that the device made through a host window; EP poisons all of it (R349, R438). -/
def hostData (v tag : Nat) (ep : Bool) (data : List Byte) (d : Dev) : Dev :=
  match (d.portOf v).waiting.find? (fun w => w.tag = tag) with
  | none => d
  | some w =>
    let bs := data.take w.len
    (d.modMem (·.putAll w.addr bs (List.replicate bs.length ep) [])).modPort v (fun k =>
      { k with waiting := k.waiting.filter (fun x => x.tag != tag) })

/-- PCIE_COMPLETION: read data has come through a host window, and what waited for it goes on (R349, R438). -/
def pcieCompletion (v tag : Nat) (ep : Bool) (data : List Byte) (t : TimeUnit) (d : Dev) : Dev := (hostData v tag ep data d).goOn t

end Sys2Proof.Machine
end

