-- ==== Sys2Proof/Machine/Boundary.lean ====
section
/-! DEFINITION. The slot boundary: everything that waits for it takes effect in one order (R44, R56, R77, R94, R95, R114, R345,
R362, R374, R402, R434 to R436, R440 to R442, R449, R474, R483). -/

namespace Sys2Proof.Machine

/-! ### Register writes that waited (R18) -/

/-- A partition's words change: quarters that an enabled partition comes to hold are made clean first, and a write that clears
EN resets the partition (R434, R435, R440). -/
def Dev.partCommit (t : TimeUnit) (q : Nat) (old : Part) (d : Dev) : Dev :=
  let new := d.part q
  let had : BitVec 16 := if old.en then old.quarters else 0
  let comes : BitVec 16 := if new.en then new.quarters &&& ~~~had else 0
  d.modPart q (fun p =>
    { p with
      cleaning := (p.cleaning &&& new.quarters) ||| comes, cleanDone := p.cleanDone &&& ~~~comes
      resetPend := if old.en && !new.en then some (p.resetPend.getD t.slot) else p.resetPend })

/-- A window with ZERO = 1 becomes valid once zeros are over it (R436). -/
def Dev.segCommit (q n v : Nat) (d : Dev) : Dev :=
  if bit v 0 ∧ bit v 2 then
    d.modPart q (fun p => { (p.modSeg n (fun g => { g with valid := false })) with zeroing := setPut p.zeroing n true })
  else d.modPart q (fun p => { p with zeroing := setPut p.zeroing n false })

/-- A platform is enabled or its rings move: it continues from the counts in the rings' headers, and held boot records go to
the administrative ring (R441, R453). -/
def Dev.platCommit (t : TimeUnit) (q : Nat) (old : Part) (d : Dev) : Dev :=
  let new := d.part q
  if new.platEn && (!old.platEn || new.rings != old.rings) then (d.adoptRings t q).flushHeld t else d

/-- LNK_CTL changes: EN and RETRAIN start or stop the link, and a quad that QMASK no longer permits leaves service, with a replay of
what is unacknowledged (R367, R401, R402). -/
def Dev.linkCommit (t : TimeUnit) (l v : Nat) (old : Link) (d : Dev) : Dev :=
  let k := d.link l
  let rest := k.quads &&& k.qmask
  if d.box.stage ≠ 3 then d
  else if !k.en then (if old.state = .down then d else d.linkChange t l .down 0 4)
  else if !old.en || bit v 1 then d.startTraining t l
  else if k.isUp ∧ rest ≠ k.quads then d.narrow t l rest.toNat 4
  else d

/-- The regions of a block whose code a write has changed are zeroed in their new code (R345). -/
def Dev.codeCommit (k : IntegBlock) (old : Integ) (d : Dev) : Dev :=
  let new := d.integ k.index
  let diff := (old.code0 ^^^ new.code0).toNat + (old.code1 ^^^ new.code1).toNat * 2 ^ 64
  let limit := match k with
    | .stack s => 8 * (d.stack s).c
    | .bay b => if d.bayPresent b then 12 else 0
    | .yard _ => 0
  let moved := (maskBits 128 diff).filter (· < limit)
  d.modInteg k.index (fun g => { g with zeroing := moved.foldl (fun z i => setPut z i true) g.zeroing })

/-- One waiting write takes effect. A platform whose rings lie outside the windows in force is discarded here (R441). -/
def Dev.commitOne (t : TimeUnit) (w : PendWrite) (d : Dev) : Dev :=
  let v := w.val.toNat
  let e := d.applyReg w.reg v
  match w.reg with
  | .bondPart q _ => e.partCommit t q (d.part q)
  | .bondSeg q n 0 => e.segCommit q n v
  | .bondPlat q _ => if ringsOk (e.part q) then e.platCommit t q (d.part q) else d.conflict t w.req (d.regSrc w.reg) 0
  | .bondPort _ => e.bondDue
  | .lnkCtl l => e.linkCommit t l v (d.link l)
  | .integ k .code0 => e.codeCommit k (d.integ k.index)
  | .integ k .code1 => e.codeCommit k (d.integ k.index)
  | .hbmReg s q =>
    e.modStack s (fun k => { k with regs := vmod k.regs q (fun g =>
      { g with level := min (g.burst.toNat * 1024 * 5) ((vget Regulator.reset (d.stack s).regs q).now t.now), time := t.now }) })
  | _ => e

/-- Every waiting write takes effect, in order of arrival. -/
def Dev.commitWrites (t : TimeUnit) (d : Dev) : Dev :=
  d.pend.foldl (fun (d : Dev) w => d.commitOne t w) { d with pend := [] }

/-! ### Streams (R77, R94, R95, R114) -/

/-- Host shadows of configuration go into live and shadow, those of descriptors into the table. -/
def Stream.hostCommit (x : Stream) : Stream :=
  let set (c : Cfg) : Cfg := x.hostCfg.foldl (fun c e => cfgSet c e.1 e.2.1 e.2.2.toNat) c
  { x with
    live := set x.live, shadow := set x.shadow, hostCfg := [], hostDesc := []
    desc := x.hostDesc.foldl (fun tab e =>
      tabSet 0 tab e.1 (BitVec.ofNat 512 (setFld (tabGet 0 tab e.1).toNat (64 * e.2.1) 64 e.2.2.1.toNat))) x.desc
    descPoison := x.hostDesc.foldl (fun ps e =>
      let lo := 64 * e.1 + 8 * e.2.1
      (upTo 8).foldl (fun ps i => setPut ps (lo + i) e.2.2.2) ps) x.descPoison }

/-- An accepted RUN takes effect: the stream starts at START_IPTR of the program at TT_SQ_BASE (R76, R77, R114). -/
def Stream.start (x : Stream) (slot : Nat) : Stream :=
  { x with
    state := .run, iptr := x.startIptr, runBase := x.base, runPend := false, afterHalt := false, restart := slot, occ := none
    wait := none, stall := false, clock := none, fetch := [] }

/-- RUN and then HALT of one stream. While the domain holds, a started stream pauses at once (R62, R77). -/
def Dev.streamCommit (t : TimeUnit) (b s : Nat) (d : Dev) : Dev :=
  let d1 := if (d.stream b s).runPend then d.modStream b s (fun x => if d.hold.paused then (x.start t.slot).pause else x.start t.slot)
    else d
  let x := d1.stream b s
  let owed := match x.occ.bind d1.occ with
    | some o => o.open
    | none => false
  if x.haltPend ∧ !owed then
    (d1.enterIdle b s).modStream b s (fun x => { x with haltPend := false, afterHalt := true, occ := none })
  else d1

/-- Every stream of the device at the boundary. -/
def Dev.streamsCommit (t : TimeUnit) (d : Dev) : Dev :=
  let d1 := d.mapStreams Stream.hostCommit
  ((upTo 64).flatMap (fun b => (upTo 3).map (fun s => (b, s)))).foldl (fun (d : Dev) x =>
    if (d.stream x.1 x.2).runPend ∨ (d.stream x.1 x.2).haltPend then d.streamCommit t x.1 x.2 else d) d1

/-! ### The rest of the boundary -/

/-- Retired pages are in force, and their bond-table entries change (R362, R474). -/
def Dev.pagesCommit (d : Dev) : Dev :=
  if d.integs.toList.all (fun g => g.pagePend.isEmpty) then d
  else ({ d with integs := d.integs.map (fun g => { g with pages := g.pages ++ g.pagePend, pagePend := [] }) } : Dev).bondDue

/-- A link's slot ends: three slots in a row with more than 1/16 of replays remove a quad (R374). -/
def Link.endSlot (k : Link) (bytes : Nat) : Link :=
  { k with overSlots := if bytes < 16 * k.replayed then k.overSlots + 1 else 0, replayed := 0 }

/-- A partition at the boundary: clean quarters become usable, and a WITHDRAW takes both timetables (R435, R443). -/
def Dev.partBoundary (t : TimeUnit) (q : Nat) (d : Dev) : Dev :=
  let d1 := d.modPart q (fun p => { p with cleaning := p.cleaning &&& ~~~p.cleanDone, cleanDone := 0 })
  if (d1.part q).withdraw then (d1.dropTimetables t q lateReset).modPart q (fun p => { p with withdraw := false }) else d1

/-- Meters reload at a slot boundary, but not from the pause slot of a HOLD to its resume slot, when they are frozen (R56, R62). -/
def Dev.slotMeters (t : TimeUnit) (d : Dev) : Dev :=
  if d.hold.paused || d.hold.pauseSlot.any (fun p => decide (p ≤ t.slot)) then d else d.reloadMeters t

/-- SLOT_BOUNDARY: line time comes to the next boundary, rings with new records signal, waiting writes and host shadows commit,
RUN and HALT take effect, meters reload, rings are inspected, the STEP root sends the notice that is due, the bond table changes, and
what waited goes on. -/
def slotBoundary (t : TimeUnit) (d : Dev) : TimeUnit × Dev :=
  let t1 := t.toEdge
  let d1 := (upTo 16).foldl (fun (d : Dev) q => d.signalRings q) d
  let d2 := (d1.commitWrites t1).streamsCommit t1
  let d3 := (upTo 16).foldl (fun (d : Dev) q => d.partBoundary t1 q) d2.pagesCommit
  let d4 := (({ d3 with links := d3.links.map (fun k => k.endSlot t1.linkBytes) } : Dev).modPwr (fun p => { p with droop := [] })).slotMeters t1
  let d5 := (upTo 16).foldl (fun (d : Dev) q => d.inspect t1 q) d4
  let d6 := if d5.hold.paused then d5 else d5.sendSteps (t1.slot + 1 + t1.lead) (t1.slot + 1 + t1.lead)
  (t1, (d6.bondChange t1).goOn t1)

end Sys2Proof.Machine
end

