-- ==== Sys2Proof/Machine/Writes.lean ====
section
/-! DEFINITION. Host accesses through BAR0 with all that they start, and the control-space address of each register (R33, R71,
R76, R162, R201, R230, R273, R300, R335, R364, R402, R430, R433, R450, R475, R496). -/

namespace Sys2Proof.Machine

/-- The offset of a register of an integrity block (R364). -/
def integAddr : IntegReg → Nat
  | .eccnt0 => 0x00
  | .eccnt1 => 0x08
  | .scrub => 0x10
  | .code0 => 0x18
  | .code1 => 0x20
  | .retire => 0x28
  | .inject => 0x30
  | .eclr => 0x38
  | .log n w => 0x100 + 16 * n + 8 * w

/-- The first address of a bay's block, a stream's, a pier's, a stack's and a viaduct's (R33). -/
def bayBlock (b : Nat) : Nat := 0x80000000 + b * 0x1000000
def streamBlock (b s : Nat) : Nat := bayBlock b + 0x4000 + s * 0x1000
def pierBlock (p : Nat) : Nat := 0x40000000 + p * 0x10000000
def stackBlock (s : Nat) : Nat := pierBlock (s / 3) + 0x8000 + s % 3 * 0x1000
def viaductBlock (v : Nat) : Nat := 0x1000000 + v * 0x1000000
def linkBlock (l : Nat) : Nat := viaductBlock (l / 8) + 0x1000 + l % 8 * 0x100

/-- The first address of an integrity block's registers (R364). -/
def integBlock : IntegBlock → Nat
  | .bay b => bayBlock b + 0x2400
  | .stack s => stackBlock s + 0x200
  | .yard p => pierBlock p + 0x7000

/-- The control-space address of a register. -/
def regAddr (r : Reg) : Nat :=
  match r with
  | .holeStatus => 0x100040
  | .ltime => 0x100100
  | .sync => 0x100108
  | .step => 0x100110
  | .shift => 0x100118
  | .pwrNeed => 0x100120
  | .epoch => 0x100128
  | .timeDelay l => viaductBlock (l / 8) + 0x100 + l % 8 * 8
  | .sqCtl b s => streamBlock b s
  | .sqBase b s => streamBlock b s + 0x008
  | .sqStatus b s => streamBlock b s + 0x010
  | .sqOcc b s => streamBlock b s + 0x018
  | .sqLc b s n => streamBlock b s + 0x020 + 8 * n
  | .vecStatus b s => streamBlock b s + 0x040
  | .cfg b s g f => streamBlock b s + 0x100 + 0x40 * g + 8 * f
  | .tokens b => bayBlock b + 0x3000
  | .tokSet b => bayBlock b + 0x3008
  | .tokClr b => bayBlock b + 0x3010
  | .tokVoid b => bayBlock b + 0x3018
  | .desc b s slot w => bayBlock b + 0x10000 + s * 0x4000 + 64 * slot + 8 * w
  | .qCnt b n => bayBlock b + 0x2000 + 8 * n
  | .qClr b => bayBlock b + 0x2010
  | .mxRepair b => bayBlock b + 0x2100
  | .mxCnt b n => bayBlock b + 0x2108 + 8 * n
  | .mxClr b => bayBlock b + 0x2120
  | .vecRepair b n => bayBlock b + 0x2200 + 8 * n
  | .vecCnt b n => bayBlock b + 0x2210 + 8 * n
  | .vecClr b => bayBlock b + 0x2220
  | .ptsCnt p n => pierBlock p + 0x6000 + 8 * n
  | .ptsClr p => pierBlock p + 0x6018
  | .updCtab p => pierBlock p + 0x5000
  | .updCnt p n => pierBlock p + 0x5008 + 8 * n
  | .updClr p => pierBlock p + 0x5028
  | .updWb p q => pierBlock p + 0x5100 + 8 * q
  | .updRst p q => pierBlock p + 0x5180 + 8 * q
  | .wbCnt p => pierBlock p + 0x5200
  | .wbClr p => pierBlock p + 0x5208
  | .hbmStatus s => stackBlock s
  | .hbmLanes s => stackBlock s + 0x008
  | .hbmRetrain s => stackBlock s + 0x010
  | .hbmTherm s => stackBlock s + 0x018
  | .hbmCnt s n => stackBlock s + 0x020 + 8 * n
  | .hbmClr s => stackBlock s + 0x038
  | .hbmReg s q => stackBlock s + 0x100 + 8 * q
  | .integ k i => integBlock k + integAddr i
  | .lnkStatus l => linkBlock l
  | .lnkCtl l => linkBlock l + 0x08
  | .lnkPmap l => linkBlock l + 0x10
  | .lnkPmapEn l => linkBlock l + 0x18
  | .lnkCnt l n => linkBlock l + 0x20 + 8 * n
  | .lnkClr l => linkBlock l + 0x38
  | .fabAddr => 0x100200
  | .cwd => 0x100208
  | .route a => 0x108000 + 8 * a
  | .bondPart q w => 0x110400 + 0x10 * q + 8 * w
  | .bondSeg q n w => 0x111000 + 0x200 * q + 0x10 * n + 8 * w
  | .bondPlat q i => 0x110000 + 0x20 * q + 8 * i
  | .bondPort v => viaductBlock v + 0x2000
  | .bondHwin v i => viaductBlock v + 0x4000 + 8 * i
  | .bondBoot => 0x100300
  | .bondQuote => 0x100308
  | .bondRepair => 0x100310
  | .bondI3c => 0x100318
  | .pwrCap => 0x100400
  | .pwrSlew => 0x100408
  | .pwrVfloor => 0x100410
  | .pwrStatus => 0x100418
  | .pwrCnt n => 0x100420 + 8 * n
  | .pwrClr => 0x100430

/-- An access through BAR0, with `ep` the EP of a write, and what it starts (R349, R426, R433). -/
def hostAccess (f : Func) (o : Nat) (data : Option W64) (ep : Bool) (t : TimeUnit) (d : Dev) : TimeUnit × Dev :=
  afterWrite (bar0Access f o data ep t d)

/-- Function `f` writes a register through BAR0 (R433). -/
def hostWrite (f : Func) (r : Reg) (v : Nat) (t : TimeUnit) (d : Dev) : TimeUnit × Dev := hostAccess f (regAddr r) (some (w64 v)) false t d

end Sys2Proof.Machine
end

