-- ==== Sys2Proof/Machine/BoxCommands.lean ====
section
/-! DEFINITION. The meanings of the commands of waybills, restores, quotes and boot (chapters 14 and 16), one
definition per command over the shared operations. -/

namespace Sys2Proof.Machine

/-- DRAIN_QUEUED_START (R407). A drain waiting for the partition's previous drain starts when that drain ends. -/
def execDrainQueuedStart (p : Fin 4) (q : Fin 16) (s : State) : Host.Outcome State Fault Refusal :=
  s.run (drainQueued p q)

/-- DRAIN_COMPLETE (R413). A drain writes its header COMPLETE after every WACK, sets its token and queues its
signature. -/
def execDrainComplete (p : Fin 4) (q : Fin 16) (s : State) : Host.Outcome State Fault Refusal :=
  s.run (drainComplete p q)

/-- WAYBILL_SIGNED (R414). The signal box finishes a signature, writes WB_SIG and sets SIGNED. -/
def execWaybillSigned (s : State) : Host.Outcome State Fault Refusal :=
  s.run (waybillSigned)

/-- RESTORE_GO (R426). A write of UPD_RSTq.GO starts a restore. -/
def execRestoreGo (f : Func) (p : Fin 4) (q : Fin 16) (order : BitVec 52)
    (s : State) : Host.Outcome State Fault Refusal :=
  s.runBoth (hostWrite f (.updRst p q) (restoreValue order.toNat))

/-- RESTORE_COMPLETE (R428). A restore finishes; line headers and records are written and STATE is 2, or it is refused
with STATE 3. -/
def execRestoreComplete (p : Fin 4) (q : Fin 16) (s : State) : Host.Outcome State Fault Refusal :=
  s.run (restoreComplete p q)

/-- QUOTE_GO (R465). A write of BOND_QUOTE.GO requests a quote. -/
def execQuoteGo (f : Func) (buf : BitVec 52) (s : State) : Host.Outcome State Fault Refusal :=
  s.runBoth (hostWrite f .bondQuote (quoteValue buf.toNat))

/-- QUOTE_DONE (R466). A quote is signed and visible, and STATE becomes 2. -/
def execQuoteDone (s : State) : Host.Outcome State Fault Refusal :=
  s.run (quoteDone)

/-- REPAIR_RECORD_WRITE (R464). Ehrush writes a new repair record after a change of the applied set. -/
def execRepairRecordWrite (s : State) : Host.Outcome State Fault Refusal :=
  s.runDev (repairRecordWrite)

/-- REPAIR_RECORD_DONE (R464). The record write is checked and PENDING returns to 0. -/
def execRepairRecordDone (s : State) : Host.Outcome State Fault Refusal :=
  s.runDev (repairRecordDone)

/-- ROM_DONE (R454). Stage 0 verifies the flash directory and loads Ehrush, or enters RECOVERY. -/
def execRomDone (sig0 : Bool) (sig1 : Bool) (s : State) : Host.Outcome State Fault Refusal :=
  s.runDev (romDone sig0 sig1)

/-- IMAGES_DONE (R456). Stage 1 rebuilds the identity key, loads the images and releases the other dies from reset. -/
def execImagesDone (puf : Bool) (s : State) : Host.Outcome State Fault Refusal :=
  s.runDev (imagesDone puf)

/-- SELFTEST_DONE (R459). Stage 2 completes self-test, HBM training, repairs and map-outs. -/
def execSelftestDone (found : Findings) (s : State) : Host.Outcome State Fault Refusal :=
  s.run (selftestDone found)

/-- PUBLISHED (R472). Stage 3 publishes the bond table and measurements, links begin training and held boot records
are released. -/
def execPublished (s : State) : Host.Outcome State Fault Refusal :=
  s.run (published)

end Sys2Proof.Machine
end

