-- ==== Sys2Proof/Machine/Chain.lean ====
section
/-! DEFINITION. The I3C target: common commands, private commands and private reads (R468 to R471). Answers are of kind 8,
a NACK of kind 9. -/

namespace Sys2Proof.Machine

/-- A request through I3C: it acts as the administrative function, and its hole accesses belong to no partition (R37, R470). -/
def chainReq : Req := { boxReq with func := some Func.admin }

/-- Whether the target answers at its dynamic address (R452, R469). -/
def Dev.addressed (d : Dev) : Bool := d.powered && d.box.daValid

/-- Give the controller some bytes. -/
def Dev.i3cAnswer (bs : List Nat) (d : Dev) : Dev := d.answer 8 0 (byteList bs) []

/-! ### Common command codes (R468, R469) -/

/-- ENTDAA: with CHAIN_IN asserted and no address held the device takes the address and asserts CHAIN_OUT (R469). -/
def entdaa (chainIn : Bool) (da : BitVec 7) (d : Dev) : Dev :=
  let d1 := d.modBox (fun x => { x with chainIn := chainIn })
  if !d.powered ∨ !chainIn ∨ d.box.daValid then d1
  else d1.modBox (fun x => { x with da := da, daValid := true, chainOut := true })

/-- RSTDAA: the address is lost and CHAIN_OUT deasserted (R469). -/
def rstdaa (d : Dev) : Dev :=
  if !d.powered then d else d.modBox (fun x => { x with da := 0, daValid := false, chainOut := false })

/-- SETNEWDA: a device that holds an address takes a new one. -/
def setnewda (da : BitVec 7) (d : Dev) : Dev := if d.addressed then d.modBox (fun x => { x with da := da }) else d

/-- GETPID: the provisional ID, most significant byte first (PRESUMED, log entry 41). -/
def getpid (d : Dev) : Dev := if d.addressed then d.i3cAnswer (toBytes 6 d.pid).reverse else d

/-- GETBCR: 0x06. -/
def getbcr (d : Dev) : Dev := if d.addressed then d.i3cAnswer [0x06] else d

/-- GETDCR: 0x00. -/
def getdcr (d : Dev) : Dev := if d.addressed then d.i3cAnswer [0x00] else d

/-- An answer of `n` bytes that the spec does not give (DESIGN CHOICE, log entry 3). -/
def Dev.freeAnswer (n : Nat) (d : Dev) : Dev :=
  let (v, d1) := d.takeFree
  d1.i3cAnswer (toBytes n v.toNat)

/-- GETSTATUS, GETMWL and GETMRL: the values are the device's own, which the spec does not give. -/
def getstatus (d : Dev) : Dev := if d.addressed then d.freeAnswer 2 else d
def getmwl (d : Dev) : Dev := if d.addressed then d.freeAnswer 2 else d
def getmrl (d : Dev) : Dev := if d.addressed then d.freeAnswer 3 else d

/-- ENEC and DISEC enable and disable in-band interrupts (R471); `intr` says that the event byte names them. -/
def enec (intr : Bool) (d : Dev) : Dev := if d.powered ∧ intr then d.modBox (fun x => { x with ibiEn := true }) else d
def disec (intr : Bool) (d : Dev) : Dev := if d.powered ∧ intr then d.modBox (fun x => { x with ibiEn := false }) else d

/-! ### Private commands (R470) -/

/-- The register of the signal-box block at an address, as I3C reaches it. -/
def chainReg (a : Nat) : Option Reg := if 0x100000 ≤ a ∧ a < 0x200000 then regAt a else none

/-- One word as I3C reads it: from the bond table or a register of the signal-box block; anything else is a hole, and each word in one
is an access of its own (R36, R470; DESIGN CHOICE, log entry 140). -/
def Dev.chainWord (t : TimeUnit) (a : Nat) (d : Dev) : Nat × Dev :=
  if a < 0x100000 ∧ a % 8 = 0 then (d.bondWord (a / 8), d)
  else
    match chainReg a with
    | some r => (d.readReg t r, d)
    | none => (0, d.countHole chainReq a)

/-- READ: prepare up to 256 words for the next private read. -/
def i3cRead (a words : Nat) (t : TimeUnit) (d : Dev) : Dev :=
  if !d.addressed then d
  else
    let r := (upTo (min 256 words)).foldl (fun (acc : List Nat × Dev) i =>
      let x := acc.2.chainWord t (a + 8 * i)
      (acc.1 ++ toBytes 8 x.1, x.2)) ([], d)
    r.2.modBox (fun x => { x with reply := .data r.1 })

/-- One word that I3C writes; each in a hole is an access of its own (R36, R470; DESIGN CHOICE, log entry 140). -/
def chainPut (a : Nat) (v : W64) (s : TimeUnit × Dev) : TimeUnit × Dev :=
  match chainReg a with
  | some r => s.2.regWrite chainReq r v.toNat s.1
  | none => (s.1, s.2.countHole chainReq a)

/-- WRITE: up to 32 words as the administrative function writes them. -/
def i3cWrite (a : Nat) (ws : List W64) (t : TimeUnit) (d : Dev) : TimeUnit × Dev :=
  if !d.addressed then (t, d)
  else afterWrite (((ws.take 32).zipIdx).foldl (fun (s : TimeUnit × Dev) x => chainPut (a + 8 * x.2) x.1 s) (t, d))

/-- QUOTE: queue a quote for the next private read; without an identity that read returns 0xFF bytes (R465, R470). -/
def i3cQuote (nonce : List Byte) (d : Dev) : Dev :=
  if !d.addressed then d
  else if d.box.idState = 2 then d.modBox (fun x => { x with reply := .data (List.replicate 1536 0xFF) })
  else
    let n := natBytes (nonce.take 64)
    { d.modBox (fun x => { x with reply := .nack }) with
      bond := { d.bond with signer := d.bond.signer ++ [.quote none (some (n ++ List.replicate (64 - n.length) 0, [])) none] } }

/-- Whether flash commands are accepted (R470). -/
def Dev.flashOpen (d : Dev) : Bool := d.addressed && (d.box.stage == 3 || d.box.stage == 4)

/-- FERASE: a 64 KiB sector reads 0xFF (R470; PRESUMED, log entry 42). -/
def ferase (o : Nat) (d : Dev) : Dev := if d.flashOpen ∧ o % 0x10000 = 0 then d.flashPut o (List.replicate 0x10000 0xFF) else d

/-- FPROG: programming takes bits of up to 256 bytes from 1 to 0 (R470; PRESUMED, log entry 42). -/
def fprog (o : Nat) (data : List Byte) (d : Dev) : Dev :=
  if d.flashOpen then d.flashPut o (((data.take 256).zipIdx).map (fun x => d.flashByte (o + x.2) &&& x.1.toNat)) else d

/-- A private read: the prepared data once, or a NACK while a quote is not ready or nothing is prepared (R470; DESIGN CHOICE, log entry 43). -/
def i3cPrivateRead (d : Dev) : Dev :=
  if !d.addressed then d
  else
    match d.box.reply with
    | .data bs => (d.modBox (fun x => { x with reply := .none })).i3cAnswer bs
    | _ => d.answer 9 0 [] []

end Sys2Proof.Machine
end

