-- ==== Sys2Proof/Machine/ChainCommands.lean ====
section
/-! DEFINITION. The meanings of the commands of the management chain (R470), one definition per command over the
shared operations. -/

namespace Sys2Proof.Machine

/-- ENTDAA (R469). ENTDAA assigns a dynamic address to the device while CHAIN_IN is asserted, and it then asserts
CHAIN_OUT. -/
def execEntdaa (chainIn : Bool) (da : BitVec 7) (s : State) : Host.Outcome State Fault Refusal :=
  s.runDev (entdaa chainIn da)

/-- RSTDAA (R469). RSTDAA removes the dynamic address and deasserts CHAIN_OUT. -/
def execRstdaa (s : State) : Host.Outcome State Fault Refusal :=
  s.runDev (rstdaa)

/-- SETNEWDA (R468). SETNEWDA changes the dynamic address. -/
def execSetnewda (da : BitVec 7) (s : State) : Host.Outcome State Fault Refusal :=
  s.runDev (setnewda da)

/-- GETPID (R468). GETPID returns the provisional ID. -/
def execGetpid (s : State) : Host.Outcome State Fault Refusal :=
  s.runDev (getpid)

/-- GETBCR (R468). GETBCR returns BCR 0x06. -/
def execGetbcr (s : State) : Host.Outcome State Fault Refusal :=
  s.runDev (getbcr)

/-- GETDCR (R468). GETDCR returns DCR 0x00. -/
def execGetdcr (s : State) : Host.Outcome State Fault Refusal :=
  s.runDev (getdcr)

/-- GETSTATUS (R468). GETSTATUS returns the target status. -/
def execGetstatus (s : State) : Host.Outcome State Fault Refusal :=
  s.runDev (getstatus)

/-- GETMWL (R468). GETMWL returns the maximum write length. -/
def execGetmwl (s : State) : Host.Outcome State Fault Refusal :=
  s.runDev (getmwl)

/-- GETMRL (R468). GETMRL returns the maximum read length. -/
def execGetmrl (s : State) : Host.Outcome State Fault Refusal :=
  s.runDev (getmrl)

/-- ENEC (R468). ENEC enables IBIs. -/
def execEnec (intr : Bool) (s : State) : Host.Outcome State Fault Refusal :=
  s.runDev (enec intr)

/-- DISEC (R468). DISEC disables IBIs. -/
def execDisec (intr : Bool) (s : State) : Host.Outcome State Fault Refusal :=
  s.runDev (disec intr)

/-- I3C_READ (R470). Private command READ prepares data from the bond table or signal-box block for the next private
read. -/
def execI3cRead (a : W64) (words : Nat) (s : State) : Host.Outcome State Fault Refusal :=
  s.run (i3cRead a.toNat words)

/-- I3C_WRITE (R470). Private command WRITE writes words as the administrative function. -/
def execI3cWrite (a : W64) (ws : List W64) (s : State) : Host.Outcome State Fault Refusal :=
  s.runBoth (i3cWrite a.toNat ws)

/-- I3C_QUOTE (R470). Private command QUOTE requests a quote for the next private read. -/
def execI3cQuote (nonce : List Byte) (s : State) : Host.Outcome State Fault Refusal :=
  s.runDev (i3cQuote nonce)

/-- FERASE (R470). Private command FERASE erases a 64 KiB flash sector in stages 3 and 4. -/
def execFerase (o : W32) (s : State) : Host.Outcome State Fault Refusal :=
  s.runDev (ferase o.toNat)

/-- FPROG (R470). Private command FPROG programs flash bytes in stages 3 and 4. -/
def execFprog (o : W32) (data : List Byte) (s : State) : Host.Outcome State Fault Refusal :=
  s.runDev (fprog o.toNat data)

/-- I3C_PRIVATE_READ (R470). A private read returns the prepared data, NACKs until a quote is ready, or returns 0xFF
bytes. -/
def execI3cPrivateRead (s : State) : Host.Outcome State Fault Refusal :=
  s.runDev (i3cPrivateRead)

end Sys2Proof.Machine
end

