-- ==== Sys2Proof/Machine/HostCommands.lean ====
section
/-! DEFINITION. The meanings of the commands of hosts, submissions and partitions (chapter 15), one definition per
command over the shared operations. -/

namespace Sys2Proof.Machine

/-- SUBMIT_INSTALL (R443). An INSTALL submission starts admission of a timetable. -/
def execSubmitInstall (q : Fin 16) (w : W512) (s : State) : Host.Outcome State Fault Refusal :=
  s.run (fun t d => submitInstall t q (withKind 1 w.toNat) d)

/-- ADMISSION_COMPLETE (R49). Admission finishes; the timetable is accepted with its promise array and reply, or
refused with an ADMISSION_REFUSED record. -/
def execAdmissionComplete (q : Fin 16) (s : State) : Host.Outcome State Fault Refusal :=
  s.run (admissionComplete q)

/-- SUBMIT_WITHDRAW (R443). A WITHDRAW submission removes both timetables at the next boundary with cause RESET. -/
def execSubmitWithdraw (q : Fin 16) (w : W512) (s : State) : Host.Outcome State Fault Refusal :=
  s.run (fun t d => submitWithdraw t q (withKind 2 w.toNat) d)

/-- SUBMIT_START (R443). A START submission writes TT_SQ_BASE and RUN for the masked streams. -/
def execSubmitStart (q : Fin 16) (w : W512) (s : State) : Host.Outcome State Fault Refusal :=
  s.run (fun t d => submitStart t q (withKind 3 w.toNat) d)

/-- SUBMIT_MODEL (R446). A MODEL submission writes TT_SQ_MODEL into the host shadow of the masked streams. -/
def execSubmitModel (q : Fin 16) (w : W512) (s : State) : Host.Outcome State Fault Refusal :=
  s.run (fun t d => submitModel t q (withKind 4 w.toNat) d)

/-- SUBMIT_RESET (R443). A RESET submission requests partition reset. -/
def execSubmitReset (q : Fin 16) (w : W512) (s : State) : Host.Outcome State Fault Refusal :=
  s.run (fun t d => submitReset t q (withKind 5 w.toNat) d)

/-- PARTITION_RESET (R440). At the next boundary a partition is reset: occurrences withdrawn, timetables discarded,
streams idled, tokens cleared, restore stopped. -/
def execPartitionReset (q : Fin 16) (s : State) : Host.Outcome State Fault Refusal :=
  s.run (thenGo (partitionReset q))

/-- QUARTER_CLEAN_DONE (R435). The zeroing of a quarter entering a partition ends and the quarter becomes usable. -/
def execQuarterCleanDone (q : Fin 16) (i : Fin 16) (s : State) : Host.Outcome State Fault Refusal :=
  s.runDev (quarterCleanDone q i)

/-- SEGMENT_ZERO_DONE (R436). The zeroing of a window with ZERO set ends and the window becomes valid. -/
def execSegmentZeroDone (q : Fin 16) (i : Fin 32) (s : State) : Host.Outcome State Fault Refusal :=
  s.run (thenGo (segmentZeroDone q i))

/-- BAR0_ACCESS (R433). A host request through BAR0 reaches control space, or is treated as a hole access. -/
def execBar0Access (f : Func) (o : W32) (data : Option (W64 × Bool)) (s : State) : Host.Outcome State Fault Refusal :=
  s.runBoth (hostAccess f o.toNat (data.map (·.1)) (data.any (·.2)))

/-- BAR2_ACCESS (R437). A host request through BAR2 reaches the partition's segment windows as unclaimed traffic. -/
def execBar2Access (f : Func) (o : W64) (n : Nat) (data : Option (List Byte)) (ep : Bool)
    (s : State) : Host.Outcome State Fault Refusal :=
  s.run (bar2Access f o.toNat n data ep)

/-- CONFIG_REQUEST (R452). A PCIe configuration request is answered, with retry status before stage 3. -/
def execConfigRequest (f : Func) (c : CfgReq) (s : State) : Host.Outcome State Fault Refusal :=
  s.runDev (configRequest f c)

/-- FUNCTION_LEVEL_RESET (R440). A function level reset of an owner function resets its partition. -/
def execFunctionLevelReset (f : Func) (s : State) : Host.Outcome State Fault Refusal :=
  s.run (functionReset f)

/-- PERST (R494). PEv_PERST_N resets port v alone. -/
def execPerst (port : Fin 4) (low : Bool) (s : State) : Host.Outcome State Fault Refusal :=
  s.runDev (perst port low)

end Sys2Proof.Machine
end

