-- ==== Sys2Proof/Machine/LineCommands.lean ====
section
/-! DEFINITION. The meanings of the commands of line time, slots, occurrences, STEP and HOLD (chapter 2), one
definition per command over the shared operations. -/

namespace Sys2Proof.Machine

/-- OCCURRENCE_DEPARTURE_SLOT (R88). An occurrence reaches its departure slot; it may be cancelled (faulted or halted
stream) or start a drain. -/
def execDepartureSlot (q : Fin 16) (e : BitVec 14) (k : Nat) (s : State) : Host.Outcome State Fault Refusal :=
  s.run (departure q e.toNat k)

/-- OCCURRENCE_DELIVERED (R87). The work of every bay in the mask has completed; the completion token is set in every
bay and the meters release. -/
def execOccurrenceDelivered (q : Fin 16) (e : BitVec 14) (k : Nat) (s : State) : Host.Outcome State Fault Refusal :=
  s.run (thenGo (occurrenceDelivered q e.toNat k))

/-- PROMISE_EXPIRY (R499). An occurrence is undelivered at the end of its promised slot; it is withdrawn with LATE
cause OVERRUN. -/
def execPromiseExpiry (q : Fin 16) (e : BitVec 14) (k : Nat) (s : State) : Host.Outcome State Fault Refusal :=
  s.run (promiseExpiry q e.toNat k)

/-- SLOT_BOUNDARY (R44). Line time reaches a multiple of L; meters reload and everything pending for the boundary
commits. -/
def execSlotBoundary (s : State) : Host.Outcome State Fault Refusal :=
  s.runBoth (slotBoundary)

/-- SLOT_LENGTH_CHANGE (R44). An accepted SLOT_LOG2 change takes effect at the first boundary common to both lengths.
-/
def execSlotLengthChange (s : State) : Host.Outcome State Fault Refusal :=
  s.runTime (slotLengthChange)

/-- TIMETABLE_TAKEOVER (R47). A staged replacement becomes installed at its TH_BASE. -/
def execTimetableTakeover (q : Fin 16) (s : State) : Host.Outcome State Fault Refusal :=
  s.run (takeover q)

/-- TIMETABLE_REMOVAL (R498). A timetable with finite TH_STEPS is removed at the boundary after all its occurrences
are delivered or withdrawn. -/
def execTimetableRemoval (q : Fin 16) (s : State) : Host.Outcome State Fault Refusal :=
  s.run (removal q)

/-- STEP_BOUNDARY (R68). A timetable reaches a step boundary; the STEP root sets STEP, and reduced capacity is
rechecked. -/
def execStepBoundary (q : Fin 16) (s : State) : Host.Outcome State Fault Refusal :=
  s.run (stepBoundary q)

/-- STEP_APPLY (R69). A pending broadcast STEP value is applied to TT_STEP at its effective slot. -/
def execStepApply (s : State) : Host.Outcome State Fault Refusal :=
  s.run (stepApply)

/-- MAINTENANCE_SPAN_START (R321, R367). A maintenance entry's span begins; due channels and links that lack width retrain. -/
def execMaintStart (q : Fin 16) (e : BitVec 14) (k : Nat) (s : State) : Host.Outcome State Fault Refusal :=
  s.run (maintenanceStart q e.toNat k)

/-- MAINTENANCE_SPAN_END (R65). A maintenance entry is delivered when its span ends. -/
def execMaintEnd (q : Fin 16) (e : BitVec 14) (k : Nat) (s : State) : Host.Outcome State Fault Refusal :=
  s.run (thenGo (maintEnd q e.toNat k))

/-- HOLD_SEND (R61). At the boundary after a hold cause arises, the device sends HOLD with its pause slot over all
links. -/
def execHoldSend (s : State) : Host.Outcome State Fault Refusal :=
  s.run (holdSend)

/-- PAUSE_SLOT (R62). The pause boundary comes; streams stop issuing, meters, tokens and departures freeze, and
undelivered promises are withdrawn. -/
def execPauseSlot (s : State) : Host.Outcome State Fault Refusal :=
  s.run (pauseSlot)

/-- RESUME_SEND (R63). A device whose hold cause has cleared sends RESUME with a resume slot. -/
def execResumeSend (s : State) : Host.Outcome State Fault Refusal :=
  s.run (resumeSend)

/-- RESUME_SLOT (R63). The domain resumes at the latest resume slot; TT_SHIFT grows by the length of the hold. -/
def execResumeSlot (s : State) : Host.Outcome State Fault Refusal :=
  s.run (thenGo resumeSlot)

/-- EPOCH_INSTANT (R40). LMARK is sampled high at an LREF edge; in ACQUIRING the count is loaded from TT_EPOCH or set
to the next epoch. -/
def execEpochInstant (s : State) : Host.Outcome State Fault Refusal :=
  s.runTime (epochInstant)

/-- TIME_SOURCE_PRESENT (R41). The time source appears and the line-time unit enters ACQUIRING. -/
def execTimeSourcePresent (s : State) : Host.Outcome State Fault Refusal :=
  s.runTime (timeSourcePresent)

/-- TIME_LOCK (R41). After 16 consecutive good measurements the line-time unit enters LOCKED and timetables resume
after a TIME withdrawal. -/
def execTimeLock (s : State) : Host.Outcome State Fault Refusal :=
  s.runBoth (timeLock)

/-- TIME_SOURCE_LOST (R41). The time source is lost; LOCKED goes to HOLDOVER and ACQUIRING to UNLOCKED. -/
def execTimeSourceLost (s : State) : Host.Outcome State Fault Refusal :=
  s.runBoth (timeSourceLost)

/-- TIME_SOURCE_REGAINED (R41). In HOLDOVER the source returns within ±4 ns and the unit returns to LOCKED. -/
def execTimeSourceRegained (offset : Int) (s : State) : Host.Outcome State Fault Refusal :=
  s.runTime (fun t => timeSourceRegained t offset)

/-- HOLDOVER_EXPIRY (R41). 10 ms pass in HOLDOVER; the unit goes UNLOCKED and every occurrence is withdrawn with cause
TIME. -/
def execHoldoverExpiry (s : State) : Host.Outcome State Fault Refusal :=
  s.runBoth (holdoverExpiry)

/-- LREF_EDGE (R40). An LREF rising edge in pin mode gives one offset measurement that steers the PLL and counts
toward the 16 consecutive measurements that lock. -/
def execLrefEdge (s : State) : Host.Outcome State Fault Refusal :=
  s.runTime (lrefEdge)

end Sys2Proof.Machine
end

