-- ==== Sys2Proof/Machine/LinkCommands.lean ====
section
/-! DEFINITION. The meanings of the commands of the Ozrinen links and their packets (chapters 2 and 13), one
definition per command over the shared operations. -/

namespace Sys2Proof.Machine

/-- STEP_NOTICE (R397). A STEP notice arrives on the source link and is held as a pending value. -/
def execStepNotice (l : Fin 32) (p : Packet) (s : State) : Host.Outcome State Fault Refusal :=
  s.run (stepPacket l p)

/-- HOLD_NOTICE (R397). A HOLD notice arrives, is forwarded once and sets the device's pause. -/
def execHoldNotice (l : Fin 32) (p : Packet) (s : State) : Host.Outcome State Fault Refusal :=
  s.run (holdPacket l p)

/-- RESUME_NOTICE (R397). A RESUME notice arrives and is forwarded once. -/
def execResumeNotice (l : Fin 32) (p : Packet) (s : State) : Host.Outcome State Fault Refusal :=
  s.run (resumePacket l p)

/-- TIME_EXCHANGE (R43). Every 65,536 lt a link sends a time packet. -/
def execTimeExchange (l : Fin 32) (frac : Fin 16) (s : State) : Host.Outcome State Fault Refusal :=
  s.run (timeSend l frac)

/-- TIME_PACKET (R395). A TIME packet arrives; delay and offset are updated and STEP and lock state are taken. -/
def execTimePacket (l : Fin 32) (p : Packet) (rx : W64) (s : State) : Host.Outcome State Fault Refusal :=
  s.runBoth (timeArrival l p rx.toNat)

/-- CAP_PACKET (R369). A CAP packet arrives at bring-up; the version is negotiated and quads agreed, or the link stays
DOWN. -/
def execCapPacket (l : Fin 32) (p : Packet) (s : State) : Host.Outcome State Fault Refusal :=
  s.run (capArrival l p)

/-- LINK_TRAINED (R474). Link training ends; the link becomes UP at its width or DOWN. -/
def execLinkTrained (l : Fin 32) (quads : BitVec 4) (s : State) : Host.Outcome State Fault Refusal :=
  s.run (linkTrained l quads.toNat)

/-- QUAD_LOSS (R367). A quad leaves service; the link pauses, realigns, replays and continues at reduced width, or
goes DOWN. -/
def execQuadLoss (l : Fin 32) (quad : Fin 4) (signal : Bool) (s : State) : Host.Outcome State Fault Refusal :=
  s.run (quadLoss l quad signal)

/-- LINK_RETRAIN (R402). A write of LNK_CTL.RETRAIN retrains the link at full permitted width. -/
def execLinkRetrain (f : Func) (l : Fin 32) (s : State) : Host.Outcome State Fault Refusal :=
  s.runBoth (fun t d => hostWrite f (.lnkCtl l) (d.retrainValue t l) t d)

/-- PACKET_NAK (R373). A packet arrives with a bad CRC or uncorrectable codeword, is dropped, and NAK requests replay.
-/
def execPacketNak (l : Fin 32) (unc : Vector Nat 4) (s : State) : Host.Outcome State Fault Refusal :=
  s.runDev (packetNak l unc)

/-- PACKET_REPLAY (R373). A NAK is received and the sender replays from the packet after ACK. -/
def execPacketReplay (l : Fin 32) (ack : BitVec 16) (s : State) : Host.Outcome State Fault Refusal :=
  s.runDev (packetReplay l ack)

/-- REPLAY_THRESHOLD (R374). Replayed bytes in a slot exceed 1/64 (CAUTION) or 1/16 for three slots (quad removed). -/
def execReplayThreshold (l : Fin 32) (quad : Fin 4) (s : State) : Host.Outcome State Fault Refusal :=
  s.run (replayThreshold l quad)

/-- IDLE_PACKET (R371). An IDLE packet arrives and delivers ACK and credits. -/
def execIdlePacket (l : Fin 32) (p : Packet) (s : State) : Host.Outcome State Fault Refusal :=
  s.runDev (idlePacket l p)

/-- UNKNOWN_PACKET (R371). A packet of reserved TYPE arrives and is discarded and counted in BADPKT. -/
def execUnknownPacket (l : Fin 32) (p : Packet) (s : State) : Host.Outcome State Fault Refusal :=
  s.runDev (unknownPacket l p)

/-- RD (R380). An RD packet arrives, is checked, and is answered with data or refused. -/
def execRdPacket (l : Fin 32) (p : Packet) (s : State) : Host.Outcome State Fault Refusal :=
  s.run (rdPacket l p)

/-- WR (R380). A WR packet arrives, is checked, and is written or refused with WACK. -/
def execWrPacket (l : Fin 32) (p : Packet) (s : State) : Host.Outcome State Fault Refusal :=
  s.run (wrPacket l p)

/-- AT (R380). An AT packet arrives and is sent to the memory-side unit, or refused. -/
def execAtPacket (l : Fin 32) (p : Packet) (s : State) : Host.Outcome State Fault Refusal :=
  s.run (atPacket l p)

/-- RDR (R371). An RDR packet arrives carrying read data, or a refusal, for an outstanding read. -/
def execRdrPacket (l : Fin 32) (p : Packet) (s : State) : Host.Outcome State Fault Refusal :=
  s.run (rdrArrival l p)

/-- WACK (R381). A WACK arrives and completes a peer write or memory-side operation. -/
def execWackPacket (l : Fin 32) (p : Packet) (s : State) : Host.Outcome State Fault Refusal :=
  s.run (wackArrival l p)

/-- COLL_PACKET (R400). A COLL packet arrives and is combined or copied into the running collective, or discarded. -/
def execCollPacket (l : Fin 32) (p : Packet) (s : State) : Host.Outcome State Fault Refusal :=
  s.run (collPacket l p)

/-- CAUTION_NOTICE (R396). A CAUTION notice arrives over one hop. -/
def execCautionNotice (l : Fin 32) (p : Packet) (s : State) : Host.Outcome State Fault Refusal :=
  s.runDev (cautionPacket l p)

/-- PEERLATE (R398). A PEERLATE notice arrives; TE_COLL occurrences of that path set are withdrawn with cause PEER. -/
def execPeerLate (l : Fin 32) (p : Packet) (s : State) : Host.Outcome State Fault Refusal :=
  s.run (peerLatePacket l p)

/-- ABANDON (R399). An ABANDON notice with a matching sequence arrives; the COLL is abandoned with DST poisoned. -/
def execAbandon (l : Fin 32) (p : Packet) (s : State) : Host.Outcome State Fault Refusal :=
  s.run (abandonPacket l p)

end Sys2Proof.Machine
end

