-- ==== Sys2Proof/Machine/MemoryCommands.lean ====
section
/-! DEFINITION. The meanings of the commands of memory and integrity (chapters 11 and 12), one definition per command
over the shared operations. -/

namespace Sys2Proof.Machine

/-- MEMORY_READ (R301). A read request reaches a memory controller and returns the latest accepted value, corrected or
poisoned. -/
def execMemoryRead (a : BitVec 52) (n : Nat) (src : BitVec 16) (part : Option (Fin 16)) (tag : Nat) (die : Fin 5)
    (s : State) : Host.Outcome State Fault Refusal :=
  s.run (memoryRead a.toNat n src.toNat tag die (part.map Fin.val))

/-- MEMORY_WRITE (R301). A write request is accepted by its memory controller and becomes visible. -/
def execMemoryWrite (a : BitVec 52) (src : BitVec 16) (part : Option (Fin 16)) (data : List Byte) (poison : List Bool) (mask : List Bool)
    (s : State) : Host.Outcome State Fault Refusal :=
  s.runBoth (fun t d => afterWrite (memoryWrite a.toNat src.toNat (part.map Fin.val) data poison mask t d))

/-- CORRECTION_WRITEBACK (R347). A corrected word is written back in the bank's next idle cycle unless a later write
was accepted. -/
def execCorrectionWriteback (a : BitVec 52) (s : State) : Host.Outcome State Fault Refusal :=
  s.runDev (correctionWriteback a.toNat)

/-- MERGE_EVICT (R318). A sector evicted from the merge buffer is written back to the stack. -/
def execMergeEvict (k : Fin 12) (s : State) : Host.Outcome State Fault Refusal :=
  s.runDev (mergeEvict k)

/-- MS_MERGE (R316). Memory-side merge: the masked bytes replace the old bytes. -/
def execMsMerge (a : BitVec 52) (src : BitVec 16) (part : Option (Fin 16)) (data : List Byte) (poison : List Bool) (mask : List Bool)
    (s : State) : Host.Outcome State Fault Refusal :=
  s.run (msRequest 0x0 a.toNat data poison mask src.toNat (part.map Fin.val))

/-- MS_ADD_FP32 (R317). Memory-side FP32 add. -/
def execMsAddFp32 (a : BitVec 52) (src : BitVec 16) (part : Option (Fin 16)) (data : List Byte) (poison : List Bool) (mask : List Bool)
    (s : State) : Host.Outcome State Fault Refusal :=
  s.run (msRequest 0x1 a.toNat data poison mask src.toNat (part.map Fin.val))

/-- MS_ADD_BF16 (R317). Memory-side BF16 add. -/
def execMsAddBf16 (a : BitVec 52) (src : BitVec 16) (part : Option (Fin 16)) (data : List Byte) (poison : List Bool) (mask : List Bool)
    (s : State) : Host.Outcome State Fault Refusal :=
  s.run (msRequest 0x2 a.toNat data poison mask src.toNat (part.map Fin.val))

/-- MS_ADD_INT32 (R317). Memory-side INT32 add. -/
def execMsAddInt32 (a : BitVec 52) (src : BitVec 16) (part : Option (Fin 16)) (data : List Byte) (poison : List Bool) (mask : List Bool)
    (s : State) : Host.Outcome State Fault Refusal :=
  s.run (msRequest 0x3 a.toNat data poison mask src.toNat (part.map Fin.val))

/-- MS_ADD_INT64 (R317). Memory-side INT64 add. -/
def execMsAddInt64 (a : BitVec 52) (src : BitVec 16) (part : Option (Fin 16)) (data : List Byte) (poison : List Bool) (mask : List Bool)
    (s : State) : Host.Outcome State Fault Refusal :=
  s.run (msRequest 0x4 a.toNat data poison mask src.toNat (part.map Fin.val))

/-- MS_MAX_FP32 (R317). Memory-side FP32 maximum. -/
def execMsMaxFp32 (a : BitVec 52) (src : BitVec 16) (part : Option (Fin 16)) (data : List Byte) (poison : List Bool) (mask : List Bool)
    (s : State) : Host.Outcome State Fault Refusal :=
  s.run (msRequest 0x5 a.toNat data poison mask src.toNat (part.map Fin.val))

/-- MS_MIN_FP32 (R317). Memory-side FP32 minimum. -/
def execMsMinFp32 (a : BitVec 52) (src : BitVec 16) (part : Option (Fin 16)) (data : List Byte) (poison : List Bool) (mask : List Bool)
    (s : State) : Host.Outcome State Fault Refusal :=
  s.run (msRequest 0x6 a.toNat data poison mask src.toNat (part.map Fin.val))

/-- MS_MAX_BF16 (R317). Memory-side BF16 maximum. -/
def execMsMaxBf16 (a : BitVec 52) (src : BitVec 16) (part : Option (Fin 16)) (data : List Byte) (poison : List Bool) (mask : List Bool)
    (s : State) : Host.Outcome State Fault Refusal :=
  s.run (msRequest 0x7 a.toNat data poison mask src.toNat (part.map Fin.val))

/-- MS_MIN_BF16 (R317). Memory-side BF16 minimum. -/
def execMsMinBf16 (a : BitVec 52) (src : BitVec 16) (part : Option (Fin 16)) (data : List Byte) (poison : List Bool) (mask : List Bool)
    (s : State) : Host.Outcome State Fault Refusal :=
  s.run (msRequest 0x8 a.toNat data poison mask src.toNat (part.map Fin.val))

/-- MS_MAX_INT32 (R317). Memory-side signed INT32 maximum. -/
def execMsMaxInt32 (a : BitVec 52) (src : BitVec 16) (part : Option (Fin 16)) (data : List Byte) (poison : List Bool) (mask : List Bool)
    (s : State) : Host.Outcome State Fault Refusal :=
  s.run (msRequest 0x9 a.toNat data poison mask src.toNat (part.map Fin.val))

/-- MS_MIN_INT32 (R317). Memory-side signed INT32 minimum. -/
def execMsMinInt32 (a : BitVec 52) (src : BitVec 16) (part : Option (Fin 16)) (data : List Byte) (poison : List Bool) (mask : List Bool)
    (s : State) : Host.Outcome State Fault Refusal :=
  s.run (msRequest 0xa a.toNat data poison mask src.toNat (part.map Fin.val))

/-- MS_MAX_INT64 (R317). Memory-side signed INT64 maximum. -/
def execMsMaxInt64 (a : BitVec 52) (src : BitVec 16) (part : Option (Fin 16)) (data : List Byte) (poison : List Bool) (mask : List Bool)
    (s : State) : Host.Outcome State Fault Refusal :=
  s.run (msRequest 0xb a.toNat data poison mask src.toNat (part.map Fin.val))

/-- MS_MIN_INT64 (R317). Memory-side signed INT64 minimum. -/
def execMsMinInt64 (a : BitVec 52) (src : BitVec 16) (part : Option (Fin 16)) (data : List Byte) (poison : List Bool) (mask : List Bool)
    (s : State) : Host.Outcome State Fault Refusal :=
  s.run (msRequest 0xc a.toNat data poison mask src.toNat (part.map Fin.val))

/-- MS_RESERVED_OP (R316). A memory-side request with a reserved code is discarded with an ADMISSION_REFUSED record.
-/
def execMsReservedOp (code : BitVec 4) (a : BitVec 52) (src : BitVec 16) (part : Option (Fin 16))
    (s : State) : Host.Outcome State Fault Refusal :=
  s.run (msReserved code.toNat a.toNat src.toNat (part.map Fin.val))

/-- REFRESH (R308). A bank or channel refresh falls due and is served. -/
def execRefresh (k : Fin 12) (s : State) : Host.Outcome State Fault Refusal :=
  s.runDev (refresh k)

/-- SCRUB_STEP (R360). The scrubber reads and checks its next block or granule in an idle cycle. -/
def execScrubStep (n : Fin 80) (s : State) : Host.Outcome State Fault Refusal :=
  s.run (scrubStep n)

/-- SCRUB_LAP_OVERDUE (R361). A lap has run LAPMAX hours; CAUTION 0x06 is written once. -/
def execScrubLapOverdue (n : Fin 80) (s : State) : Host.Outcome State Fault Refusal :=
  s.run (scrubOverdue n)

/-- STACK_TEMP_READING (R328). Every 16 µs the controller reads the stack temperature and moves between NORMAL, HOT
and CRITICAL. -/
def execStackTempReading (k : Fin 12) (temp : BitVec 8) (s : State) : Host.Outcome State Fault Refusal :=
  s.run (stackTemp k temp.toNat)

/-- STACK_COOL_EXPIRY (R331). A held stack has been NORMAL for 1,000,000 lt and RESUME may be sent. -/
def execStackCoolExpiry (k : Fin 12) (s : State) : Host.Outcome State Fault Refusal :=
  s.run (stackCool k)

/-- RETRAIN_DUE_AGE (R321). 24 hours pass since a channel's last training and DUE is set. -/
def execRetrainDueAge (k : Fin 12) (ch : Fin 16) (s : State) : Host.Outcome State Fault Refusal :=
  s.run (retrainAge k ch)

/-- SCHEDULED_RETRAIN_END (R321). A scheduled retraining ends, with a RETRAIN record. -/
def execScheduledRetrainEnd (k : Fin 12) (ch : Fin 16) (lost : BitVec 2) (converged : Bool)
    (s : State) : Host.Outcome State Fault Refusal :=
  s.run (thenGo (scheduledEnd k ch lost.toNat converged))

/-- EMERGENCY_RETRAIN_START (R323). Errors reach THRESH or four parity errors in a window; requests are held and
claiming occurrences withdrawn with cause RETRAIN. -/
def execEmergencyRetrainStart (k : Fin 12) (ch : Fin 16) (s : State) : Host.Outcome State Fault Refusal :=
  s.run (thenGo (emergencyStart k ch))

/-- EMERGENCY_RETRAIN_END (R323). Emergency retraining ends; held requests are released and a RETRAIN record written.
-/
def execEmergencyRetrainEnd (k : Fin 12) (ch : Fin 16) (lost : BitVec 2) (converged : Bool)
    (s : State) : Host.Outcome State Fault Refusal :=
  s.run (thenGo (emergencyEnd k ch lost.toNat converged))

/-- CHANNEL_MAP_OUT (R326). At the stack's job boundary the failed channel is mapped out and the range is
re-interleaved and poison-filled. -/
def execChannelMapOut (k : Fin 12) (s : State) : Host.Outcome State Fault Refusal :=
  s.run (thenGo (channelMapOut k))

/-- POISON_FILL_DONE (R326). The poison fill after a map-out ends; CHANNEL_MAPPED_OUT is written and the ceiling
restored. -/
def execPoisonFillDone (k : Fin 12) (s : State) : Host.Outcome State Fault Refusal :=
  s.run (thenGo (poisonFillDone k))

/-- REGION_ZERO_DONE (R345). The zeroing of a recoded region ends and its requests proceed. -/
def execRegionZeroDone (n : Fin 80) (i : Fin 128) (s : State) : Host.Outcome State Fault Refusal :=
  s.run (thenGo (fun _ => regionZeroDone n i))

/-- RETIRE_GO (R362). A write of RETIRE.GO retires a page or cap bank. -/
def execRetireGo (f : Func) (n : Fin 80) (index : BitVec 16) (bank : Bool)
    (s : State) : Host.Outcome State Fault Refusal :=
  s.runBoth (hostWrite f (.integ (blockAt n) .retire) (retireValue index.toNat bank))

/-- CAP_BANK_COPY (R362). A retired cap bank is copied to a spare in a maintenance entry. -/
def execCapBankCopy (b : Fin 64) (i : Fin 32) (s : State) : Host.Outcome State Fault Refusal :=
  s.run (capBankCopy b i)

/-- CAP_BANK_COPY_DONE (R362). The bank copy ends and the bank's offsets reach the spare. -/
def execCapBankCopyDone (b : Fin 64) (i : Fin 32) (s : State) : Host.Outcome State Fault Refusal :=
  s.run (thenGo (fun _ => capBankDone b i))

/-- INJECT_GO (R502). A write of INJECT.GO requests corruption of the stored word at OFFSET. -/
def execInjectGo (f : Func) (n : Fin 80) (offset : BitVec 37) (kind : BitVec 2) (store : Bool)
    (s : State) : Host.Outcome State Fault Refusal :=
  s.runBoth (hostWrite f (.integ (blockAt n) .inject) (injectValue offset.toNat kind.toNat store))

/-- INJECT_APPLY (R502). In the next idle cycle the stored word is corrupted or poisoned. -/
def execInjectApply (n : Fin 80) (s : State) : Host.Outcome State Fault Refusal :=
  s.run (injectApply n)

end Sys2Proof.Machine
end

