-- ==== Sys2Proof/Machine/PowerCommands.lean ====
section
/-! DEFINITION. The meanings of the commands of power, reset pins and thermal (chapter 17), one definition per command
over the shared operations. -/

namespace Sys2Proof.Machine

/-- VIN_RISE (R493). VIN reaches 40 V and the standby rail and V1P8_OUT come up. -/
def execVinRise (s : State) : Host.Outcome State Fault Refusal :=
  s.runDev (vinRise)

/-- PWR_EN_RISE (R493). PWR_EN is asserted and the rails ramp in order. -/
def execPwrEnRise (s : State) : Host.Outcome State Fault Refusal :=
  s.runDev (pwrEnRise)

/-- POWER_GOOD (R493). PWR_GOOD is asserted and boot begins at stage 0. -/
def execPowerGood (s : State) : Host.Outcome State Fault Refusal :=
  s.runBoth (powerGood)

/-- PWR_EN_FALL (R495). PWR_EN falls; occurrences are withdrawn with cause SAFETY, issue stops and the rails power
down. -/
def execPwrEnFall (s : State) : Host.Outcome State Fault Refusal :=
  s.run (pwrEnFall)

/-- RESET_N (R494). RESET_N low holds every die in reset, and its release restarts boot. -/
def execResetN (low : Bool) (s : State) : Host.Outcome State Fault Refusal :=
  s.runBoth (resetPin low)

/-- VIN_SAMPLE (R477). Every 1 µs the signal box samples VIN and acts on its range. -/
def execVinSample (mv : Nat) (s : State) : Host.Outcome State Fault Refusal :=
  s.run (vinSample mv)

/-- VIN_CAUTION (R477). VIN stays near a limit for 100 µs and CAUTION 0x01 is written. -/
def execVinCaution (s : State) : Host.Outcome State Fault Refusal :=
  s.run (vinCaution)

/-- VIN_RIDE_EXPIRY (R477). VIN stays out of range beyond the ride-through time and HOLD cause 0x03 is raised. -/
def execVinRideExpiry (s : State) : Host.Outcome State Fault Refusal :=
  s.run (vinRideExpiry)

/-- PROTECTIVE_STOP (R478). Every rail is turned off, PWR_GOOD deasserted and THERMTRIP_N asserted. -/
def execProtectiveStop (s : State) : Host.Outcome State Fault Refusal :=
  s.run (protectiveStop)

/-- SHAPER_TICK (R479). Every 1 µs the draw shaper sets the draw and ballast. -/
def execShaperTick (work : Nat) (gated : Nat) (s : State) : Host.Outcome State Fault Refusal :=
  s.run (shaperTick work gated)

/-- VOLTAGE_STEP (R482). Every 10 µs the core voltage loop moves the rail by at most 5 mV. -/
def execVoltageStep (rail : Fin 9) (pass : Nat) (safe : Nat) (s : State) : Host.Outcome State Fault Refusal :=
  s.run (voltageStep rail pass safe)

/-- DROOP_EVENT (R483). A droop detector freezes the affected bays for 4 cy, withdrawing with cause SAFETY beyond
slack. -/
def execDroopEvent (p : Fin 4) (bays : BitVec 16) (s : State) : Host.Outcome State Fault Refusal :=
  s.run (droopEvent p bays.toNat)

/-- DIE_TEMP_READING (R485). Every 16 µs the signal box reads die temperatures and asserts ALERT_N, raises HOLD or
stops. -/
def execDieTempReading (temp : Nat) (s : State) : Host.Outcome State Fault Refusal :=
  s.run (dieTemp temp)

/-- DIE_COOL_EXPIRY (R485). The die has been at or below 95 °C for 1,000,000 lt and RESUME may be sent. -/
def execDieCoolExpiry (s : State) : Host.Outcome State Fault Refusal :=
  s.run (dieCool)

/-- VIN_STABLE_EXPIRY (R477). VIN has been within 40 V to 60 V for 1,000,000 lt and the supply HOLD may resume. -/
def execVinStableExpiry (s : State) : Host.Outcome State Fault Refusal :=
  s.run (vinStableExpiry)

/-- PCIE_RETRAIN (R474). A PCIe port's link retrains to a new width or rate, and the bond table's PORT entry changes
at the next slot boundary. -/
def execPcieRetrain (port : Fin 4) (width : Nat) (rate : Nat) (s : State) : Host.Outcome State Fault Refusal :=
  s.runDev (pcieRetrain port width rate)

/-- PCIE_COMPLETION (R349). A PCIe completion arrives for a read that the device issued through a host window and
delivers its data, with poison where EP applies. -/
def execPcieCompletion (port : Fin 4) (tag : Nat) (ep : Bool) (data : List Byte)
    (s : State) : Host.Outcome State Fault Refusal :=
  s.run (pcieCompletion port tag ep data)

/-- RAILS_OFF (R495). After PWR_EN has fallen and the draw has reached base power, every rail of the module is off. -/
def execRailsOff (s : State) : Host.Outcome State Fault Refusal :=
  s.runDev (railsOff)

end Sys2Proof.Machine
end

