-- ==== Sys2Proof/Machine/WriteCommands.lean ====
section
/-! DEFINITION. The meanings of the commands of writes of registers that the table lists as rows of their own, one
definition per command over the shared operations. -/

namespace Sys2Proof.Machine

/-- STREAM_RUN (R77). A write of TT_SQ_CTL.RUN is accepted or ignored with POLICY_CONFLICT. -/
def execStreamRun (f : Func) (b : Fin 64) (i : Fin 3) (start : W32) (s : State) : Host.Outcome State Fault Refusal :=
  s.runBoth (hostWrite f (.sqCtl b i) (1 + start.toNat <<< 32))

/-- STREAM_HALT (R77). A write of TT_SQ_CTL.HALT is accepted or ignored with POLICY_CONFLICT. -/
def execStreamHalt (f : Func) (b : Fin 64) (i : Fin 3) (start : W32) (s : State) : Host.Outcome State Fault Refusal :=
  s.runBoth (hostWrite f (.sqCtl b i) (2 + start.toNat <<< 32))

/-- TOKEN_SET (R86). A host write to TT_TOKSET sets tokens. -/
def execTokenSet (f : Func) (b : Fin 64) (mask : W64) (s : State) : Host.Outcome State Fault Refusal :=
  s.runBoth (hostWrite f (.tokSet b) mask.toNat)

/-- TOKEN_CLEAR (R86). A host write to TT_TOKCLR clears tokens and their void marks. -/
def execTokenClear (f : Func) (b : Fin 64) (mask : W64) (s : State) : Host.Outcome State Fault Refusal :=
  s.runBoth (hostWrite f (.tokClr b) mask.toNat)

/-- PERM_OOR_CLEAR (R76). A W1C write to VEC_STATUS clears the sticky PERM_OOR bit. -/
def execPermOorClear (f : Func) (b : Fin 64) (i : Fin 3) (s : State) : Host.Outcome State Fault Refusal :=
  s.runBoth (hostWrite f (.vecStatus b i) 1)

/-- HOST_CONFIG_WRITE (R94). A host write to a configuration field is checked and held in the host shadow. -/
def execHostConfigWrite (f : Func) (b : Fin 64) (i : Fin 3) (g : Fin 8) (fi : Fin 3) (v : W64)
    (s : State) : Host.Outcome State Fault Refusal :=
  s.runBoth (hostWrite f (.cfg b i g fi) v.toNat)

/-- HOST_DESCRIPTOR_WRITE (R95). A host write to a descriptor table is held until the next slot boundary. -/
def execHostDescriptorWrite (f : Func) (b : Fin 64) (i : Fin 3) (slot : Fin 256) (wi : Fin 8) (v : W64)
    (s : State) : Host.Outcome State Fault Refusal :=
  s.runBoth (hostWrite f (.desc b i slot wi) v.toNat)

/-- QCNT_CLEAR (R162). A write of VEC_QCLR.CLR clears the quantiser counters. -/
def execQcntClear (f : Func) (b : Fin 64) (s : State) : Host.Outcome State Fault Refusal :=
  s.runBoth (hostWrite f (.qClr b) 1)

/-- MX_COUNTER_CLEAR (R201). A write of MX_CLR.CLR clears the array counters. -/
def execMxCounterClear (f : Func) (b : Fin 64) (s : State) : Host.Outcome State Fault Refusal :=
  s.runBoth (hostWrite f (.mxClr b) 1)

/-- VEC_COUNTER_CLEAR (R230). A write of VEC_CLR.CLR clears the vector counters. -/
def execVecCounterClear (f : Func) (b : Fin 64) (s : State) : Host.Outcome State Fault Refusal :=
  s.runBoth (hostWrite f (.vecClr b) 1)

/-- PTS_COUNTER_CLEAR (R273). A write of PTS_CLR.CLR clears the points-unit counters. -/
def execPtsCounterClear (f : Func) (p : Fin 4) (s : State) : Host.Outcome State Fault Refusal :=
  s.runBoth (hostWrite f (.ptsClr p) 1)

/-- UPD_COUNTER_CLEAR (R300). A write of UPD_CLR.CLR clears the update-unit counters. -/
def execUpdCounterClear (f : Func) (p : Fin 4) (s : State) : Host.Outcome State Fault Refusal :=
  s.runBoth (hostWrite f (.updClr p) 1)

/-- HBM_COUNTER_CLEAR (R335). A write of HBM_CLR.CLR clears the stack counters. -/
def execHbmCounterClear (f : Func) (k : Fin 12) (s : State) : Host.Outcome State Fault Refusal :=
  s.runBoth (hostWrite f (.hbmClr k) 1)

/-- ECC_COUNTER_CLEAR (R364). A write of ECLR.CLRCNT clears ECCNT0 and ECCNT1. -/
def execEccCounterClear (f : Func) (n : Fin 80) (s : State) : Host.Outcome State Fault Refusal :=
  s.runBoth (hostWrite f (.integ (blockAt n) .eclr) 1)

/-- ECC_LOG_CLEAR (R364). A write of ECLR.CLRLOG empties the error log. -/
def execEccLogClear (f : Func) (n : Fin 80) (s : State) : Host.Outcome State Fault Refusal :=
  s.runBoth (hostWrite f (.integ (blockAt n) .eclr) 2)

/-- LNK_COUNTER_CLEAR (R402). A write of LNK_CLR.CLR clears the link counters. -/
def execLnkCounterClear (f : Func) (l : Fin 32) (s : State) : Host.Outcome State Fault Refusal :=
  s.runBoth (hostWrite f (.lnkClr l) 1)

/-- PWR_COUNTER_CLEAR (R496). A write of PWR_CLR.CLR clears the power counters. -/
def execPwrCounterClear (f : Func) (s : State) : Host.Outcome State Fault Refusal :=
  s.runBoth (hostWrite f .pwrClr 1)

/-- WB_COUNTER_CLEAR (R430). A write of UPD_WBCLR.CLR clears UPD_WBCNT. -/
def execWbCounterClear (f : Func) (p : Fin 4) (s : State) : Host.Outcome State Fault Refusal :=
  s.runBoth (hostWrite f (.wbClr p) 1)

/-- HOLE_CLR (R37). A write of HOLE_CLR clears BOND_HOLE_STATUS. -/
def execHoleClr (f : Func) (s : State) : Host.Outcome State Fault Refusal :=
  s.runBoth (hostWrite f .holeStatus (1 <<< 36))

/-- TT_SYNC_WRITE (R72). A TT_SYNC write changing SRC_MODE or SRC_LINK returns LOCK to UNLOCKED and withdraws
occurrences; a SLOT_LOG2 change is accepted or refused. -/
def execTtSyncWrite (f : Func) (v : W64) (s : State) : Host.Outcome State Fault Refusal :=
  s.runBoth (hostWrite f .sync v.toNat)

/-- PWR_CAP_WRITE (R67). A write of PWR_CAP is refused below TT_PWR_NEED with POLICY_CONFLICT, or takes effect at the
next boundary. -/
def execPwrCapWrite (f : Func) (v : W64) (s : State) : Host.Outcome State Fault Refusal :=
  s.runBoth (hostWrite f .pwrCap v.toNat)

/-- HBM_REG_WRITE (R314). A write of a stack regulator is checked and takes effect at the next boundary. -/
def execHbmRegWrite (f : Func) (k : Fin 12) (q : Fin 16) (v : W64) (s : State) : Host.Outcome State Fault Refusal :=
  s.runBoth (hostWrite f (.hbmReg k q) v.toNat)

/-- BOND_PART_WRITE (R434). A write of BOND_PARTq is checked and redefines the partition at the next boundary. -/
def execBondPartWrite (f : Func) (q : Fin 16) (wi : Fin 2) (v : W64) (s : State) : Host.Outcome State Fault Refusal :=
  s.runBoth (hostWrite f (.bondPart q wi) v.toNat)

/-- BOND_SEG_WRITE (R436). A write of a segment window is checked, optionally zeroes it, and takes effect at the next
boundary. -/
def execBondSegWrite (f : Func) (q : Fin 16) (i : Fin 32) (wi : Fin 2) (v : W64)
    (s : State) : Host.Outcome State Fault Refusal :=
  s.runBoth (hostWrite f (.bondSeg q i wi) v.toNat)

/-- BOND_PLAT_WRITE (R441). A write of BOND_PLATq is checked against the windows and enables or moves the rings. -/
def execBondPlatWrite (f : Func) (q : Fin 16) (wi : Fin 4) (v : W64) (s : State) : Host.Outcome State Fault Refusal :=
  s.runBoth (hostWrite f (.bondPlat q wi) v.toNat)

/-- BOND_HWIN_WRITE (R438). A write of a host-window slice entry is checked and maps the slice. -/
def execBondHwinWrite (f : Func) (p : Fin 4) (i : Fin 64) (v : W64) (s : State) : Host.Outcome State Fault Refusal :=
  s.runBoth (hostWrite f (.bondHwin p i) v.toNat)

/-- BOND_PORT_WRITE (R450). A write of BOND_PORTv.VFS is checked and sets TotalVFs. -/
def execBondPortWrite (f : Func) (p : Fin 4) (v : W64) (s : State) : Host.Outcome State Fault Refusal :=
  s.runBoth (hostWrite f (.bondPort p) v.toNat)

/-- UPD_WB_WRITE (R430). A write of UPD_WBq sets the waybill table and enables drains at the next boundary. -/
def execUpdWbWrite (f : Func) (p : Fin 4) (q : Fin 16) (v : W64) (s : State) : Host.Outcome State Fault Refusal :=
  s.runBoth (hostWrite f (.updWb p q) v.toNat)

/-- REPAIR_CLEAR (R475). A write of BOND_REPAIR.CLEAR makes the next boot ignore every stored record, unless a
timetable is installed. -/
def execRepairClear (f : Func) (s : State) : Host.Outcome State Fault Refusal :=
  s.runBoth (hostWrite f .bondRepair 8)

/-- REGISTER_WRITE (R15). A write to a register with no behaviour of its own updates its RW fields, or is discarded
with POLICY_CONFLICT. -/
def execRegisterWrite (f : Func) (o : W32) (v : W64) (s : State) : Host.Outcome State Fault Refusal :=
  s.runBoth (hostAccess f o.toNat (some v) false)

end Sys2Proof.Machine
end

