-- ==== Sys2Proof/Machine/Dispatch.lean ====
section
/-! DEFINITION. The dispatch of a command to its meaning. -/

namespace Sys2Proof.Machine

def exec (i : Instr) (s : State) : Host.Outcome State Fault Refusal :=
  match i with
  | .nop b ix => Sys2Proof.Machine.execNop b ix s
  | .endStream b ix => Sys2Proof.Machine.execEndStream b ix s
  | .depart b ix => Sys2Proof.Machine.execDepart b ix s
  | .departRelease b ix => Sys2Proof.Machine.execDepartRelease b ix s
  | .branchJump b ix => Sys2Proof.Machine.execBranchJump b ix s
  | .branchLoop b ix => Sys2Proof.Machine.execBranchLoop b ix s
  | .branchSetCount b ix => Sys2Proof.Machine.execBranchSetCount b ix s
  | .branchStallEnd b ix => Sys2Proof.Machine.execBranchStallEnd b ix s
  | .cfg b ix => Sys2Proof.Machine.execCfg b ix s
  | .commit b ix => Sys2Proof.Machine.execCommit b ix s
  | .syncSet b ix => Sys2Proof.Machine.execSyncSet b ix s
  | .syncClear b ix => Sys2Proof.Machine.execSyncClear b ix s
  | .syncWait b ix => Sys2Proof.Machine.execSyncWait b ix s
  | .syncWaitClr b ix => Sys2Proof.Machine.execSyncWaitClr b ix s
  | .syncWaitEnd b ix => Sys2Proof.Machine.execSyncWaitEnd b ix s
  | .syncRset b ix => Sys2Proof.Machine.execSyncRset b ix s
  | .rsetArrival b token => Sys2Proof.Machine.execRsetArrival b token s
  | .dload b ix => Sys2Proof.Machine.execDload b ix s
  | .move b ix => Sys2Proof.Machine.execMove b ix s
  | .mload b ix => Sys2Proof.Machine.execMload b ix s
  | .stationarySwap b stall => Sys2Proof.Machine.execStationarySwap b stall s
  | .mmul b ix dry full wait => Sys2Proof.Machine.execMmul b ix dry full wait s
  | .drainWriteout b => Sys2Proof.Machine.execDrainWriteout b s
  | .vop b ix starve => Sys2Proof.Machine.execVop b ix starve s
  | .vfunc b ix starve => Sys2Proof.Machine.execVfunc b ix starve s
  | .vred b ix starve => Sys2Proof.Machine.execVred b ix starve s
  | .vscan b ix starve => Sys2Proof.Machine.execVscan b ix starve s
  | .vperm b ix starve => Sys2Proof.Machine.execVperm b ix starve s
  | .rmsn b ix starve gap => Sys2Proof.Machine.execRmsn b ix starve gap s
  | .smax b ix starve gap => Sys2Proof.Machine.execSmax b ix starve gap s
  | .turn b ix => Sys2Proof.Machine.execTurn b ix s
  | .quantNarrow b ix => Sys2Proof.Machine.execQuantNarrow b ix s
  | .quantStash b ix => Sys2Proof.Machine.execQuantStash b ix s
  | .quantAmaxOnly b ix => Sys2Proof.Machine.execQuantAmaxOnly b ix s
  | .amaxRecordUpdate b => Sys2Proof.Machine.execAmaxRecordUpdate b s
  | .routeTopk b ix => Sys2Proof.Machine.execRouteTopk b ix s
  | .routeGather b ix => Sys2Proof.Machine.execRouteGather b ix s
  | .routeCombine b ix => Sys2Proof.Machine.execRouteCombine b ix s
  | .collAllReduce b ix => Sys2Proof.Machine.execCollAllReduce b ix s
  | .collReduceScatter b ix => Sys2Proof.Machine.execCollReduceScatter b ix s
  | .collAllGather b ix => Sys2Proof.Machine.execCollAllGather b ix s
  | .collBroadcast b ix => Sys2Proof.Machine.execCollBroadcast b ix s
  | .collSend b ix => Sys2Proof.Machine.execCollSend b ix s
  | .collReceive b ix => Sys2Proof.Machine.execCollReceive b ix s
  | .collEngineStart n => Sys2Proof.Machine.execCollEngineStart n s
  | .collComplete n => Sys2Proof.Machine.execCollComplete n s
  | .collWatchdog n => Sys2Proof.Machine.execCollWatchdog n s
  | .upd b ix => Sys2Proof.Machine.execUpd b ix s
  | .updPrologue b extra => Sys2Proof.Machine.execUpdPrologue b extra s
  | .updRun p stall => Sys2Proof.Machine.execUpdRun p stall s
  | .updEpilogue p => Sys2Proof.Machine.execUpdEpilogue p s
  | .sealCompute b ix => Sys2Proof.Machine.execSealCompute b ix s
  | .sealVerify b ix => Sys2Proof.Machine.execSealVerify b ix s
  | .instructionComplete b n => Sys2Proof.Machine.execInstructionComplete b n s
  | .departureSlot q e k => Sys2Proof.Machine.execDepartureSlot q e k s
  | .occurrenceDelivered q e k => Sys2Proof.Machine.execOccurrenceDelivered q e k s
  | .promiseExpiry q e k => Sys2Proof.Machine.execPromiseExpiry q e k s
  | .slotBoundary => Sys2Proof.Machine.execSlotBoundary s
  | .slotLengthChange => Sys2Proof.Machine.execSlotLengthChange s
  | .submitInstall q w => Sys2Proof.Machine.execSubmitInstall q w s
  | .admissionComplete q => Sys2Proof.Machine.execAdmissionComplete q s
  | .submitWithdraw q w => Sys2Proof.Machine.execSubmitWithdraw q w s
  | .submitStart q w => Sys2Proof.Machine.execSubmitStart q w s
  | .submitModel q w => Sys2Proof.Machine.execSubmitModel q w s
  | .submitReset q w => Sys2Proof.Machine.execSubmitReset q w s
  | .partitionReset q => Sys2Proof.Machine.execPartitionReset q s
  | .quarterCleanDone q ix => Sys2Proof.Machine.execQuarterCleanDone q ix s
  | .timetableTakeover q => Sys2Proof.Machine.execTimetableTakeover q s
  | .timetableRemoval q => Sys2Proof.Machine.execTimetableRemoval q s
  | .stepBoundary q => Sys2Proof.Machine.execStepBoundary q s
  | .stepApply => Sys2Proof.Machine.execStepApply s
  | .stepNotice l p => Sys2Proof.Machine.execStepNotice l p s
  | .maintStart q e k => Sys2Proof.Machine.execMaintStart q e k s
  | .maintEnd q e k => Sys2Proof.Machine.execMaintEnd q e k s
  | .holdSend => Sys2Proof.Machine.execHoldSend s
  | .holdNotice l p => Sys2Proof.Machine.execHoldNotice l p s
  | .pauseSlot => Sys2Proof.Machine.execPauseSlot s
  | .resumeSend => Sys2Proof.Machine.execResumeSend s
  | .resumeNotice l p => Sys2Proof.Machine.execResumeNotice l p s
  | .resumeSlot => Sys2Proof.Machine.execResumeSlot s
  | .epochInstant => Sys2Proof.Machine.execEpochInstant s
  | .timeSourcePresent => Sys2Proof.Machine.execTimeSourcePresent s
  | .timeLock => Sys2Proof.Machine.execTimeLock s
  | .timeSourceLost => Sys2Proof.Machine.execTimeSourceLost s
  | .timeSourceRegained offset => Sys2Proof.Machine.execTimeSourceRegained offset s
  | .holdoverExpiry => Sys2Proof.Machine.execHoldoverExpiry s
  | .timeExchange l frac => Sys2Proof.Machine.execTimeExchange l frac s
  | .timePacket l p rx => Sys2Proof.Machine.execTimePacket l p rx s
  | .capPacket l p => Sys2Proof.Machine.execCapPacket l p s
  | .linkTrained l quads => Sys2Proof.Machine.execLinkTrained l quads s
  | .quadLoss l quad signal => Sys2Proof.Machine.execQuadLoss l quad signal s
  | .linkRetrain f l => Sys2Proof.Machine.execLinkRetrain f l s
  | .packetNak l unc => Sys2Proof.Machine.execPacketNak l unc s
  | .packetReplay l ack => Sys2Proof.Machine.execPacketReplay l ack s
  | .replayThreshold l quad => Sys2Proof.Machine.execReplayThreshold l quad s
  | .idlePacket l p => Sys2Proof.Machine.execIdlePacket l p s
  | .unknownPacket l p => Sys2Proof.Machine.execUnknownPacket l p s
  | .rdPacket l p => Sys2Proof.Machine.execRdPacket l p s
  | .wrPacket l p => Sys2Proof.Machine.execWrPacket l p s
  | .atPacket l p => Sys2Proof.Machine.execAtPacket l p s
  | .rdrPacket l p => Sys2Proof.Machine.execRdrPacket l p s
  | .wackPacket l p => Sys2Proof.Machine.execWackPacket l p s
  | .collPacket l p => Sys2Proof.Machine.execCollPacket l p s
  | .cautionNotice l p => Sys2Proof.Machine.execCautionNotice l p s
  | .peerLate l p => Sys2Proof.Machine.execPeerLate l p s
  | .abandon l p => Sys2Proof.Machine.execAbandon l p s
  | .memoryRead a n src part tag die => Sys2Proof.Machine.execMemoryRead a n src part tag die s
  | .memoryWrite a src part data poison mask => Sys2Proof.Machine.execMemoryWrite a src part data poison mask s
  | .correctionWriteback a => Sys2Proof.Machine.execCorrectionWriteback a s
  | .mergeEvict k => Sys2Proof.Machine.execMergeEvict k s
  | .msMerge a src part data poison mask => Sys2Proof.Machine.execMsMerge a src part data poison mask s
  | .msAddFp32 a src part data poison mask => Sys2Proof.Machine.execMsAddFp32 a src part data poison mask s
  | .msAddBf16 a src part data poison mask => Sys2Proof.Machine.execMsAddBf16 a src part data poison mask s
  | .msAddInt32 a src part data poison mask => Sys2Proof.Machine.execMsAddInt32 a src part data poison mask s
  | .msAddInt64 a src part data poison mask => Sys2Proof.Machine.execMsAddInt64 a src part data poison mask s
  | .msMaxFp32 a src part data poison mask => Sys2Proof.Machine.execMsMaxFp32 a src part data poison mask s
  | .msMinFp32 a src part data poison mask => Sys2Proof.Machine.execMsMinFp32 a src part data poison mask s
  | .msMaxBf16 a src part data poison mask => Sys2Proof.Machine.execMsMaxBf16 a src part data poison mask s
  | .msMinBf16 a src part data poison mask => Sys2Proof.Machine.execMsMinBf16 a src part data poison mask s
  | .msMaxInt32 a src part data poison mask => Sys2Proof.Machine.execMsMaxInt32 a src part data poison mask s
  | .msMinInt32 a src part data poison mask => Sys2Proof.Machine.execMsMinInt32 a src part data poison mask s
  | .msMaxInt64 a src part data poison mask => Sys2Proof.Machine.execMsMaxInt64 a src part data poison mask s
  | .msMinInt64 a src part data poison mask => Sys2Proof.Machine.execMsMinInt64 a src part data poison mask s
  | .msReservedOp code a src part => Sys2Proof.Machine.execMsReservedOp code a src part s
  | .refresh k => Sys2Proof.Machine.execRefresh k s
  | .scrubStep n => Sys2Proof.Machine.execScrubStep n s
  | .scrubLapOverdue n => Sys2Proof.Machine.execScrubLapOverdue n s
  | .stackTempReading k temp => Sys2Proof.Machine.execStackTempReading k temp s
  | .stackCoolExpiry k => Sys2Proof.Machine.execStackCoolExpiry k s
  | .retrainDueAge k ch => Sys2Proof.Machine.execRetrainDueAge k ch s
  | .scheduledRetrainEnd k ch lost converged => Sys2Proof.Machine.execScheduledRetrainEnd k ch lost converged s
  | .emergencyRetrainStart k ch => Sys2Proof.Machine.execEmergencyRetrainStart k ch s
  | .emergencyRetrainEnd k ch lost converged => Sys2Proof.Machine.execEmergencyRetrainEnd k ch lost converged s
  | .channelMapOut k => Sys2Proof.Machine.execChannelMapOut k s
  | .poisonFillDone k => Sys2Proof.Machine.execPoisonFillDone k s
  | .regionZeroDone n ix => Sys2Proof.Machine.execRegionZeroDone n ix s
  | .retireGo f n index bank => Sys2Proof.Machine.execRetireGo f n index bank s
  | .capBankCopy b ix => Sys2Proof.Machine.execCapBankCopy b ix s
  | .capBankCopyDone b ix => Sys2Proof.Machine.execCapBankCopyDone b ix s
  | .injectGo f n offset kind store => Sys2Proof.Machine.execInjectGo f n offset kind store s
  | .injectApply n => Sys2Proof.Machine.execInjectApply n s
  | .drainQueuedStart p q => Sys2Proof.Machine.execDrainQueuedStart p q s
  | .drainComplete p q => Sys2Proof.Machine.execDrainComplete p q s
  | .waybillSigned => Sys2Proof.Machine.execWaybillSigned s
  | .restoreGo f p q order => Sys2Proof.Machine.execRestoreGo f p q order s
  | .restoreComplete p q => Sys2Proof.Machine.execRestoreComplete p q s
  | .quoteGo f buf => Sys2Proof.Machine.execQuoteGo f buf s
  | .quoteDone => Sys2Proof.Machine.execQuoteDone s
  | .repairRecordWrite => Sys2Proof.Machine.execRepairRecordWrite s
  | .repairRecordDone => Sys2Proof.Machine.execRepairRecordDone s
  | .streamRun f b ix start => Sys2Proof.Machine.execStreamRun f b ix start s
  | .streamHalt f b ix start => Sys2Proof.Machine.execStreamHalt f b ix start s
  | .tokenSet f b mask => Sys2Proof.Machine.execTokenSet f b mask s
  | .tokenClear f b mask => Sys2Proof.Machine.execTokenClear f b mask s
  | .permOorClear f b ix => Sys2Proof.Machine.execPermOorClear f b ix s
  | .hostConfigWrite f b ix g fi v => Sys2Proof.Machine.execHostConfigWrite f b ix g fi v s
  | .hostDescriptorWrite f b ix slot wi v => Sys2Proof.Machine.execHostDescriptorWrite f b ix slot wi v s
  | .qcntClear f b => Sys2Proof.Machine.execQcntClear f b s
  | .mxCounterClear f b => Sys2Proof.Machine.execMxCounterClear f b s
  | .vecCounterClear f b => Sys2Proof.Machine.execVecCounterClear f b s
  | .ptsCounterClear f p => Sys2Proof.Machine.execPtsCounterClear f p s
  | .updCounterClear f p => Sys2Proof.Machine.execUpdCounterClear f p s
  | .hbmCounterClear f k => Sys2Proof.Machine.execHbmCounterClear f k s
  | .eccCounterClear f n => Sys2Proof.Machine.execEccCounterClear f n s
  | .eccLogClear f n => Sys2Proof.Machine.execEccLogClear f n s
  | .lnkCounterClear f l => Sys2Proof.Machine.execLnkCounterClear f l s
  | .pwrCounterClear f => Sys2Proof.Machine.execPwrCounterClear f s
  | .wbCounterClear f p => Sys2Proof.Machine.execWbCounterClear f p s
  | .holeClr f => Sys2Proof.Machine.execHoleClr f s
  | .ttSyncWrite f v => Sys2Proof.Machine.execTtSyncWrite f v s
  | .pwrCapWrite f v => Sys2Proof.Machine.execPwrCapWrite f v s
  | .hbmRegWrite f k q v => Sys2Proof.Machine.execHbmRegWrite f k q v s
  | .bondPartWrite f q wi v => Sys2Proof.Machine.execBondPartWrite f q wi v s
  | .bondSegWrite f q ix wi v => Sys2Proof.Machine.execBondSegWrite f q ix wi v s
  | .segmentZeroDone q ix => Sys2Proof.Machine.execSegmentZeroDone q ix s
  | .bondPlatWrite f q wi v => Sys2Proof.Machine.execBondPlatWrite f q wi v s
  | .bondHwinWrite f p ix v => Sys2Proof.Machine.execBondHwinWrite f p ix v s
  | .bondPortWrite f p v => Sys2Proof.Machine.execBondPortWrite f p v s
  | .updWbWrite f p q v => Sys2Proof.Machine.execUpdWbWrite f p q v s
  | .repairClear f => Sys2Proof.Machine.execRepairClear f s
  | .registerWrite f o v => Sys2Proof.Machine.execRegisterWrite f o v s
  | .bar0Access f o data => Sys2Proof.Machine.execBar0Access f o data s
  | .bar2Access f o n data ep => Sys2Proof.Machine.execBar2Access f o n data ep s
  | .configRequest f c => Sys2Proof.Machine.execConfigRequest f c s
  | .functionLevelReset f => Sys2Proof.Machine.execFunctionLevelReset f s
  | .perst port low => Sys2Proof.Machine.execPerst port low s
  | .entdaa chainIn da => Sys2Proof.Machine.execEntdaa chainIn da s
  | .rstdaa => Sys2Proof.Machine.execRstdaa s
  | .setnewda da => Sys2Proof.Machine.execSetnewda da s
  | .getpid => Sys2Proof.Machine.execGetpid s
  | .getbcr => Sys2Proof.Machine.execGetbcr s
  | .getdcr => Sys2Proof.Machine.execGetdcr s
  | .getstatus => Sys2Proof.Machine.execGetstatus s
  | .getmwl => Sys2Proof.Machine.execGetmwl s
  | .getmrl => Sys2Proof.Machine.execGetmrl s
  | .enec intr => Sys2Proof.Machine.execEnec intr s
  | .disec intr => Sys2Proof.Machine.execDisec intr s
  | .i3cRead a words => Sys2Proof.Machine.execI3cRead a words s
  | .i3cWrite a ws => Sys2Proof.Machine.execI3cWrite a ws s
  | .i3cQuote nonce => Sys2Proof.Machine.execI3cQuote nonce s
  | .ferase o => Sys2Proof.Machine.execFerase o s
  | .fprog o data => Sys2Proof.Machine.execFprog o data s
  | .i3cPrivateRead => Sys2Proof.Machine.execI3cPrivateRead s
  | .vinRise => Sys2Proof.Machine.execVinRise s
  | .pwrEnRise => Sys2Proof.Machine.execPwrEnRise s
  | .powerGood => Sys2Proof.Machine.execPowerGood s
  | .pwrEnFall => Sys2Proof.Machine.execPwrEnFall s
  | .resetN low => Sys2Proof.Machine.execResetN low s
  | .romDone sig0 sig1 => Sys2Proof.Machine.execRomDone sig0 sig1 s
  | .imagesDone puf => Sys2Proof.Machine.execImagesDone puf s
  | .selftestDone found => Sys2Proof.Machine.execSelftestDone found s
  | .published => Sys2Proof.Machine.execPublished s
  | .vinSample mv => Sys2Proof.Machine.execVinSample mv s
  | .vinCaution => Sys2Proof.Machine.execVinCaution s
  | .vinRideExpiry => Sys2Proof.Machine.execVinRideExpiry s
  | .protectiveStop => Sys2Proof.Machine.execProtectiveStop s
  | .shaperTick work gated => Sys2Proof.Machine.execShaperTick work gated s
  | .voltageStep rail pass safe => Sys2Proof.Machine.execVoltageStep rail pass safe s
  | .droopEvent p bays => Sys2Proof.Machine.execDroopEvent p bays s
  | .dieTempReading temp => Sys2Proof.Machine.execDieTempReading temp s
  | .dieCoolExpiry => Sys2Proof.Machine.execDieCoolExpiry s
  | .vinStableExpiry => Sys2Proof.Machine.execVinStableExpiry s
  | .lrefEdge => Sys2Proof.Machine.execLrefEdge s
  | .pcieRetrain port width rate => Sys2Proof.Machine.execPcieRetrain port width rate s
  | .pcieCompletion port tag ep data => Sys2Proof.Machine.execPcieCompletion port tag ep data s
  | .railsOff => Sys2Proof.Machine.execRailsOff s

end Sys2Proof.Machine
end

