-- ==== Sys2Proof/Machine/Step.lean ====
section
/-! DEFINITION. One step: the command at the front of the queue, or one line tick when no command waits. -/

namespace Sys2Proof.Machine

/-- The state after one line tick (R38; DESIGN CHOICE, log entry 1). -/
def State.idle (s : State) : State := { s with time := s.time.tick }

/-- The front command leaves the queue and has its effect; with an empty queue one line tick passes. -/
def step (s : State) : Host.Outcome State Fault Refusal :=
  match s.pending with
  | [] => .next s.idle
  | c :: rest => exec c { s with pending := rest }

/-- The command that a word spells comes to the front of the queue; no word spells one (DESIGN CHOICE, log entry 12). -/
def State.withFetchWord (s : State) (nbits w : Nat) : State :=
  match decodeTableWord nbits w with
  | some c => { s with pending := c :: s.pending }
  | none => s

end Sys2Proof.Machine
end

