-- ==== Sys2Proof/Safety.lean ====
section
/-! DEFINITION. The terms that claims about the machine use: when a stream presents an instruction, when a unit takes it,
when a packet is the next on its link, when a host's write reaches a register, and what holds in every legal state. -/

namespace Sys2Proof.Machine

/-! ### What holds in every legal state -/

/-- The line-time unit is legal: a slot of 2^10 to 2^16 lt, a pending length of 2^10 to 2^16, at most 16 good measurements and
none outside ACQUIRING, and a holdover start exactly in HOLDOVER (R41, R44). -/
def TimeUnit.legal (t : TimeUnit) : Bool :=
  decide (10 ≤ t.slotLog2) && decide (t.slotLog2 ≤ 16) &&
  optAll t.newLog2 (fun n => decide (10 ≤ n) && decide (n ≤ 16)) &&
  decide (t.good ≤ 16) && (t.lock == .acquiring || t.good == 0) && (t.since.isSome == (t.lock == .holdover))

/-- The invariant that every step keeps. -/
def State.Inv (s : State) : Prop := s.time.legal = true

/-- A state is a state of a device in service: published, powered and not in reset (R451, R494, R495). -/
def Dev.inService (d : Dev) : Prop := d.running = true

/-- The commands that may change the line-time unit: line time itself, its sources, a register write, power and reset. -/
def movesTime : Instr → Bool
  | .slotBoundary => true
  | .slotLengthChange => true
  | .epochInstant => true
  | .timeSourcePresent => true
  | .timeLock => true
  | .timeSourceLost => true
  | .timeSourceRegained _ => true
  | .holdoverExpiry => true
  | .timePacket _ _ _ => true
  | .linkRetrain _ _ => true
  | .retireGo _ _ _ _ => true
  | .injectGo _ _ _ _ _ => true
  | .restoreGo _ _ _ _ => true
  | .quoteGo _ _ => true
  | .streamRun _ _ _ _ => true
  | .streamHalt _ _ _ _ => true
  | .tokenSet _ _ _ => true
  | .tokenClear _ _ _ => true
  | .permOorClear _ _ _ => true
  | .hostConfigWrite _ _ _ _ _ _ => true
  | .hostDescriptorWrite _ _ _ _ _ _ => true
  | .qcntClear _ _ => true
  | .mxCounterClear _ _ => true
  | .vecCounterClear _ _ => true
  | .ptsCounterClear _ _ => true
  | .updCounterClear _ _ => true
  | .hbmCounterClear _ _ => true
  | .eccCounterClear _ _ => true
  | .eccLogClear _ _ => true
  | .lnkCounterClear _ _ => true
  | .pwrCounterClear _ => true
  | .wbCounterClear _ _ => true
  | .holeClr _ => true
  | .ttSyncWrite _ _ => true
  | .pwrCapWrite _ _ => true
  | .hbmRegWrite _ _ _ _ => true
  | .bondPartWrite _ _ _ _ => true
  | .bondSegWrite _ _ _ _ _ => true
  | .bondPlatWrite _ _ _ _ => true
  | .bondHwinWrite _ _ _ _ => true
  | .bondPortWrite _ _ _ => true
  | .updWbWrite _ _ _ _ => true
  | .repairClear _ => true
  | .registerWrite _ _ _ => true
  | .bar0Access _ _ _ => true
  | .i3cWrite _ _ => true
  | .powerGood => true
  | .resetN _ => true
  | .lrefEdge => true
  | .memoryWrite _ _ _ _ _ _ => true
  | _ => false

/-- The commands that act on the line-time unit alone. -/
def onlyTime : Instr → Bool
  | .slotLengthChange => true
  | .epochInstant => true
  | .timeSourcePresent => true
  | .timeSourceRegained _ => true
  | .lrefEdge => true
  | _ => false

/-! ### Bay instructions -/

/-- Stream `i` of bay `b` presents `word`: it may issue, its fetch address is in scope, the word's line is in the fetch
buffer without poison, the word is assigned and has no reserved bit set, and WAITU holds (R74, R78, R81, R96, R98). -/
def Dev.presents (d : Dev) (b i : Nat) (word : W128) : Bool :=
  let x := d.stream b i
  d.canIssue b i && fetchOk b x.pc &&
  (match x.fetch.find? (fun k => decide (k.addr = x.pc / 64 * 64)) with
   | some k => BitVec.ofNat 128 (ofBytes (natBytes ((k.bytes.drop (x.pc % 64)).take 16))) == word &&
       !((k.poison.drop (x.pc % 64)).take 16).any id
   | none => false) &&
  opcKnown (opc word.toNat) && (d.bay b).waituOk i (fld word.toNat 112 8) && (reservedField word.toNat).isNone

/-- What an instruction that stream `i` of bay `b` presents sees as it issues. -/
def Dev.issued (d : Dev) (b i : Nat) (word : W128) : Issue :=
  { b := b, s := i, w := word.toNat, word := word, iptr := (d.stream b i).iptr, x := d.stream b i, part := d.partOfBay b }

/-- From `d` to `d'` stream `i` of bay `b` has issued and reads `x`, and bays have changed as `g` says; nothing else has
changed: no other stream, no memory, no other part of the device. -/
def Dev.stepsTo (d d' : Dev) (b i : Nat) (x : Stream) (g : Nat → Bay → Bay) : Prop :=
  { d' with bays := d.bays } = d ∧ d'.stream b i = x ∧ (d'.bay b).lastIssued = i ∧
  (∀ c j, c ≠ b ∨ j ≠ i → d'.stream c j = d.stream c j) ∧
  ∀ c, c < 64 → { d'.bay c with streams := (d.bay c).streams, lastIssued := (d.bay c).lastIssued } = g c (d.bay c)

/-- A unit takes an instruction: the scoreboard and its queue take it, no captured descriptor is poisoned, and nothing refuses
it (R78, R80, R82, R353). -/
def Dev.takes (t : TimeUnit) (d : Dev) (j : Issue) (los : List Nat) (fault : Option FaultInfo) : Bool :=
  j.redo.isNone && (d.bay j.b).boardOk (tileReads j.w) (tileWrites j.w) && (d.bay j.b).queueOk ((queueOf (opc j.w)).getD 0) &&
  (d.captureBite t j los).isNone && fault.isNone

/-- The device once a unit has taken an instruction: IPTR has advanced, the instruction stands in its queue and leaves it if its unit
is free, the unit has done `start` with it, and its effect has been had or waits (R76, R80, R83, R321, R381). -/
def Dev.taken (t : TimeUnit) (d : Dev) (j : Issue) (los : List Nat) (start effect : Flight → Dev → Dev) : Dev :=
  let f := j.flight (d.bay j.b) d.step los
  (start f ((d.advance j.b j.s).modBay j.b (fun y =>
    ({ y with flights := y.flights ++ [f], nextId := y.nextId + 1 } : Bay).beginNext))).runEffect t j.b f.id Await.none (effect f)

/-! ### Packets and register writes -/

/-- A packet is the next in order on a link that is UP, and the device may act on it (R371, R373, R376). -/
def Dev.nextOn (d : Dev) (l : Nat) (p : Packet) : Bool :=
  (d.link l).isUp && p.seq == (d.link l).recvSeq + 1 && (d.fab.valid || decide (p.typ.toNat < 4) || !knownType p.typ.toNat)

/-- The device once link `l` has accepted a packet, and served what waits on it (R370, R372, R373). -/
def Dev.received (d : Dev) (l : Nat) (p : Packet) : Dev := (d.modLink l (·.accept p)).service l

/-- Whether the signer's front job asks for nothing more of the memory: it is not one whose signature has been written. -/
def Dev.signerIdle (d : Dev) : Bool :=
  match d.bond.signer with
  | .waybill _ _ _ _ _ (some _) :: _ => false
  | .quote _ _ (some _) :: _ => false
  | _ => true

/-- Nothing waits on the device that could go on by itself: no job, no drain, no restore under way or asked for, and no written
signature (R302, R406, R412, R426). -/
def Dev.settled (d : Dev) : Bool :=
  d.held.isEmpty && d.signerIdle && (upTo 4).all (fun p =>
    (d.pier p).drains.isEmpty && (d.pier p).restores.isEmpty && (upTo 16).all (fun q => vget 0 (d.pier p).rstState q != 1))

/-- From `d` to `d'` records have been written, the first of them `r`; the later ones are what its ring writes gave rise to
(R10, R348). -/
def Dev.wrote (d d' : Dev) (r : EvRec) : Prop := ∃ later, d'.records = later ++ r :: d.records

/-- What an effect leaves of a device when nothing that it asks for makes it wait: its ring writes and the records that they give rise to
are done (R302, R321, R381). -/
def Dev.had (t : TimeUnit) (d : Dev) (effect : Dev → Dev) : Dev :=
  { (effect { d with stall := [], late := 0 }).flushOwed t with stall := [], late := 0 }

/-- Nothing that an effect asks for makes a job that has waited as `w` says wait again: the bytes that it reads are here, its memory
serves requests, and no HARD regulator holds one of its requests back (R313, R321, R323, R381). -/
def Dev.whole (t : TimeUnit) (d : Dev) (w : Await) (effect : Dev → Dev) : Bool :=
  let e := (effect { d with stall := [], late := 0 }).flushOwed t
  decide (w.due ≤ t.now) && e.stall.isEmpty && decide (e.late ≤ t.now)

/-- A stack and its regulators and channels, an integrity block, an occurrence, a partition without what requests at the memories count, time and log in them
(R302, R312, R313, R318, R322, R359, R364), and without its rings' counts (R448). -/
def Regulator.sansTraffic (g : Regulator) : Regulator := { g with level := 0, time := 0 }
def Channel.sansTraffic (c : Channel) : Channel := { c with corr := [], parity := [] }
def Stack.sansTraffic (k : Stack) : Stack :=
  { k with cnt := Stack.reset.cnt, merge := [], dies := [], regs := k.regs.map Regulator.sansTraffic
           chans := k.chans.map Channel.sansTraffic }
def Integ.sansTraffic (g : Integ) : Integ :=
  { g with cnt0 := Pair32.zero, cnt1 := Pair32.zero, log := Integ.reset.log, lapCorr := 0, lapUncorr := 0 }
def Occ.sansTraffic (o : Occ) : Occ := { o with meters := [], emptied := 0 }
def Part.sansTraffic (p : Part) : Part := { p with counts := Part.reset.counts, occs := p.occs.map Occ.sansTraffic }

/-- A link and a port without the requests that they have sent and that await their answers (R370 to R373, R431). -/
def Link.sansTraffic (k : Link) : Link :=
  { k with sendSeq := 0, unacked := [], blocked := [], turns := Link.reset.turns, owed := Link.reset.owed, sent := [],
           credits := Link.reset.credits, nextTag := 0, waiting := [] }
def Port.sansTraffic (v : Port) : Port := { v with waiting := [], nextTag := 0 }

/-- A device without the traffic of its requests: memory, what the accesses count and log, answers, the rings' counts, and jobs and
records that wait (R10, R302, R448). -/
def Dev.sansTraffic (d : Dev) : Dev :=
  { d with
    mem := Memory.reset, hbms := d.hbms.map Stack.sansTraffic, integs := d.integs.map Integ.sansTraffic
    links := d.links.map Link.sansTraffic, ports := d.ports.map Port.sansTraffic, parts := d.parts.map Part.sansTraffic
    box := { d.box with holeCount := 0, holePart := 0, holeNoPart := false, holeAddr := 0 }
    held := [], nextJob := 0, stall := [], late := 0, owed := [], answers := [] }

/-- A device without what writing records may touch: the traffic of its ring writes, the records themselves, those held for the
administrative ring, their sequence numbers, and in-band interrupts (R10 to R14, R441, R447, R453, R471). -/
def Dev.sansRings (d : Dev) : Dev :=
  let e := d.sansTraffic
  { e with
    box := { e.box with lastIbi := none, ibis := [] }
    bond := { e.bond with held := [], heldLost := false }
    evSeq := [], records := [] }

/-- Function `f` reaches register `r` through an open port (R433, R452, R494). -/
def Dev.lets (d : Dev) (f : Func) (r : Reg) : Bool :=
  d.portOpen f.port && d.reaches f r && decide (regAt (regAddr r) = some r) && decide (regAddr r < 2 ^ 32) &&
  decide (0x100000 ≤ regAddr r)

/-- A waiting write of `v` to `r` by function `f` is accepted (R15, R18). -/
def Dev.accepts (t : TimeUnit) (d : Dev) (f : Func) (r : Reg) (v : Nat) : Bool :=
  d.lets f r && writerOk (d.hostReq f) r && !d.badWrite t r (w64 v).toNat

end Sys2Proof.Machine
end

