-- ==== Sys2Proof/Certificates/Slice0/Obligations.lean ====
section
/-! DEFINITION. The statements for the provers. -/

section

open Sys2Proof Sys2Proof.Machine

/-! ### The queue and the step -/

/-- With a command at the front of the queue a step is that command's effect on the state with the queue's rest. With an empty
queue a step is one line tick, LTIME one greater and nothing else changed: that clause is the model's choice (DESIGN CHOICE, log entry 1). -/
def Obligations.StepRunsTheFrontCommand : Prop :=
  (∀ (c : Instr) (rest : List Instr) (s : State), s.pending = c :: rest → step s = exec c { s with pending := rest }) ∧
  ∀ s : State, s.pending = [] → step s = .next { s with time := { s.time with ltime := s.time.ltime + 1 } }

/-- Every command completes in every state: it answers a next state, and it leaves the queue to the step. -/
def Obligations.EveryCommandCompletes : Prop :=
  ∀ (c : Instr) (s : State), ∃ t, exec c s = .next t ∧ t.pending = s.pending

/-- Which commands reach the line-time unit: every command but those of `movesTime` leaves it whole, and those of `onlyTime`
leave everything but it whole. -/
def Obligations.OnlyTimeCommandsMoveTime : Prop :=
  ∀ (c : Instr) (s t : State), exec c s = .next t →
    (movesTime c = false → t.time = s.time) ∧ (onlyTime c = true → t.dev = s.dev)

/-! ### Instructions of the bay sequencer (R74 to R100) -/

/-- NOP, BRANCH and CFG, COMMIT: what the issuing stream becomes, and that nothing else changes. -/
def Obligations.SequencerInstructionsChangeOneStream : Prop :=
  ∀ (s : State) (b : Fin 64) (i : Fin 3) (word : W128), s.dev.presents b i word = true →
    let w := word.toNat
    let x := s.dev.stream b i
    let y : Stream := { x with state := .run, iptr := x.iptr + 1 }
    let jump : Stream := { x with state := .run, iptr := w32 (fld w 0 32), stall := !x.buffered (fld w 0 32) }
    (opc w = 0x00 → ∃ d', exec (.nop b i) s = .next (s.withDev d') ∧ s.dev.stepsTo d' b i y (fun _ z => z)) ∧
    (opc w = 0x03 → (fld w 34 2 = 0 ∨ fld w 34 2 = 3) →
      ∃ d', exec (.branchJump b i) s = .next (s.withDev d') ∧ s.dev.stepsTo d' b i jump (fun _ z => z)) ∧
    (opc w = 0x03 → fld w 34 2 = 1 →
      ∃ d', exec (.branchLoop b i) s = .next (s.withDev d') ∧
        s.dev.stepsTo d' b i
          (if vget 0 x.lc (fld w 32 2) = 0 then y else { jump with lc := vmod x.lc (fld w 32 2) (fun c => c - 1) })
          (fun _ z => z)) ∧
    (opc w = 0x03 → fld w 34 2 = 2 →
      ∃ d', exec (.branchSetCount b i) s = .next (s.withDev d') ∧
        s.dev.stepsTo d' b i { y with lc := vmod x.lc (fld w 32 2) (fun _ => w32 (fld w 36 32)) } (fun _ z => z)) ∧
    (opc w = 0x04 → fld w 64 3 < cfgFields (fld w 67 3) → cfgBad (fld w 67 3) (fld w 64 3) (fld w 0 64) = false →
      ∃ d', exec (.cfg b i) s = .next (s.withDev d') ∧
        s.dev.stepsTo d' b i { y with shadow := cfgSet x.shadow (fld w 67 3) (fld w 64 3) (fld w 0 64) } (fun _ z => z)) ∧
    (opc w = 0x05 →
      ∃ d', exec (.commit b i) s = .next (s.withDev d') ∧
        s.dev.stepsTo d' b i
          { y with live := (maskBits 8 (fld w 0 8)).foldl (fun c g => cfgCopy x.shadow c g) x.live } (fun _ z => z))

/-- SYNC: the tokens that it sets and clears, the wait that it starts, and that nothing else changes. -/
def Obligations.SyncChangesTokensOrWaits : Prop :=
  ∀ (s : State) (b : Fin 64) (i : Fin 3) (word : W128), s.dev.presents b i word = true → opc word.toNat = 0x06 →
    let w := word.toNat
    let x := s.dev.stream b i
    let y : Stream := { x with state := .run, iptr := x.iptr + 1 }
    let mask : W64 := BitVec.ofNat 64 w
    let waits (clear : Bool) : Stream :=
      { y with state := .waitToken, wait := some { mask := mask, clear := clear, occ := none, ctoken := 0, word := word } }
    let unmet (c : Nat) (z : Bay) : Bay := if c = b then { z with met := z.met.filter (· != i.val) } else z
    (fld w 64 3 = 0 → ∃ d', exec (.syncSet b i) s = .next (s.withDev d') ∧
      s.dev.stepsTo d' b i y (fun c z => if c = b then { z with tokens := z.tokens ||| mask } else z)) ∧
    (fld w 64 3 = 1 → ∃ d', exec (.syncClear b i) s = .next (s.withDev d') ∧
      s.dev.stepsTo d' b i y (fun c z => if c = b then { z with tokens := z.tokens &&& ~~~mask, met := z.nowMet } else z)) ∧
    (fld w 64 3 = 2 → ∃ d', exec (.syncWait b i) s = .next (s.withDev d') ∧ s.dev.stepsTo d' b i (waits false) unmet) ∧
    (fld w 64 3 = 3 → ∃ d', exec (.syncWaitClr b i) s = .next (s.withDev d') ∧
      s.dev.stepsTo d' b i (waits true) unmet) ∧
    (fld w 64 3 = 4 → (s.dev.partOfBay b).isSome → s.dev.partOfBay (fld w 67 6) = s.dev.partOfBay b →
      ∃ d', exec (.syncRset b i) s = .next (s.withDev d') ∧
        s.dev.stepsTo d' b i y (fun c z => if c = fld w 67 6 then { z with rsetIn := z.rsetIn ++ [fld w 73 6] } else z))

/-- The ends of waits and what arrives: the end of a DEPART's wait, of a SYNC wait and of a branch stall, and the arrival of a
remote set. A wait that clears its tokens ends unless another clearing wait of the bay, which the order of departure keys ranks first, could
end now. -/
def Obligations.WaitsEnd : Prop :=
  ∀ (s : State) (b : Fin 64) (i : Fin 3) (token : Fin 64),
    let x := s.dev.stream b i
    let y := s.dev.bay b
    (∀ (wt : Wait) (o : Occ), x.state = .waitDepart → x.wait = some wt → s.dev.running = true → s.dev.hold.paused = false →
      s.dev.timeOut = false → (y.voidIn wt.mask = none ∨ (wt.clear = false ∧ i.val ∈ y.met)) →
      wt.occ.bind s.dev.occ = some o → o.cancelled = false → y.waitOver i wt = true →
      (o.te.early = true ∨ s.dev.depSlot o ≤ s.time.slot) → (wt.clear = false ∨ s.dev.clearBlocked s.time b i = false) →
      ∃ d', exec (.departRelease b i) s = .next (s.withDev d') ∧
        d'.stream b i = { x with state := .run, wait := none, clock := some s.time.now } ∧
        (d'.bay b).tokens = (if wt.clear then y.tokens &&& ~~~wt.mask else y.tokens) ∧ d'.mem = s.dev.mem) ∧
    (∀ wt : Wait, x.state = .waitToken → x.wait = some wt → s.dev.running = true → s.dev.hold.paused = false →
      y.waitOver i wt = true → (wt.clear = false ∨ s.dev.clearBlocked s.time b i = false) →
      ∃ d', exec (.syncWaitEnd b i) s = .next (s.withDev d') ∧ d'.stream b i = { x with state := .run, wait := none } ∧
        (d'.bay b).tokens = (if wt.clear then y.tokens &&& ~~~wt.mask else y.tokens) ∧ d'.mem = s.dev.mem ∧
        d'.parts = s.dev.parts) ∧
    (∃ d', exec (.branchStallEnd b i) s = .next (s.withDev d') ∧ d'.stream b i = { x with stall := false } ∧
      d'.mem = s.dev.mem ∧ d'.parts = s.dev.parts) ∧
    (token.val ∈ y.rsetIn → s.dev.hold.paused = false →
      ∃ d', exec (.rsetArrival b token) s = .next (s.withDev d') ∧
        d'.bay b = { y with tokens := y.tokens ||| BitVec.ofNat 64 (2 ^ token.val), rsetIn := y.rsetIn.erase token.val } ∧
        d'.mem = s.dev.mem ∧ d'.parts = s.dev.parts)

/-- DEPART binds the earliest bindable occurrence of its entry and waits; END closes the current occurrence, and the stream is
IDLE with its open drain block discarded. -/
def Obligations.DepartBindsAndEndIdles : Prop :=
  ∀ (s : State) (b : Fin 64) (i : Fin 3) (word : W128), s.dev.presents b i word = true →
    let w := word.toNat
    let d1 := s.dev.closeOcc b i
    (opc w = 0x02 → ∀ (q k : Nat) (tt : Timetable) (te : TEntry) (o : Occ) (d2 : Dev),
      s.dev.timeOut = false → s.dev.partOfBay b = some q → (d1.part q).installed = some tt →
      tt.entries[fld w 70 14]? = some te → te.stream = i → te.names b = true →
      d1.bindable (d1.stream b i) q tt (fld w 70 14) te = some k → d1.ensureOcc q tt (fld w 70 14) k = some (o, d2) →
      (o.bound = 0 ∨ o.ctoken = some (fld w 64 6)) →
      ∃ d', exec (.depart b i) s = .next (s.withDev d') ∧ (d'.stream b i).state = .waitDepart ∧
        (d'.stream b i).occ = some o.key ∧ (d'.stream b i).iptr = (s.dev.stream b i).iptr + 1 ∧
        (d'.stream b i).wait = some
          { mask := BitVec.ofNat 64 w, clear := bit w 84, occ := some o.key, ctoken := fld w 64 6, word := word } ∧
        d'.mem = s.dev.mem) ∧
    (opc w = 0x01 →
      ∃ d', exec (.endStream b i) s = .next (s.withDev d') ∧ (d'.stream b i).state = .idle ∧ (d'.stream b i).occ = none ∧
        (d'.stream b i).iptr = (s.dev.stream b i).iptr + 1 ∧ vget none (d'.bay b).openBlocks i = none ∧ d'.parts = d1.parts ∧
        d'.mem = s.dev.mem)

/-! ### Instructions of the units (R78 to R83) -/

/-- DLOAD, MOVE, MLOAD, MMUL and TURN: a unit that takes one queues it, IPTR advances, what it captures as it issues is captured, and it
has its effect on the device, at once or when what it waits for has come. -/
def Obligations.DataInstructionsAreTaken : Prop :=
  ∀ (s : State) (b : Fin 64) (i : Fin 3) (word : W128) (dry full wait : Nat), s.dev.presents b i word = true →
    let w := word.toNat
    let d := s.dev
    let t := s.time
    let j := d.issued b i word
    let jm : Issue := { j with ops := [dry, full, wait] }
    let ml := if bit w 24 then [0, 9] else [0]
    let turnBook := if bit w 18 then bookStart 0 t b else fun _ d => d
    (opc w = 0x07 → d.takes t j [] (dloadFault j d) = true →
      exec (.dload b i) s = .next (s.withDev (d.taken t j [] (fun _ d => d) (dloadEffect t j)))) ∧
    (opc w = 0x10 → d.takes t j [0, 9] (moveFault j d) = true →
      exec (.move b i) s = .next (s.withDev (d.taken t j [0, 9] (moveStart t b) (moveEffect t j)))) ∧
    (opc w = 0x20 → d.takes t j [0] (mloadFault j d) = true →
      exec (.mload b i) s = .next (s.withDev (d.taken t j [0] (mloadStart t j) (mloadEffect t j)))) ∧
    (opc w = 0x21 → d.takes t jm ml (mmulFault j d) = true →
      exec (.mmul b i dry full wait) s = .next (s.withDev (d.taken t jm ml (mmulStart j) (mmulEffect dry full wait t j)))) ∧
    (opc w = 0x40 → d.takes t j [0, 9] (turnFault j d) = true →
      exec (.turn b i) s = .next (s.withDev (d.taken t j [0, 9] turnBook (turnEffect t j))))

/-- The vector engines' instructions: VOP, VFUNC, VRED, VSCAN, VPERM, RMSN and SMAX, taken by their unit. -/
def Obligations.VectorInstructionsAreTaken : Prop :=
  ∀ (s : State) (b : Fin 64) (i : Fin 3) (word : W128) (starve gap : Nat), s.dev.presents b i word = true →
    let w := word.toNat
    let d := s.dev
    let t := s.time
    let j := d.issued b i word
    let j1 : Issue := { j with ops := [starve] }
    let j2 : Issue := { j with ops := [starve, gap] }
    let still : Flight → Dev → Dev := fun _ d => d
    let vl := (vopOpds j j.vopShape).map (·.lo)
    let fl := (vfuncOpds j).map (·.lo)
    let sl := [0, 9] ++ (if fld w 37 2 = 3 then [18] else []) ++ [27, 40]
    let rl := (rmsnOpds j).map (·.lo)
    let xl := (smaxOpds j).map (·.lo)
    (opc w = 0x30 → d.takes t j1 vl (vopFault j d) = true →
      exec (.vop b i starve) s = .next (s.withDev (d.taken t j1 vl still (vopEffect starve t j)))) ∧
    (opc w = 0x31 → d.takes t j1 fl (vfuncFault j d) = true →
      exec (.vfunc b i starve) s = .next (s.withDev (d.taken t j1 fl still (vfuncEffect starve t j)))) ∧
    (opc w = 0x32 → d.takes t j1 [0, 9] (vredFault j d) = true →
      exec (.vred b i starve) s = .next (s.withDev (d.taken t j1 [0, 9] still (vredEffect starve t j)))) ∧
    (opc w = 0x33 → d.takes t j1 sl (vscanFault j d) = true →
      exec (.vscan b i starve) s = .next (s.withDev (d.taken t j1 sl still (vscanEffect starve t j)))) ∧
    (opc w = 0x34 → d.takes t j1 [0, 9, 18] (vpermFault j d) = true →
      exec (.vperm b i starve) s = .next (s.withDev (d.taken t j1 [0, 9, 18] still (vpermEffect starve t j)))) ∧
    (opc w = 0x35 → d.takes t j2 rl (rmsnFault j d) = true →
      exec (.rmsn b i starve gap) s = .next (s.withDev (d.taken t j2 rl still (rmsnEffect starve gap t j)))) ∧
    (opc w = 0x36 → d.takes t j2 xl (smaxFault j d) = true →
      exec (.smax b i starve gap) s = .next (s.withDev (d.taken t j2 xl still (smaxEffect starve gap t j))))

/-- The quantiser, the points unit, the collective engines, the update unit and the seal unit: QUANT, ROUTE, COLL, UPD and SEAL,
taken by their unit. -/
def Obligations.OtherUnitInstructionsAreTaken : Prop :=
  ∀ (s : State) (b : Fin 64) (i : Fin 3) (word : W128), s.dev.presents b i word = true →
    let w := word.toNat
    let d := s.dev
    let t := s.time
    let j := d.issued b i word
    let still : Flight → Dev → Dev := fun _ d => d
    let book := bookStart 0 t b
    let coll := d.taken t j [0, 9] (collStart t j) still
    (opc w = 0x48 →
      (d.takes t j [0, 9] (quantFault j d) = true →
        ((fld w 18 2 = 0 ∨ fld w 18 2 = 3) →
          exec (.quantNarrow b i) s = .next (s.withDev (d.taken t j [0, 9] book (quantEffect t j)))) ∧
        (fld w 18 2 = 1 → exec (.quantStash b i) s = .next (s.withDev (d.taken t j [0, 9] book (quantEffect t j))))) ∧
      (d.takes t j [9] (quantFault j d) = true → fld w 18 2 = 2 →
        exec (.quantAmaxOnly b i) s = .next (s.withDev (d.taken t j [9] still (quantEffect t j))))) ∧
    (opc w = 0x50 → d.takes t j [0, 9, 18] (routeFault j d) = true →
      ((fld w 27 2 = 0 ∨ fld w 27 2 = 3) →
        exec (.routeTopk b i) s = .next (s.withDev (d.taken t j [0, 9, 18] still (topkEffect t j)))) ∧
      (fld w 27 2 = 1 → exec (.routeGather b i) s = .next (s.withDev (d.taken t j [0, 9, 18] book (gatherEffect t j)))) ∧
      (fld w 27 2 = 2 → exec (.routeCombine b i) s = .next (s.withDev (d.taken t j [0, 9, 18] still (combineEffect t j))))) ∧
    (opc w = 0x58 → d.takes t j [0, 9] (collFault j d) = true →
      (fld w 18 3 = 0 → exec (.collAllReduce b i) s = .next (s.withDev coll)) ∧
      (fld w 18 3 = 1 → exec (.collReduceScatter b i) s = .next (s.withDev coll)) ∧
      (fld w 18 3 = 2 → exec (.collAllGather b i) s = .next (s.withDev coll)) ∧
      (fld w 18 3 = 3 → exec (.collBroadcast b i) s = .next (s.withDev coll)) ∧
      (fld w 18 3 = 4 → exec (.collSend b i) s = .next (s.withDev coll)) ∧
      (fld w 18 3 = 5 → exec (.collReceive b i) s = .next (s.withDev coll))) ∧
    (opc w = 0x60 → d.takes t j [0, 9, 18] (updFault j d) = true →
      exec (.upd b i) s = .next (s.withDev (d.taken t j [0, 9, 18] (fun f e =>
        e.modBay b (fun y => y.modFlight f.id (fun f => { f with ctab := (e.pier (b / 16)).ctab.toNat * 0x4000 }))) still))) ∧
    (opc w = 0x68 → d.takes t j [0] (sealFault j d) = true →
      (bit w 9 = false → exec (.sealCompute b i) s = .next (s.withDev (d.taken t j [0] still (sealComputeEffect t j)))) ∧
      (bit w 9 = true → exec (.sealVerify b i) s = .next (s.withDev (d.taken t j [0] still (sealVerifyEffect t j)))))

/-! ### Control space: writes and reads of registers (R15 to R18, R36, R37, R433) -/

/-- Each clear command of a function that reaches it zeroes its own counters, or empties its log, and changes nothing else. -/
def Obligations.ClearCommandsZeroTheirCounters : Prop :=
  ∀ (s : State) (f : Func) (b : Fin 64) (p : Fin 4) (k : Fin 12) (l : Fin 32) (n : Fin 80), s.dev.settled = true →
    let d := s.dev
    (d.lets f (.qClr b) = true → exec (.qcntClear f b) s =
      .next (s.withDev (d.modBay b (fun y => { y with qCnt := Vector.replicate 2 Pair32.zero })))) ∧
    (d.lets f (.mxClr b) = true → exec (.mxCounterClear f b) s =
      .next (s.withDev (d.modBay b (fun y => { y with mxCnt := Vector.replicate 3 Pair32.zero })))) ∧
    (d.lets f (.vecClr b) = true → exec (.vecCounterClear f b) s =
      .next (s.withDev (d.modBay b (fun y => { y with vecCnt := Vector.replicate 2 Pair32.zero })))) ∧
    (d.lets f (.ptsClr p) = true → exec (.ptsCounterClear f p) s =
      .next (s.withDev (d.modPier p (fun y => { y with ptsCnt := Vector.replicate 3 Pair32.zero })))) ∧
    (d.lets f (.updClr p) = true → exec (.updCounterClear f p) s =
      .next (s.withDev (d.modPier p (fun y => { y with updCnt := Vector.replicate 4 Pair32.zero })))) ∧
    (d.lets f (.wbClr p) = true → exec (.wbCounterClear f p) s =
      .next (s.withDev (d.modPier p (fun y => { y with wbCnt := Pair32.zero })))) ∧
    (d.lets f (.hbmClr k) = true → exec (.hbmCounterClear f k) s =
      .next (s.withDev (d.modStack k (fun y => { y with cnt := Vector.replicate 3 Pair32.zero })))) ∧
    (d.lets f (.lnkClr l) = true → exec (.lnkCounterClear f l) s =
      .next (s.withDev (d.modLink l (fun y => { y with cnt := Vector.replicate 3 Pair32.zero })))) ∧
    (d.lets f .pwrClr = true → exec (.pwrCounterClear f) s =
      .next (s.withDev (d.modPwr (fun y => { y with cnt0 := Pair32.zero, cnt1 := Pair32.zero })))) ∧
    (d.lets f (.integ (blockAt n) .eclr) = true →
      exec (.eccCounterClear f n) s =
        .next (s.withDev (d.modInteg (blockAt n).index (fun y => { y with cnt0 := Pair32.zero, cnt1 := Pair32.zero }))) ∧
      exec (.eccLogClear f n) s =
        .next (s.withDev (d.modInteg (blockAt n).index (fun y => { y with log := Vector.replicate 32 LogEntry.empty })))) ∧
    (d.lets f .holeStatus = true → exec (.holeClr f) s =
      .next (s.withDev (d.modBox (fun y => { y with holeCount := 0, holePart := 0, holeNoPart := false, holeAddr := 0 }))))

/-- A write that the next slot boundary commits, accepted: it joins the waiting writes, last, and nothing else changes. That
acceptance is judged with the writes ahead taken is a DESIGN CHOICE (log entry 16). -/
def Obligations.AcceptedWritesWaitForTheBoundary : Prop :=
  ∀ (s : State) (f : Func) (v : W64) (k : Fin 12) (q : Fin 16) (p : Fin 4) (w : Fin 2) (w4 : Fin 4) (n : Fin 32) (h : Fin 64)
    (l : Fin 32), s.dev.settled = true →
    let d := s.dev
    let waits (r : Reg) (v : W64) : Host.Outcome State Fault Refusal :=
      .next (s.withDev { d with pend := d.pend ++ [{ reg := r, val := v, req := d.hostReq f }] })
    (d.accepts s.time f .pwrCap v.toNat = true → exec (.pwrCapWrite f v) s = waits .pwrCap v) ∧
    (d.accepts s.time f (.hbmReg k q) v.toNat = true → exec (.hbmRegWrite f k q v) s = waits (.hbmReg k q) v) ∧
    (d.accepts s.time f (.bondPart q w) v.toNat = true → exec (.bondPartWrite f q w v) s = waits (.bondPart q w) v) ∧
    (d.accepts s.time f (.bondSeg q n w) v.toNat = true → exec (.bondSegWrite f q n w v) s = waits (.bondSeg q n w) v) ∧
    (d.accepts s.time f (.bondPlat q w4) v.toNat = true → exec (.bondPlatWrite f q w4 v) s = waits (.bondPlat q w4) v) ∧
    (d.accepts s.time f (.bondHwin p h) v.toNat = true → exec (.bondHwinWrite f p h v) s = waits (.bondHwin p h) v) ∧
    (d.accepts s.time f (.bondPort p) v.toNat = true → exec (.bondPortWrite f p v) s = waits (.bondPort p) v) ∧
    (d.accepts s.time f (.updWb p q) v.toNat = true → exec (.updWbWrite f p q v) s = waits (.updWb p q) v) ∧
    (let r := d.retrainValue s.time l
     d.accepts s.time f (.lnkCtl l) r = true → exec (.linkRetrain f l) s = waits (.lnkCtl l) (w64 r))

/-- A write of such a register that is not accepted is discarded: all that follows is one POLICY_CONFLICT record of the register's
owner, in the ring of the writer's partition or, for a writer without one, of the administrative function. What writing that record
touches is the rings: no other part of the device changes. That acceptance is judged with the writes ahead taken is a DESIGN CHOICE
(log entry 16). -/
def Obligations.RefusedWritesLeaveAConflictRecord : Prop :=
  (∀ (s : State) (f : Func) (v : W64) (k : Fin 12) (q : Fin 16) (p : Fin 4) (w : Fin 2) (w4 : Fin 4) (n : Fin 32) (h : Fin 64),
    s.dev.settled = true →
    let d := s.dev
    let refused (c : Instr) (r : Reg) : Prop :=
      d.lets f r = true → d.accepts s.time f r v.toNat = false →
      exec c s = .next (s.withDev ((d.conflict s.time (d.hostReq f) (d.regSrc r)
        (if writerOk (d.hostReq f) r then d.conflictCount r v.toNat else 0)).goOn s.time))
    refused (.pwrCapWrite f v) .pwrCap ∧ refused (.hbmRegWrite f k q v) (.hbmReg k q) ∧
    refused (.bondPartWrite f q w v) (.bondPart q w) ∧ refused (.bondSegWrite f q n w v) (.bondSeg q n w) ∧
    refused (.bondPlatWrite f q w4 v) (.bondPlat q w4) ∧ refused (.bondHwinWrite f p h v) (.bondHwin p h) ∧
    refused (.bondPortWrite f p v) (.bondPort p) ∧ refused (.updWbWrite f p q v) (.updWb p q)) ∧
  ∀ (t : TimeUnit) (d : Dev) (req : Req) (src count : Nat),
    ∃ r : EvRec, d.wrote (d.conflict t req src count) r ∧ r.cls = 0x0B ∧ r.source = BitVec.ofNat 16 src ∧ r.count = w64 count ∧
      r.part = BitVec.ofNat 4 (req.part.getD 0) ∧ (d.conflict t req src count).sansRings = d.sansRings

/-- Host writes to a bay: tokens and void marks, VEC_STATUS, host shadows of configuration and of descriptors, RUN and HALT. A token write
that arrives in a HOLD waits (DESIGN CHOICE, log entry 125), and an ignored RUN leaves its START_IPTR (DESIGN CHOICE, log entry 127) and a
POLICY_CONFLICT record. -/
def Obligations.HostWritesToABay : Prop :=
  ∀ (s : State) (f : Func) (b : Fin 64) (i : Fin 3) (mask v : W64) (start : W32) (g : Fin 8) (fi : Fin 3) (slot : Fin 256)
    (wi : Fin 8), s.dev.settled = true →
    let d := s.dev
    let x := d.stream b i
    (d.lets f (.tokSet b) = true →
      (d.hold.paused = false → exec (.tokenSet f b mask) s =
        .next (s.withDev (d.modBay b (fun y => { y with tokens := y.tokens ||| mask })))) ∧
      (d.hold.paused = true → exec (.tokenSet f b mask) s =
        .next (s.withDev (d.modBay b (fun y => { y with tokWait := y.tokWait ++ [(true, mask)] }))))) ∧
    (d.lets f (.tokClr b) = true →
      (d.hold.paused = false → exec (.tokenClear f b mask) s =
        .next (s.withDev (d.modBay b (fun y =>
          { y with tokens := y.tokens &&& ~~~mask, void := y.void &&& ~~~mask, met := y.nowMet
                   voidClass := tabDrop y.voidClass (fun c => mask.toNat.testBit c) })))) ∧
      (d.hold.paused = true → exec (.tokenClear f b mask) s =
        .next (s.withDev (d.modBay b (fun y => { y with tokWait := y.tokWait ++ [(false, mask)] }))))) ∧
    (d.lets f (.vecStatus b i) = true → exec (.permOorClear f b i) s =
      .next (s.withDev (d.modStream b i (fun y => { y with permOor := false })))) ∧
    (d.lets f (.cfg b i g fi) = true → cfgBad g fi v.toNat = false → exec (.hostConfigWrite f b i g fi v) s =
      .next (s.withDev (d.modStream b i (fun y =>
        { y with hostCfg := y.hostCfg.filter (fun e => !(e.1 = g.val ∧ e.2.1 = fi.val)) ++ [(g.val, fi.val, v)] })))) ∧
    (d.lets f (.desc b i slot wi) = true → exec (.hostDescriptorWrite f b i slot wi v) s =
      .next (s.withDev (d.modStream b i (fun y => { y with hostDesc := y.hostDesc ++ [(slot.val, wi.val, v, false)] })))) ∧
    (d.lets f (.sqCtl b i) = true →
      ((x.state = .idle ∨ x.state = .faulted) → exec (.streamRun f b i start) s =
        .next (s.withDev (d.modStream b i (fun y => { y with startIptr := start, runPend := true })))) ∧
      ((x.occ.bind d.occ).all (fun o => !o.open) = true → exec (.streamHalt f b i start) s =
        .next (s.withDev (d.modStream b i (fun y => { y with startIptr := start, haltPend := true })))) ∧
      (x.state ≠ .idle → x.state ≠ .faulted →
        let e := (d.modStream b i (fun y => { y with startIptr := start })).conflict s.time (d.hostReq f) (baySrc 0x01 b) 0
        exec (.streamRun f b i start) s = .next (s.withDev (e.goOn s.time)) ∧ e.stream b i = { x with startIptr := start } ∧
          ∃ r : EvRec, d.wrote e r ∧ r.cls = 0x0B))

/-- A write of TT_SYNC: the source fields and ROOT act at once, a moved source leaves the unit UNLOCKED with no good measurement, and a
source that is not a link, or ROOT, has no depth. While no timetable is installed a new legal SLOT_LOG2 waits, 0 naming 16 (DESIGN CHOICE,
log entry 87). While one is installed a moved source withdraws every occurrence, and a new SLOT_LOG2 is ignored with a
POLICY_CONFLICT record. -/
def Obligations.SyncWritesMoveTheSource : Prop :=
  ∀ (s : State) (f : Func) (v : W64), s.dev.settled = true → s.dev.lets f .sync = true →
    let t := s.time
    let d := s.dev
    let n := if fld v.toNat 8 4 = 0 then 16 else fld v.toNat 8 4
    let fresh : Prop := 10 ≤ n ∧ n ≠ t.slotLog2
    let moved : Bool := bit v.toNat 2 != t.srcMode || fld v.toNat 3 5 != t.srcLink.toNat
    let d0 : Dev := if moved then { d with fab := { d.fab with srcLock := 0 } } else d
    let t' : TimeUnit :=
      { t with
        srcMode := bit v.toNat 2, srcLink := BitVec.ofNat 5 (fld v.toNat 3 5), root := bit v.toNat 12
        lock := if moved then .unlocked else t.lock, since := if moved then none else t.since
        good := if moved then 0 else t.good, depth := if bit v.toNat 2 && !bit v.toNat 12 then t.depth else 0 }
    (d.anyTimetable = false →
      exec (.ttSyncWrite f v) s =
        .next ((s.withTime { t' with newLog2 := if 10 ≤ n ∧ n ≠ t.slotLog2 then some n else t.newLog2 }).withDev d0)) ∧
    (d.anyTimetable = true →
      ∃ e : Dev, exec (.ttSyncWrite f v) s = .next ((s.withTime t').withDev (afterWrite (t', e)).2) ∧
        (moved = true → e.timeOut = true) ∧ (moved = false → ¬fresh → e = d) ∧
        (fresh → ∃ r : EvRec, (if moved then d0.timeWithdraw t else d).wrote e r ∧ r.cls = 0x0B ∧ r.source = 0x3100))

/-- GO of RETIRE, INJECT, BOND_QUOTE, UPD_RST and BOND_REPAIR.CLEAR, written by the administrative function with legal
operands: a retirement and an injection wait for their moment, a quote's nonce is asked for, and a restore starts. -/
def Obligations.GoWritesStartTheirWork : Prop :=
  ∀ (s : State) (f : Func) (b : Fin 64) (k : Fin 12) (n : Fin 80) (index : BitVec 16) (offset : BitVec 37) (kind : BitVec 2)
    (store : Bool) (buf order : BitVec 52) (p : Fin 4) (q : Fin 16), s.dev.settled = true → f = Func.admin →
    let d := s.dev
    let blk := blockAt n
    (∀ m : Fin 80, m.val = 64 + k.val → d.lets f (.integ (.stack k) .retire) = true → index.toNat < (d.stack k).c * 4096 →
      (d.integ m).pages.length + (d.integ m).pagePend.length < 64 → index.toNat ∉ (d.integ m).pages →
      index.toNat ∉ (d.integ m).pagePend →
      exec (.retireGo f m index false) s =
        .next (s.withDev (d.modInteg m (fun g =>
          { g with retireIndex := index, retireBank := false, pagePend := g.pagePend ++ [index.toNat] })).repairDue)) ∧
    (∀ m : Fin 80, m.val = b.val → d.lets f (.integ (.bay b) .retire) = true → index.toNat < 32 → d.bayPresent b = true →
      (d.integ m).banks.length + (d.integ m).bankPend.length + (d.integ m).bankCopy.length < 2 →
      index.toNat ∉ (d.integ m).banks → index.toNat ∉ (d.integ m).bankPend → index.toNat ∉ (d.integ m).bankCopy →
      exec (.retireGo f m index true) s =
        .next (s.withDev (d.modInteg m (fun g =>
          { g with retireIndex := index, retireBank := true, bankPend := g.bankPend ++ [index.toNat] })).repairDue)) ∧
    (let side : Bool := store && decide (n.val < 64)
     let a := (d.injectTarget blk side).2 + offset.toNat
     d.lets f (.integ blk .inject) = true → offset.toNat < (d.injectTarget blk side).1 → d.isRetired (regionOf a) = false →
      kind ≠ 3 →
      exec (.injectGo f n offset kind store) s =
        .next (s.withDev (d.modInteg blk.index (fun g =>
          { g with injectReg := BitVec.ofNat 40 (offset.toNat + kind.toNat * 2 ^ 37 + b2n side * 2 ^ 39)
                   inject := some { addr := a, kind := kind.toNat } })))) ∧
    (∀ o : Nat, d.lets f .bondQuote = true → d.box.quoteState ≠ 1 → d.box.idState ≠ 2 → d.adminPart = some o →
      (d.part o).inside true (buf.toNat / 64 * 64) 1600 = true →
      exec (.quoteGo f buf) s =
        .next (s.withDev ((({ d with
          box := { d.box with quoteBuf := BitVec.ofNat 46 (buf.toNat / 64), quoteState := 1 }
          bond := { d.bond with signer := d.bond.signer ++ [.quote (some (buf.toNat / 64 * 64)) none none] } } : Dev).enqueue
            (.nonce o (buf.toNat / 64 * 64)) [(buf.toNat / 64 * 64, 64)]).goOn s.time))) ∧
    (d.lets f (.updRst p q) = true → (d.part q).installed = none → (∀ i : Fin 4, vget 0 (d.pier i).rstState q ≠ 1) →
      exec (.restoreGo f p q order) s =
        .next (s.withDev (((d.modPier p (fun y =>
          { y with rstOrder := vmod y.rstOrder q (fun _ => BitVec.ofNat 44 (order.toNat / 256))
                   rstState := vmod y.rstState q (fun _ => 1) })).startRestores s.time).goOn s.time))) ∧
    (d.lets f .bondRepair = true → d.anyTimetable = false →
      exec (.repairClear f) s = .next (s.withDev (d.modBox (fun x => { x with repClear := true }))))

/-- An access through BAR0: a register that the function reaches is read or written by its own rule; anything else is a hole
access, which reads as zero, stores nothing and is counted; the bond table is read word by word. -/
def Obligations.BarAccessesReachRegistersOrHoles : Prop :=
  ∀ (s : State) (f : Func) (o : W32) (v : W64) (ep : Bool) (r : Reg), s.dev.portOpen f.port = true → s.dev.settled = true →
    let d := s.dev
    let ours := (regAt o.toNat = some r ∧ d.reaches f r = true ∧ 0x100000 ≤ o.toNat)
    let hole := (0x100000 ≤ o.toNat ∧ (regAt o.toNat = none ∨ (regAt o.toNat = some r ∧ d.reaches f r = false)))
    (ours → exec (.bar0Access f o none) s = .next (s.withDev (d.answer 5 f.port (wordBytes (d.readReg s.time r))
      (if d.regPoison r then List.replicate 8 true else [])))) ∧
    (ours →
      let x (ep : Bool) := afterWrite (d.hostPut (d.hostReq f) r v.toNat ep s.time)
      exec (.bar0Access f o (some (v, ep))) s = .next ((s.withTime (x ep).1).withDev (x ep).2) ∧
      exec (.registerWrite f o v) s = .next ((s.withTime (x false).1).withDev (x false).2)) ∧
    (ours → r = .epoch → exec (.registerWrite f o v) s = .next (s.withTime { s.time with epoch := v })) ∧
    (∀ (b : Fin 64) (i : Fin 3), ours → r = .sqBase b i →
      exec (.registerWrite f o v) s =
        .next (s.withDev (d.modStream b i (fun x => { x with base := BitVec.ofNat 48 (fld v.toNat 4 48) })))) ∧
    (hole → exec (.bar0Access f o none) s =
        .next (s.withDev ((d.countHole (d.hostReq f) o.toNat).answer 5 f.port (wordBytes 0) [])) ∧
      exec (.bar0Access f o (some (v, ep))) s = .next (s.withDev (d.countHole (d.hostReq f) o.toNat)) ∧
      exec (.registerWrite f o v) s = .next (s.withDev (d.countHole (d.hostReq f) o.toNat))) ∧
    (o.toNat < 0x100000 → o.toNat % 8 = 0 →
      exec (.bar0Access f o none) s = .next (s.withDev (d.answer 5 f.port (wordBytes (d.bondWord (o.toNat / 8))) [])))

/-- The register map: an address names at most one register, and that register's address is that address. -/
def Obligations.RegisterMapIsOneToOne : Prop :=
  ∀ (a : Nat) (r : Reg), regAt a = some r → regAddr r = a

/-- A PCIe request through BAR2 is a request of the function's partition, which is served or waits. A read or a write that lies in one
valid window reaches the window's device addresses; what lies beyond the last window is one hole access, with the bits of its BAR2 offset
recorded (DESIGN CHOICE, log entry 131). -/
def Obligations.BarWindowsReachMemory : Prop :=
  ∀ (s : State) (f : Func) (o : W64) (n : Nat) (data : Option (List Byte)) (bs : List Byte) (ep : Bool) (q base : Nat) (g : Seg),
    s.dev.portOpen f.port = true → s.dev.partOf f = some q →
    let d := s.dev
    let t := s.time
    let a := g.start + (o.toNat - base)
    exec (.bar2Access f o n data ep) s = .next (s.withDev (d.request t (.host f o.toNat n data ep))) ∧
    ∀ (job : Nat) (w : Await),
      let req := jobReq job w (d.hostReq f)
      let serves (k : Nat) (data : Option (List Byte)) : Dev := d.serve t job (.host f o.toNat k data ep) w
      let inWindow (k : Nat) : Prop :=
        ((d.part q).bar2Map.find? (fun x => decide (x.1 ≤ o.toNat) && decide (o.toNat < x.1 + (x.2.stop - x.2.start)))) =
          some (base, g) ∧ 0 < k ∧ o.toNat + k ≤ base + (g.stop - g.start)
      (inWindow n → n ≤ 4096 →
        serves n none = (d.read t req a n).2.answer 5 f.port (d.read t req a n).1.1
          (List.replicate (d.read t req a n).1.1.length ((d.read t req a n).1.2.any id))) ∧
      (inWindow bs.length → bs.length ≤ 512 → g.wr = true →
        serves n (some bs) = d.write t req a bs (List.replicate bs.length ep) []) ∧
      ((d.part q).bar2Map = [] → 0 < bs.length → bs.length ≤ 512 → serves n (some bs) = d.countHole req o.toNat)

/-- Configuration requests, function-level reset and PERST. PERST's return of VF Enable and NumVFs to 0 is PRESUMED (log entry 21),
and the configuration space is log entry 22's. -/
def Obligations.PortResetsAndConfiguration : Prop :=
  ∀ (s : State) (f : Func) (c : CfgReq) (en : Bool) (n : Nat) (v : Fin 4) (q : Nat),
    let d := s.dev
    (d.box.stage ≠ 4 → d.box.stage ≠ 3 → (d.portOf f.port).inReset = false →
      exec (.configRequest f c) s = .next (s.withDev (d.answer 7 f.port [] []))) ∧
    (d.box.stage = 3 → (d.portOf f.port).inReset = false → f.num = 0 → n ≤ (d.portOf f.port).vfs.toNat → f.port < 4 →
      exec (.configRequest f (.vfControl en n)) s =
        .next (s.withDev ((d.modPort f.port (fun y => { y with vfEnable := en, numVfs := BitVec.ofNat 5 n })).answer 5 f.port [] []))) ∧
    (f.num ≠ 0 → d.partOf f = some q → (d.part q).resetPend = none →
      exec (.functionLevelReset f) s =
        .next (s.withDev (d.modPart q (fun p => { p with resetPend := some (s.time.slot + 1) })))) ∧
    exec (.perst v true) s =
      .next (s.withDev (d.modPort v (fun y =>
        { y with inReset := true, vfEnable := false, numVfs := 0, waiting := [], nextTag := 0 }))) ∧
    exec (.perst v false) s = .next (s.withDev (d.modPort v (fun y => { y with inReset := false })))

/-! ### Line time (R38 to R44) -/

/-- The moves between lock states: a source makes an UNLOCKED unit ACQUIRING, 16 good measurements make it LOCKED, loss of the
source makes it UNLOCKED or HOLDOVER with a CAUTION record (whose EV_COUNT is the model's choice, log entry 122), and HOLDOVER ends in LOCKED or, after 10 ms, in UNLOCKED with every
occurrence withdrawn. -/
def Obligations.LockStateMoves : Prop :=
  ∀ (s : State) (offset : Int),
    let t := s.time
    let held : TimeUnit := { t with lock := .holdover, since := some t.now }
    (t.lock = .unlocked →
      exec .timeSourcePresent s = .next (s.withTime { t with lock := .acquiring, good := 0, epochSeen := false })) ∧
    (t.lock = .acquiring → 16 ≤ t.good →
      let t' : TimeUnit := { t with lock := .locked, good := 0 }
      exec .timeLock s = .next ((s.withTime t').withDev (s.dev.relock t')) ∧ (s.dev.relock t').timeOut = false) ∧
    (t.lock = .acquiring →
      exec .timeSourceLost s = .next (s.withTime { t with lock := .unlocked, good := 0, since := none })) ∧
    (t.lock = .locked →
      let d' := s.dev.emit held none { record 0x06 0x3100 with detail := 0x04 }
      exec .timeSourceLost s = .next ((s.withTime held).withDev d') ∧ d'.sansRings = s.dev.sansRings ∧
        ∃ r : EvRec, s.dev.wrote d' r ∧ r.cls = 0x06 ∧ r.source = 0x3100 ∧ r.detail = 0x04) ∧
    (t.lock = .holdover → -64 ≤ offset → offset ≤ 64 →
      exec (.timeSourceRegained offset) s = .next (s.withTime { t with lock := .locked, since := none })) ∧
    (∀ u, t.lock = .holdover → t.since = some u → u + 10000000 ≤ t.now →
      exec .holdoverExpiry s =
        .next ((s.withTime { t with lock := .unlocked, since := none, good := 0 }).withDev (s.dev.timeWithdraw t)) ∧
      (s.dev.anyTimetable = true → (s.dev.timeWithdraw t).timeOut = true))

/-- Pin mode: an LREF edge measures the count against the nearest multiple of 100 lt; the epoch instants set the count while
ACQUIRING, the first from TT_EPOCH and each later one to the next multiple of 1,000,000,000 lt, and only measure in LOCKED and HOLDOVER.
While ACQUIRING the measurement is that of the count as set (DEDUCED, log entry 86). A pending slot length takes effect at a common
boundary. -/
def Obligations.PinModeMeasuresAndSets : Prop :=
  ∀ (s : State) (n : Nat),
    let t := s.time
    let near (m : Nat) : Int := if 2 * (t.now % m) ≤ m then 16 * ((t.now % m : Nat) : Int) else 16 * (((t.now % m : Nat) : Int) - m)
    let offset (m : Nat) : BitVec 16 := BitVec.ofNat 16 (unsx 16 (near m))
    let billion := 1000000000
    (t.srcMode = false → t.lock ≠ .unlocked →
      exec .lrefEdge s = .next (s.withTime
        { t with good := if t.lock = .acquiring ∧ -64 ≤ near 100 ∧ near 100 ≤ 64 then min 16 (t.good + 1) else 0, offset := offset 100 })) ∧
    (t.srcMode = false → t.lock = .acquiring →
      ∃ t', exec .epochInstant s = .next (s.withTime t') ∧ (t.epochSeen = false → t'.ltime = t.epoch) ∧
        (t.epochSeen = true → t.now + billion ≤ 2 ^ 64 → t'.now % billion = 0 ∧ t.now ≤ t'.now ∧ t'.now < t.now + billion) ∧
        t'.epochSeen = true ∧ t'.lock = .acquiring ∧ t'.good = min 16 (t.good + 1) ∧ t'.offset = 0) ∧
    (t.srcMode = false → (t.lock = .locked ∨ t.lock = .holdover) →
      exec .epochInstant s = .next (s.withTime { t with good := 0, offset := offset billion })) ∧
    (t.newLog2 = some n → t.now % 2 ^ max n t.slotLog2 = 0 →
      exec .slotLengthChange s = .next (s.withTime { t with slotLog2 := n, newLog2 := none })) ∧
    (t.newLog2 = some n → t.now % 2 ^ max n t.slotLog2 ≠ 0 → exec .slotLengthChange s = .next s)

/-- SLOT_BOUNDARY: line time comes to the next boundary that has not been processed, the boundary's effect on the device is had, and of
the writes that waited none is left once they have committed. -/
def Obligations.SlotBoundaryComesToTheEdge : Prop :=
  ∀ s : State,
    let t := s.time.toEdge
    exec .slotBoundary s = .next ((s.withTime t).withDev (slotBoundary s.time s.dev).2) ∧
    (∀ d : Dev, (d.commitWrites t).pend = []) ∧
    (s.time.nextEdge < 2 ^ 64 → t.now % s.time.slotLen = 0 ∧ s.time.now ≤ t.now ∧ s.time.nextEdge = t.now)

/-- What a waiting write does when the boundary commits it, register by register. -/
def Obligations.WaitingWritesTakeEffect : Prop :=
  ∀ (t : TimeUnit) (d : Dev) (v : W64) (req : Req) (k : Fin 12) (q : Fin 16) (p : Fin 4) (h : Fin 64),
    let go (r : Reg) : Dev := ({ d with pend := [{ reg := r, val := v, req := req }] } : Dev).commitWrites t
    let w := v.toNat
    (go .pwrCap).pwr = { d.pwr with cap := BitVec.ofNat 16 w } ∧
    (go .pwrSlew).pwr = { d.pwr with slew := BitVec.ofNat 12 w, balen := bit w 12 } ∧
    (vget Regulator.reset ((go (.hbmReg k q)).stack k).regs q).rate = BitVec.ofNat 9 (fld w 0 9) ∧
    (vget Regulator.reset ((go (.hbmReg k q)).stack k).regs q).burst = BitVec.ofNat 7 (fld w 16 7) ∧
    (vget Regulator.reset ((go (.hbmReg k q)).stack k).regs q).hard = bit w 23 ∧
    ((go (.bondHwin p h)).portOf p).slice h = fld w 0 5 + (fld w 12 52) <<< 12 ∧
    ((go (.bondPort p)).portOf p).vfs = BitVec.ofNat 5 w ∧
    vget 0 ((go (.updWb p q)).pier p).wbTable q = BitVec.ofNat 44 (w >>> 8) ∧
    vget false ((go (.updWb p q)).pier p).wbEn q = bit w 52 ∧
    ((go (.bondPart q 0)).part q).quarters = BitVec.ofNat 16 w ∧
    ((go (.bondPart q 0)).part q).en = bit w 28 ∧
    (go .fabAddr).fab = { d.fab with addr := BitVec.ofNat 12 w, valid := bit w 12 } ∧
    (go .cwd).fab = { d.fab with cwd := BitVec.ofNat 16 w } ∧
    (go .pwrCap).pend = [] ∧ (go .pwrCap).mem = d.mem

/-! ### Reset and the invariant -/

/-- What reset leaves, where the spec gives the value: line time, TT_SYNC, the streams, the regulators, the integrity blocks,
the links, the partitions, power and the boot state (R17, R71, R76, R92, R335, R364, R402, R450, R475, R496). -/
def Obligations.ResetValues : Prop :=
  let d := State.reset.dev
  let t := State.reset.time
  State.reset.pending = [] ∧ t.ltime = 0 ∧ t.lock = .unlocked ∧ t.slotLog2 = 12 ∧ t.srcMode = false ∧ t.root = false ∧ t.epoch = 0 ∧
  d.step = 0 ∧ d.shift = 0 ∧ d.box.stage = 0 ∧ d.pwr.cap = 3400 ∧ d.pwr.slew = 50 ∧ d.pwr.balen = true ∧ d.pwr.vfloor = 0 ∧
  d.fab.cwd = 1024 ∧ d.fab.valid = false ∧
  (∀ (b : Fin 64) (i : Fin 3), (d.stream b i).state = .idle ∧ (d.stream b i).live = Cfg.reset ∧ (d.stream b i).iptr = 0) ∧
  (∀ b : Fin 64, (d.bay b).tokens = 0 ∧ (d.bay b).void = 0) ∧
  (∀ (k : Fin 12) (q : Fin 16), (vget Regulator.reset (d.stack k).regs q).rate = 16 ∧
    (vget Regulator.reset (d.stack k).regs q).burst = 16 ∧ (d.stack k).hotC = 85 ∧ (d.stack k).critC = 95) ∧
  (∀ n : Fin 80, (d.integ n).scrubEn = true ∧ (d.integ n).lapMax = 24 ∧ (d.integ n).code0 = 0) ∧
  (∀ l : Fin 32, (d.link l).en = true ∧ (d.link l).qmask = 15 ∧ (d.link l).pmapEn = 0) ∧
  (∀ q : Fin 16, (d.part q).en = false ∧ (d.part q).quarters = 0 ∧ (d.part q).platEn = false)

/-- The line-time unit is legal at reset. -/
def Obligations.InvariantHoldsAtReset : Prop := State.reset.Inv

/-- Every step keeps the line-time unit legal: the slot length, the pending length, the count of good measurements and the
holdover start. -/
def Obligations.EveryStepKeepsTheInvariant : Prop := ∀ s t : State, s.Inv → step s = .next t → t.Inv

/-! ### STEP and HOLD (R61 to R64, R68, R69) -/

/-- A pending STEP value takes effect at its slot boundary; at a step boundary the root's timetable sets STEP, and a timetable that no
longer fits is refused with a record and removed. -/
def Obligations.StepFollowsItsSources : Prop :=
  ∀ (s : State) (q : Fin 16) (v slot k : Nat) (tt : Timetable), s.dev.hold.paused = false → s.time.now % s.time.slotLen = 0 →
    let d := s.dev
    (d.stepPend.find? (fun p => p.2 = s.time.slot) = some (v, slot) →
      exec .stepApply s =
        .next (s.withDev { d with step := w64 v, stepPend := d.stepPend.filter (fun x => x.2 != s.time.slot) })) ∧
    ((d.part q).installed = some tt → d.atStep tt s.time.slot = some k →
      (tt.root = true → (tt.steps = 0 ∨ k < tt.steps) →
        ∃ d', exec (.stepBoundary q) s = .next (s.withDev d') ∧ d'.step = w64 (tt.step0 + k)) ∧
      (tt.root = false → d.recheck s.time q = none → exec (.stepBoundary q) s = .next s) ∧
      (∀ r : Refuse, tt.root = false → d.recheck s.time q = some r →
        let refused := d.emit s.time (some q) (d.refusedRecord q tt.addr tt.base { r with slot := r.slot - d.shiftOf tt.shift0 })
        let d' := refused.dropInstalled s.time q lateReset
        exec (.stepBoundary q) s = .next (s.withDev d') ∧ (d'.part q).installed = none ∧ d'.step = d.step ∧
          (d'.part q).staged = (d.part q).staged ∧
          ∃ e : EvRec, d.wrote refused e ∧ e.cls = 0x10 ∧ e.part = BitVec.ofNat 4 q.val ∧ fld e.detail.toNat 0 8 = r.cause % 256))

/-- HOLD: a raised cause is sent with its pause slot, the device pauses at the earliest pause slot, and at the latest resume slot
the shift grows by the resume slot minus the pause slot and every stream goes on. -/
def Obligations.HoldPausesAndResumeShifts : Prop :=
  ∀ (s : State) (c : HoldCause) (p r : Nat),
    let d := s.dev
    let t := s.time
    let edge : Prop := t.now % t.slotLen = 0
    (edge → d.hold.raised = [c] →
      ∃ d', exec .holdSend s = .next (s.withDev d') ∧ d'.hold.raised = [] ∧ d'.hold.seq = d.hold.seq + 1 ∧
        d'.hold.own = d.hold.own ++ [(c, d.hold.seq.toNat)] ∧
        d'.hold.live = d.hold.live ++ [{ init := d.fab.addr.toNat, seq := d.hold.seq.toNat, pause := t.slot + 1 + t.lead,
                                         resume := none, cause := c.code, src := c.src, late := false }]) ∧
    (edge → d.hold.paused = false → d.hold.pauseSlot = some p → p ≤ t.slot →
      exec .pauseSlot s = .next (s.withDev (({ d with hold := { d.hold with paused := true } } : Dev).mapStreams Stream.pause))) ∧
    (edge → d.hold.resumeSlot = some r → d.hold.pauseSlot = some p → r ≤ t.slot →
      let d' := resumeSlot t d
      exec .resumeSlot s = .next (s.withDev (d'.goOn t)) ∧ d'.shift = d.shift + w64 (r - p) ∧ d'.hold.paused = false ∧
        d'.hold.live = [] ∧ d'.stepPend = d.stepPend.map (fun x => if p ≤ x.2 then (x.1, x.2 + (r - p)) else x) ∧
        ∀ b i, b < 64 → i < 3 → d'.stream b i = (d.stream b i).unpause) ∧
    (∀ seq : Nat, d.hold.own = [(c, seq)] → d.cleared t c = true →
      ∃ (d' : Dev) (slot : Nat), exec .resumeSend s = .next (s.withDev d') ∧ d'.hold.own = [] ∧ t.slot + t.lead + 1 ≤ slot ∧
        d'.hold.live = d.hold.live.map (fun h =>
          if h.init = d.fab.addr.toNat ∧ h.seq = seq then { h with resume := some slot } else h))

/-! ### Occurrences and timetables (R47, R55 to R59, R87, R88, R498) -/

/-- What an occurrence becomes: reached at its departure slot, delivered when the work of every bay has completed, withdrawn
with cause OVERRUN when its promise has passed. The two last look at the occurrences of every timetable that has had the entry and
step, of which the first that the event is true of is meant; the new expected slot is a free value (log entry 15). -/
def Obligations.OccurrencesDepartDeliverOrOverrun : Prop :=
  ∀ (s : State) (q : Fin 16) (e : BitVec 14) (k : Nat) (tt : Timetable) (te : TEntry) (o : Occ),
    let d := s.dev
    let t := s.time
    let key : OccKey := { part := q, gen := tt.gen, entry := e.toNat, k := k }
    (d.ttFor q e.toNat k = some (tt, te) → d.occ key = some o → d.depSlot o ≤ t.slot → o.reached = false → o.open = true →
      d.hold.paused = false → d.timeOut = false → tt.resume = none → d.entryStreams te (fun x => x.state == .faulted) = [] →
      d.entryStreams te (fun x => x.state == .idle && x.afterHalt) = [] →
      exec (.departureSlot q e k) s =
        .next (s.withDev ((d.modOcc key (fun o => { o with reached := true })).drainDepart t { o with reached := true }))) ∧
    (d.hold.paused = false → d.openOccIf q e.toNat k (fun o => d.workDone o && !o.te.maint) = some o →
      exec (.occurrenceDelivered q e k) s = .next (s.withDev ((d.deliver t o.key).goOn t))) ∧
    ((d.ttFor q e.toNat k).all (fun x => (d.occ { part := q, gen := x.1.gen, entry := e.toNat, k := k }).isSome) = true →
      d.openOccIf q e.toNat k (fun o => !o.withdrawn && !o.te.maint && decide (d.promise o < t.slot)) = some o →
      d.hold.paused = false →
      ∃ slot : Nat, d.promise o + 1 ≤ slot ∧
        exec (.promiseExpiry q e k) s =
          .next (s.withDev (({ d with free := d.free + 1 } : Dev).withdraw t lateOverrun slot o.key)))

/-- Delivery of an occurrence: it is delivered once, its completion token is set in every bay of its mask, and where it records nothing
and its entry asks for no note, memory and records stay. -/
def Obligations.DeliverySetsTheCompletionToken : Prop :=
  ∀ (t : TimeUnit) (d : Dev) (o : Occ) (c : Nat), d.occ o.key = some o → o.key.part < 16 → o.te.quarter < 16 → o.ctoken = some c →
    c < 64 → o.te.record = false → d.noteJob t o = none →
    let d' := d.deliver t o.key
    (d'.occ o.key).map (fun o => o.delivered) = some true ∧ d'.mem = d.mem ∧ d'.records = d.records ∧
    (∀ b, b < 64 → (d'.bay b).tokens = if o.te.names b then (d.bay b).tokens ||| BitVec.ofNat 64 (2 ^ c) else (d.bay b).tokens) ∧
    ∀ b, b < 64 → { d'.bay b with tokens := (d.bay b).tokens } = d.bay b

/-- Withdrawing an undelivered occurrence marks it and writes one LATE record with the cause, its promised slot and the new
expected slot, to its partition. -/
def Obligations.WithdrawalWritesALateRecord : Prop :=
  ∀ (t : TimeUnit) (d : Dev) (o : Occ) (cause slot : Nat), d.occ o.key = some o → o.open = true → o.key.part < 16 → cause < 256 →
    let d' := d.withdraw t cause slot o.key
    (d'.occ o.key).map (fun o => (o.withdrawn, o.expect, o.delivered)) = some (true, some slot, false) ∧
    ∃ r : EvRec, d.wrote d' r ∧ r.cls = 0x01 ∧ r.withdrawn = true ∧ r.part = BitVec.ofNat 4 o.key.part ∧
      r.stream = BitVec.ofNat 2 o.te.stream ∧ r.entry = w32 o.key.entry ∧ r.count = w64 (d.promise o) ∧
      fld r.detail.toNat 0 8 = cause ∧ fld r.detail.toNat 32 64 = slot % 2 ^ 64

/-- Maintenance entries start in their span, when the channels that are due and the links that lack a quad retrain (which links those
are is the model's choice, log entry 139), and are delivered when it ends. -/
def Obligations.MaintenanceRunsAndEnds : Prop :=
  ∀ (s : State) (q : Fin 16) (e : BitVec 14) (k : Nat) (tt : Timetable) (te : TEntry) (o : Occ),
    let d := s.dev
    let t := s.time
    let key : OccKey := { part := q, gen := tt.gen, entry := e.toNat, k := k }
    (d.ttFor q e.toNat k = some (tt, te) → te.maint = true → d.occ key = some o → o.open = true → o.start = none → d.timeOut = false →
      d.hold.paused = false → t.now % t.slotLen = 0 → d.inSpan o t.slot = true →
      let started : Dev := { (d.modOcc key (fun o => { o with reached := true, start := some t.now })) with
        maint := some (max (d.promise o) (d.maint.getD 0)) }
      let lacks (k : Link) : Bool := k.en && k.state != .training && (k.quads &&& k.qmask != k.qmask || !k.isUp)
      exec (.maintStart q e k) s =
        .next (s.withDev (((upTo 32).filter (fun l => lacks (d.link l))).foldl (fun (d : Dev) l => d.startTraining t l)
          (started.trainDue t (d.promise o))))) ∧
    (d.hold.paused = false → d.openOccIf q e.toNat k (fun o => o.te.maint && o.start.isSome && decide (d.promise o < t.slot)) = some o →
      exec (.maintEnd q e k) s =
        .next (s.withDev (({ d.deliver t o.key with maint := if d.inMaint t then d.maint else none } : Dev).goOn t)))

/-- A staged timetable takes over at its TH_BASE; at a slot boundary a timetable whose steps are over and whose occurrences have all
been noted and delivered or withdrawn is removed. -/
def Obligations.TimetablesTakeOverAndGo : Prop :=
  ∀ (s : State) (q : Fin 16) (tt : Timetable), s.dev.hold.paused = false →
    let d := s.dev
    let t := s.time
    ((d.part q).staged = some tt → tt.base + d.shiftOf tt.shift0 ≤ t.slot →
      ∃ d', exec (.timetableTakeover q) s = .next (s.withDev d') ∧ (d'.part q).installed = some tt ∧ (d'.part q).staged = none ∧
        (∀ r, r < 16 → r ≠ q.val → d'.part r = d.part r) ∧ d'.bays = d.bays ∧ d'.mem = d.mem) ∧
    ((d.part q).installed = some tt → tt.steps ≠ 0 → tt.base + tt.steps * tt.period + d.shiftOf tt.shift0 ≤ t.slot →
      t.now % t.slotLen = 0 → d.occTotal q tt ≤ ((d.part q).occs.filter (fun o => o.key.gen == tt.gen)).length →
      (∀ o ∈ (d.part q).occs, o.key.gen = tt.gen → o.open = true → o.withdrawn = true) →
      ∃ d', exec (.timetableRemoval q) s = .next (s.withDev d') ∧ (d'.part q).installed = (d.part q).staged ∧
        (d'.part q).staged = none ∧ (∀ r, r < 16 → r ≠ q.val → d'.part r = d.part r) ∧ d'.bays = d.bays ∧ d'.mem = d.mem)

/-! ### Submissions, admission, partitions (R435, R436, R440, R443, R444, R498) -/

/-- The five submissions, well formed and in scope. INSTALL, with no replacement staged and no admission under way, starts admission, whose
answer is its reply: its arrays are looked at for one entry here (DEDUCED, log entry 128). WITHDRAW and RESET note what the next boundary
does, START and MODEL write the host's fields of every masked stream, and these four owe a DONE reply at the next slot. -/
def Obligations.SubmissionsHaveTheirEffect : Prop :=
  ∀ (s : State) (q : Fin 16) (w : W512),
    let d := s.dev
    let t := s.time
    let p := d.part q
    let v (kind : Nat) : Nat := withKind kind w.toNat
    let hdr := fld (v 1) 64 64
    let promises := fld (v 1) 128 64
    let note := fld (v 1) 192 64
    let noteBase := fld (v 1) 256 64
    let masked (kind : Nat) : List (Nat × Nat) := maskStreams (fld (v kind) 64 64) (fld (v kind) 128 3)
    let base (kind : Nat) : Nat := fld (v kind) 192 64
    let due (kind : Nat) : Nat × List Nat := (t.slot + 1, doneBytes (fld (v kind) 32 32) (t.slot + 1))
    let done (kind : Nat) (x : Dev) : Dev := x.modPart q (fun p => { p with replies := p.replies ++ [due kind] })
    (submitBad (v 1) = false → p.staged = none → p.install = none → p.inside false hdr 64 = true →
      p.inside true promises 8 = true → (note = 0 ∨ (p.inside false note 1 = true ∧ p.inside false noteBase 32 = true)) →
      exec (.submitInstall q w) s = .next (s.withDev (d.modPart q (fun p =>
        { p with install := some { header := hdr, promises := promises, notify := note, noteBase := noteBase, subid := fld (v 1) 32 32 } })))) ∧
    (submitBad (v 2) = false →
      exec (.submitWithdraw q w) s = .next (s.withDev (done 2 (d.modPart q (fun p => { p with withdraw := true }))))) ∧
    (submitBad (v 3) = false → d.masksForeign q (fld (v 3) 64 64) = false → p.inside false (base 3) 16 = true →
      (∀ x ∈ masked 3, (d.stream x.1 x.2).state = .idle ∨ (d.stream x.1 x.2).state = .faulted) →
      ∃ d', exec (.submitStart q w) s = .next (s.withDev d') ∧
        (∀ b i, b < 64 → i < 3 → d'.stream b i = if (b, i) ∈ masked 3 then
          { d.stream b i with base := BitVec.ofNat 48 (fld (base 3) 4 48), startIptr := w32 (fld (v 3) 256 32), runPend := true }
          else d.stream b i) ∧
        (d'.part q).replies = p.replies ++ [due 3] ∧ d'.mem = d.mem ∧ d'.records = d.records) ∧
    (submitBad (v 4) = false → d.masksForeign q (fld (v 4) 64 64) = false → p.inside false (base 4) 1 = true →
      cfgBad 0 0 (base 4) = false →
      ∃ d', exec (.submitModel q w) s = .next (s.withDev d') ∧
        (∀ b i, b < 64 → i < 3 → d'.stream b i = if (b, i) ∈ masked 4 then
          { d.stream b i with
            hostCfg := (d.stream b i).hostCfg.filter (fun e => !(e.1 = 0 ∧ e.2.1 = 0)) ++ [(0, 0, w64 (base 4))] }
          else d.stream b i) ∧
        (d'.part q).replies = p.replies ++ [due 4] ∧ d'.mem = d.mem ∧ d'.records = d.records) ∧
    (submitBad (v 5) = false → p.resetPend = none →
      exec (.submitReset q w) s = .next (s.withDev (done 5 (d.modPart q (fun p => { p with resetPend := some (t.slot + 1) })))))

/-- A submission whose KIND is reserved or whose reserved bytes are not zero is refused with cause KIND (0x20), and nothing
but that reply follows. The submission commands set KIND themselves; an entry of the ring that holds a reserved one is refused so too. -/
def Obligations.BadSubmissionsAreRefused : Prop :=
  ∀ (s : State) (q : Fin 16) (w : W512),
    let refused (v : Nat) : Dev :=
      s.dev.reply q s.time.slot (refusedBytes (fld v 32 32) s.time.slot 0 (refuseAt 0x20 0))
    let refuse (kind : Nat) : Host.Outcome State Fault Refusal := .next (s.withDev (refused (withKind kind w.toNat)))
    (submitBad (withKind 1 w.toNat) = true → exec (.submitInstall q w) s = refuse 1) ∧
    (submitBad (withKind 2 w.toNat) = true → exec (.submitWithdraw q w) s = refuse 2) ∧
    (submitBad (withKind 3 w.toNat) = true → exec (.submitStart q w) s = refuse 3) ∧
    (submitBad (withKind 4 w.toNat) = true → exec (.submitModel q w) s = refuse 4) ∧
    (submitBad (withKind 5 w.toNat) = true → exec (.submitReset q w) s = refuse 5) ∧
    ((fld w.toNat 0 8 = 0 ∨ 5 < fld w.toNat 0 8) → s.dev.submit s.time q w.toNat false = refused w.toNat)

/-- ADMISSION_COMPLETE reads the timetable and answers, once nothing it reads makes it wait; and the answer is one of these: an accepted
timetable is installed, or staged while another is installed; a refused one leaves an ADMISSION_REFUSED record and installs nothing;
and one whose arrays leave the partition's windows is refused without a record (DEDUCED, log entry 128). -/
def Obligations.AdmissionInstallsStagesOrRefuses : Prop :=
  (∀ (s : State) (q : Fin 16) (ins : Install),
    let d := s.dev
    let t := s.time
    (d.part q).install = some ins → d.awaits 78 q = false → d.whole t ins.await (Dev.admitEffect t q ins ins.await) = true →
    exec (.admissionComplete q) s = .next (s.withDev (d.had t (Dev.admitEffect t q ins ins.await)))) ∧
  (∀ (t : TimeUnit) (q : Fin 16) (ins : Install) (w : Await) (d : Dev),
    let x := d.readTimetable t { d.coreReq q with flight := some (78, q), await := w } q ins
    x.2.stall = [] → Dev.admitEffect t q ins w d = x.2.admitPlan t q ins x.1.1 x.1.2.1 x.1.2.2) ∧
  ∀ (t : TimeUnit) (q : Fin 16) (ins : Install) (h : THeader) (tt : Timetable) (bad : Bool) (d : Dev),
    let p := d.part q
    let d2 := d.modPart q (fun p => { p with install := none })
    let d' := d.admitPlan t q ins h tt bad
    let arrays := p.arraysInside ins.promises ins.notify ins.noteBase h.entries
    (d'.part q).install = none ∧
    (bad = false → 1 ≤ h.entries → h.entries ≤ 16384 → arrays = false →
      (d'.part q).installed = p.installed ∧ (d'.part q).staged = p.staged) ∧
    ((bad = true ∨ h.entries = 0 ∨ 16384 < h.entries ∨ arrays = true) →
      match admission t d2 q h tt bad with
      | none =>
        (match p.installed with
         | none => (d'.part q).installed = some tt ∧ (d'.part q).staged = p.staged
         | some old => (d'.part q).installed = some old ∧ (d'.part q).staged = some tt)
      | some r => (d'.part q).installed = p.installed ∧ (d'.part q).staged = p.staged ∧
          ∃ e : EvRec, d2.wrote d' e ∧ e.cls = 0x10 ∧ e.part = BitVec.ofNat 4 q.val ∧ fld e.detail.toNat 0 8 = r.cause % 256)

/-- Partition reset, clean quarters and zeroed windows. A reset withdraws and discards, places the partition's streams in IDLE, clears its
tokens and stops a running restore; then what waited goes on. A window in this device's memory reads as zeros when its zeroing ends. -/
def Obligations.PartitionsResetAndComeClean : Prop :=
  ∀ (s : State) (q : Fin 16) (i : Fin 16) (n : Fin 32) (due : Nat),
    let d := s.dev
    let t := s.time
    ((d.part q).resetPend = some due → due ≤ t.slot → t.now % t.slotLen = 0 →
      let d' := partitionReset q t d
      exec (.partitionReset q) s = .next (s.withDev (d'.goOn t)) ∧ (d'.part q).resetPend = none ∧ (d'.part q).installed = none ∧
        (d'.part q).staged = none ∧ (d'.part q).install = none ∧ (d'.part q).withdraw = false ∧
        (∀ p : Fin 4, vget 0 (d'.pier p).rstState q ≠ 1 ∧ ∀ r ∈ (d'.pier p).restores, r.part ≠ q.val) ∧
        (∀ b ∈ (d.part q).bays, b < 64 → (d'.bay b).tokens = 0 ∧ (d'.bay b).void = 0 ∧
          ∀ j : Fin 3, (d'.stream b j).state = .idle ∧ (d'.stream b j).occ = none ∧ (d'.stream b j).runPend = false)) ∧
    ((d.part q).cleaning.toNat.testBit i = true → (d.part q).cleanDone.toNat.testBit i = false →
      ∃ d', exec (.quarterCleanDone q i) s = .next (s.withDev d') ∧
        (d'.part q).cleanDone = (d.part q).cleanDone ||| BitVec.ofNat 16 (2 ^ i.val) ∧
        ∀ b : Nat, b / 4 = i.val → (d'.bay b).tokens = 0 ∧ (d'.bay b).tiles = [] ∧ (d'.bay b).drain = [] ∧
          ∀ j : Fin 3, (d'.stream b j).live = Cfg.reset ∧ (d'.stream b j).shadow = Cfg.reset ∧ (d'.stream b j).desc = []) ∧
    ((d.part q).zeroing.contains n.val = true →
      let g := vget Seg.none (d.part q).segs n
      let here : Prop := match regionOf g.start with | .host _ _ => False | .peer _ _ => False | _ => True
      exec (.segmentZeroDone q n) s =
        .next (s.withDev (((d.zeroWindow t q g).modPart q (fun p =>
          { (p.modSeg n (fun g => { g with valid := true })) with zeroing := p.zeroing.filter (· != n.val) })).goOn t)) ∧
      (here → d.zeroWindow t q g = d.modMem (·.fillRange g.start (g.stop - g.start) false)))

/-! ### What a bay's units do after issue (R80, R81, R160, R183, R187) -/

/-- STATIONARY_SWAP, DRAIN_WRITEOUT, AMAX_RECORD_UPDATE and INSTRUCTION_COMPLETE: the oldest staged tile enters the cells, the
next slot row of the oldest closed block is written out, the oldest owed amax update is sent, an instruction that waited has its effect,
and one whose results are written leaves its queue once nothing that it has sent is unanswered. -/
def Obligations.UnitsFinishWhatTheyTook : Prop :=
  ∀ (s : State) (b : Fin 64) (stall n : Nat) (f : Flight),
    let d := s.dev
    let t := s.time
    let y := d.bay b
    (∀ (id : Nat) (st : Stationary) (rest : List (Nat × Stationary)), y.staged = (id, st) :: rest →
      ∃ d', exec (.stationarySwap b stall) s = .next (s.withDev d') ∧ (d'.bay b).array = st ∧ (d'.bay b).staged = rest ∧
        (d'.bay b).mxCnt = vmod y.mxCnt 0 (fun c => c.addHi (64 + stall)) ∧ (d'.bay b).tiles = y.tiles ∧ d'.mem = d.mem ∧
        ∀ g ∈ (d'.bay b).flights, g.id = id → g.done = true) ∧
    (∀ k : Block, y.oldestClosed = some k → y.flights.find? (fun g => g.id = k.flight) = some f → d.awaitsRead b f.id = false →
      (d.whole t f.await (Dev.writeRow t b k f) = true →
        exec (.drainWriteout b) s = .next (s.withDev ((d.had t (Dev.writeRow t b k f)).modBay b (fun y =>
          y.modFlight f.id (fun f => { f with await := Await.none }))))) ∧
      (∀ tile : Nat, f.opd 9 = .tile tile → k.written + 1 < k.rows → d.owed = [] → f.await.due ≤ t.now →
        ∃ d', exec (.drainWriteout b) s = .next (s.withDev d') ∧ d'.mem = d.mem ∧ (d'.bay b).drain = y.drain ∧
          ∀ c, c < 128 → (k.result k.written c).isSome →
            (d'.bay b).cell (tile + c / 64) k.written (c % 64) = tabGet 0 y.drain (128 * ((k.base + k.written) % 1024) + c))) ∧
    (y.flights.find? (fun g => g.amax != []) = some f →
      let update := Dev.amaxUpdate t { f.req 0x05 b with await := f.await } f.cfg.qamax.toNat f.amax f.step
      d.whole t f.await update = true →
      exec (.amaxRecordUpdate b) s =
        .next (s.withDev ((d.had t update).modBay b (fun y => y.modFlight f.id (fun g => { g with amax := [], done := true }))))) ∧
    (y.flights.find? (fun g => g.id = n) = some f →
      (f.waits = false → f.done = true → f.amax = [] → d.awaits b n = false →
        exec (.instructionComplete b n) s = .next (s.withDev (d.modBay b (·.leave n)))) ∧
      (f.waits = true → d.awaitsRead b n = true → exec (.instructionComplete b n) s = .next s) ∧
      (f.waits = true → d.awaitsRead b n = false →
        let d1 := d.runEffect t b n f.await (fun d => (d.reissue b f).effect t d)
        (∀ g ∈ (d1.bay b).flights, g.id = n → g.done = false) → exec (.instructionComplete b n) s = .next (s.withDev d1)))

/-- The collective engines. An engine begins a collective that all bays of its occurrence have issued: it is running then, and its COLLs
have left their queues. One with nothing more to come ends once its results and its status record are stored: it leaves, and its COLLs'
results are written. One whose watchdog has run out is abandoned: nothing more of it is sent, its occurrence is withdrawn with the new
expected slot all ones, and it ends with cause 1. A status record holds STEP, SEQ, N, INCL, DROPC, STATE, CAUSE and WHO. -/
def Obligations.CollectivesBeginCompleteOrAreAbandoned : Prop :=
  ∀ (s : State) (n : Nat) (c : Coll), s.dev.colls[n]? = some c →
    let d := s.dev
    let t := s.time
    let gone (d' : Dev) : Prop :=
      d'.colls = d.colls.eraseIdx n ∧ ∀ e ∈ c.issued, e.1 < 64 → ∀ g ∈ (d'.bay e.1).flights, g.id = e.2 → g.done = true
    (d.collReady t c = true → d.collAwaits c = false →
      let e := c.issued.foldl (fun (d : Dev) x => d.modBay x.1 (·.beginFlight x.2)) d
      let d' := e.had t (Dev.collBegin t n c)
      e.whole t c.await (Dev.collBegin t n c) = true → (collShape c.op (e.collBays c)).isSome → e.collBays c ≠ [] →
      exec (.collEngineStart n) s = .next (s.withDev d') ∧
        (∃ c', d'.colls[n]? = some c' ∧ c'.running = true ∧ c'.occ = c.occ ∧ c'.seq = c.seq ∧ c'.issued = c.issued) ∧
        ∀ x ∈ c.issued, x.1 < 64 → ∀ g ∈ (d'.bay x.1).flights, g.id = x.2 → g.begun = true) ∧
    (c.running = true → c.todo = [] → d.collAwaits c = false → d.whole t c.await (Dev.collFinish t n c) = true →
      let d' := d.had t (Dev.collFinish t n c)
      exec (.collComplete n) s = .next (s.withDev d') ∧ gone d') ∧
    (∀ o : Occ, d.watchdogDue t c = true → d.occ c.occ = some o → o.open = true → c.occ.part < 16 →
      let c1 : Coll := { c with ending := some (1, d.fab.addr.toNat), todo := [], held := [] }
      ∃ e : Dev, exec (.collWatchdog n) s = .next (s.withDev (collComplete n t e)) ∧ e.colls = d.colls.set n c1 ∧
        (e.occ c.occ).map (fun o => (o.withdrawn, o.expect)) = some (true, some noSlot) ∧
        (e.collAwaits c1 = false → e.whole t c.await (Dev.collFinish t n c1) = true →
          gone (collComplete n t e) ∧ ((collComplete n t e).occ c.occ).map (fun o => o.withdrawn) = some true)) ∧
    (∀ state cause who : Nat, state < 256 → cause < 256 →
      let r := c.status state cause who
      let w := ofBytes r
      r.length = 32 ∧ fld w 0 64 = c.step.toNat ∧ fld w 64 16 = c.seq % 65536 ∧ fld w 80 16 = c.ps.n % 65536 ∧
        fld w 96 16 = c.included % 65536 ∧ fld w 112 16 = c.dropc % 65536 ∧ fld w 128 8 = state ∧ fld w 136 8 = cause ∧
        fld w 144 16 = who % 65536)

/-- The update unit: its prologue takes the UPD at the front of a bay's PIER queue and keeps what it found, its body leaves the epilogue
to come, and the epilogue writes k + 1 to the Down line's header, frees the unit and has the UPD's results written. -/
def Obligations.UpdateUnitRunsItsPhases : Prop :=
  ∀ (s : State) (b : Fin 64) (p : Fin 4) (extra stall : Nat) (f : Flight) (st g : Desc) (u : UpdRun),
    let d := s.dev
    let t := s.time
    f.opd 0 = .desc st → f.opd 9 = .desc g →
    ((d.pier (b / 16)).upd = none → (d.bay b).nextUpd = some f → d.awaits b f.id = false →
      let begin' (d : Dev) : Dev := updPrologueEffect b extra t f st g (d.modBay b (·.beginFlight f.id))
      let e : Dev := { d with stall := [], late := 0 }
      d.whole t f.await begin' = true → ∀ (m : Nat) (d1 : Dev), (e.modBay b (·.beginFlight f.id)).prologue t b extra f st g = (.ok (u, m), d1) →
      exec (.updPrologue b extra) s = .next (s.withDev (d.had t begin')) ∧ ((d.had t begin').pier (b / 16)).upd = some u ∧
        u.phase = 0 ∧ u.bay = b.val ∧ u.flight = f.id) ∧
    ((d.pier p).upd = some u → d.updFlight u = some f → d.awaits u.bay f.id = false →
      let settled (d : Dev) : Dev := d.modBay u.bay (fun y => y.modFlight f.id (fun f => { f with await := Await.none }))
      (u.phase = 0 → d.whole t f.await (updRunEffect p stall t u f st g) = true →
        let d' := settled (d.had t (updRunEffect p stall t u f st g))
        let o := u.ops g st.slot
        let e : Dev := { d with stall := [], late := 0 }
        let seals := e.updSeals t u.bay f (f.updReq u.bay) u o
        let body := if bit f.word.toNat 36 then
            seals.2.lazyFrom t (f.updReq u.bay) u o f.step.toNat f.cfg.sealchk seals.1 (u.lazyRows g) UpdCount.zero
          else seals.2.denseFrom t (f.updReq u.bay) u o f.step.toNat f.cfg.sealchk seals.1 (upTo g.bricks) UpdCount.zero
        exec (.updRun p stall) s = .next (s.withDev d') ∧
          (body.1 = none → ∃ bad, (d'.pier p).upd = some { u with phase := 1, spoil := bad })) ∧
      (u.phase = 1 →
        let header := toBytes 8 (f.step + 1).toNat ++ (if bit f.word.toNat 36 then toBytes 4 u.listed.length else [])
        let fin (d : Dev) : Dev :=
          (((d.store t (f.updReq u.bay) u.down (byteList header) (List.replicate header.length u.spoil) []).updBusy p 40 f.occ).modPier p
            (fun x => { x with upd := none })).finish u.bay f.id
        d.whole t f.await fin = true →
        exec (.updEpilogue p) s = .next (s.withDev (d.had t fin)) ∧ ((d.had t fin).pier p).upd = none))

/-! ### Memory (R301 to R319, R338, R347) -/

/-- A request reaches its controller: it is served at once, or waits, in arrival order, where its memory serves no request now. Served, a
read answers with the bytes read, a write writes them, each memory-side operation combines by its own code, and a reserved code is
discarded with an ADMISSION_REFUSED record. A write of control space goes to registers. -/
def Obligations.MemoryRequestsReachTheirControllers : Prop :=
  ∀ (s : State) (a : BitVec 52) (n tag : Nat) (src : BitVec 16) (part : Option (Fin 16)) (data : List Byte)
    (poison mask : List Bool) (code : BitVec 4),
    let d := s.dev
    let t := s.time
    let own := part.map Fin.val
    let region := d.regionAt a.toNat
    let hbm : Prop := match region with | .hbm _ _ => True | _ => False
    let control : Prop := match region with | .control _ => True | _ => False
    let mem (m : MemReq) : Dev := d.request t (.mem m)
    let ms (c : Instr) (code : Nat) : Prop :=
      exec c s = .next (s.withDev (mem (.atomic code a.toNat (data.take 64) poison mask src.toNat own)))
    (0 < n → n ≤ 4096 → exec (.memoryRead a n src part tag 0) s = .next (s.withDev (mem (.read a.toNat n src.toNat own tag)))) ∧
    (data.length ≤ 4096 →
      (¬control → exec (.memoryWrite a src part data poison mask) s =
        .next (s.withDev (afterWrite (t, mem (.write a.toNat data poison mask src.toNat own))).2)) ∧
      (control →
        let x := afterWrite (d.controlPut (plainReq src.toNat own) a.toNat data poison mask t)
        exec (.memoryWrite a src part data poison mask) s = .next ((s.withTime x.1).withDev x.2))) ∧
    (hbm →
      ms (.msMerge a src part data poison mask) 0 ∧ ms (.msAddFp32 a src part data poison mask) 1 ∧
      ms (.msAddBf16 a src part data poison mask) 2 ∧ ms (.msAddInt32 a src part data poison mask) 3 ∧
      ms (.msAddInt64 a src part data poison mask) 4 ∧ ms (.msMaxFp32 a src part data poison mask) 5 ∧
      ms (.msMinFp32 a src part data poison mask) 6 ∧ ms (.msMaxBf16 a src part data poison mask) 7 ∧
      ms (.msMinBf16 a src part data poison mask) 8 ∧ ms (.msMaxInt32 a src part data poison mask) 9 ∧
      ms (.msMinInt32 a src part data poison mask) 10 ∧ ms (.msMaxInt64 a src part data poison mask) 11 ∧
      ms (.msMinInt64 a src part data poison mask) 12 ∧
      (13 ≤ code.toNat → exec (.msReservedOp code a src part) s =
        .next (s.withDev (mem (.atomic code.toNat a.toNat [0] [] [] src.toNat own))))) ∧
    (∀ j : Work, let e : Dev := { d with nextJob := d.nextJob + 1 }
      e.whole t Await.none (Dev.serve t d.nextJob j Await.none) = true →
      d.request t j = e.had t (Dev.serve t d.nextJob j Await.none)) ∧
    (∀ m : MemReq, d.owed = [] → (match m with
        | .read x k _ _ _ => x = a.toNat ∧ k = n ∧ d.mustWait x k = true
        | .write x bs _ _ _ _ => x = a.toNat ∧ bs = data ∧ d.mustWait x bs.length = true
        | .atomic _ x bs _ _ _ _ => x = a.toNat ∧ bs = data ∧ 0 < bs.length ∧ hbm ∧ d.mustWait x bs.length = true) →
      ∃ h : Held, h.id = d.nextJob ∧ h.work = .mem m ∧ mem m = { d with nextJob := d.nextJob + 1, held := d.held ++ [h] }) ∧
    ∀ (job : Nat) (w : Await),
      let q := jobReq job w (plainReq src.toNat own)
      let serves (m : MemReq) : Dev := d.serve t job (.mem m) w
      (¬control → serves (.read a.toNat n src.toNat own tag) = (d.read t q a.toNat n).2.answer 1 tag (d.read t q a.toNat n).1.1
        (d.read t q a.toNat n).1.2) ∧
      serves (.write a.toNat data poison mask src.toNat own) = d.write t q a.toNat data poison mask ∧
      serves (.atomic code.toNat a.toNat data poison mask src.toNat own) = d.atomic t q code.toNat a.toNat data poison mask ∧
      (hbm → 13 ≤ code.toNat → d.mustWait a.toNat 1 = false →
        let d' := d.atomic t q code.toNat a.toNat [0] [] []
        d'.sansRings = d.sansRings ∧ ∃ r : EvRec, d.wrote d' r ∧ r.cls = 0x10 ∧ r.addr = a ∧ fld r.detail.toNat 0 8 = 0x41)

/-- A write to HBM that serves requests, without stored errors, owed records or reports of its dies: its bytes, where the mask selects
them, are in memory and every other byte reads as before; a memory-side operation combines the old elements with the operands and
nothing else. -/
def Obligations.HbmWritesAndOperationsChangeTheirBytesOnly : Prop :=
  ∀ (t : TimeUnit) (d : Dev) (q : Req) (k o a code : Nat) (data : List Byte) (poison mask : List Bool),
    d.regionAt a = .hbm k o → d.mustWait a data.length = false → d.mem.errs = [] → d.deadGranules a data.length = [] →
    d.owed = [] → (d.stack k).dies = [] → 1 ≤ code → code ≤ 12 →
    (d.write t q a data poison mask).mem = d.mem.putAll a data poison mask ∧
    (d.atomic t q code a data poison mask).mem = d.mem.combine code a data poison mask ∧
    (∀ x, x < a ∨ a + data.length ≤ x → (d.write t q a data poison mask).mem.byte x = d.mem.byte x ∧
      (d.atomic t q code a data poison mask).mem.byte x = d.mem.byte x) ∧
    (∀ i, i < data.length → mask.getD i true = true →
      (d.write t q a data poison mask).mem.byte (a + i) = (if poison.getD i false then 0 else data.getD i 0) ∧
      (d.write t q a data poison mask).mem.isPoison (a + i) = poison.getD i false) ∧
    (d.mem.wf = true → (d.write t q a data poison mask).mem.wf = true ∧ (d.atomic t q code a data poison mask).mem.wf = true)

/-- The INT32 add of the memory-side unit on one aligned, good element: the sum modulo 2^32; poison of the old element or of an
operand byte poisons the result. -/
def Obligations.MemorySideAddIsModular : Prop :=
  ∀ (m : Memory) (a : Nat) (data : List Byte) (poison : List Bool), a % 4 = 0 → data.length = 4 →
    let bad : Bool := poison.getD 0 false || poison.getD 1 false || poison.getD 2 false || poison.getD 3 false || m.anyPoison a 4
    let m' := m.combine 3 a data poison []
    (bad = false → m'.word a 4 = (m.word a 4 + ofBytes (natBytes data)) % 2 ^ 32 ∧ m'.anyPoison a 4 = false) ∧
    (bad = true → ∀ i, i < 4 → m'.isPoison (a + i) = true) ∧
    ∀ x, x < a ∨ a + 4 ≤ x → m'.byte x = m.byte x ∧ m'.isPoison x = m.isPoison x

/-! ### Integrity (R318, R328, R345, R347, R360 to R364, R502) -/

/-- What controllers and scrubbers do by themselves: write-backs, the merge buffer, refresh, scrub steps and overdue laps, zeroed
regions, bank copies and injections. After the end of a zeroing or of a copy the requests that waited for it go on. The ranges of a
bay's scrub lap are DEDUCED (log entry 66). -/
def Obligations.ControllersKeepTheirMemory : Prop :=
  ∀ (s : State) (a : BitVec 52) (k : Fin 12) (b : Fin 64) (i : Fin 32) (n : Fin 80) (region : Fin 128) (e : Nat) (j : Injection),
    let d := s.dev
    let t := s.time
    (d.mem.backs.contains a.toNat = true → exec (.correctionWriteback a) s = .next (s.withDev (d.modMem (·.fix a.toNat)))) ∧
    exec (.mergeEvict k) s = .next (s.withDev (d.modStack k (fun k => { k with merge := k.merge.dropLast }))) ∧
    exec (.refresh k) s = .next s ∧
    (let blk := blockAt n
     let g := d.integ n
     g.scrubEn = true → d.scrubSize blk ≠ 0 → d.isRetired (d.regionAt (scrubAddr blk g.scrubPos)) = false →
      d.isFailed (d.regionAt (scrubAddr blk g.scrubPos)) = false → d.mustWait (scrubAddr blk g.scrubPos) (scrubUnit blk) = false →
      d.mem.errs = [] → d.owed = [] → (∀ k : Fin 12, (d.stack k).dies = []) →
      g.scrubPos + scrubUnit blk < (lapRange blk (d.scrubSize blk) g.scrubPos).2 →
      exec (.scrubStep n) s = .next (s.withDev (d.modInteg n (fun g => { g with scrubPos := g.scrubPos + scrubUnit blk })))) ∧
    ((d.integ n).lapLate = false → (d.integ n).scrubEn = true →
      (d.integ n).lapStart + (d.integ n).lapMax.toNat * 3600000000000 ≤ t.now →
      ∃ (d' : Dev) (r : EvRec), exec (.scrubLapOverdue n) s = .next (s.withDev d') ∧ (d'.integ n).lapLate = true ∧
        d.wrote d' r ∧ r.cls = 0x06 ∧
        r.source = BitVec.ofNat 16 (errorSrc (blockAt n) (scrubAddr (blockAt n) (d.integ n).scrubPos)) ∧ fld r.detail.toNat 0 8 = 6) ∧
    ((d.integ n).zeroing.contains region.val = true →
      exec (.regionZeroDone n region) s =
        .next (s.withDev (((d.modMem (·.fillRange (codeRegion (blockAt n) region).1 (codeRegion (blockAt n) region).2 false)).modInteg n
          (fun g => { g with zeroing := g.zeroing.filter (· != region.val) })).goOn t))) ∧
    ((d.integ b).bankPend.contains i.val = true → d.maint = some e → t.now + 800000 ≤ (e + 1) * t.slotLen →
      exec (.capBankCopy b i) s =
        .next (s.withDev (d.modInteg b (fun g =>
          { g with bankPend := g.bankPend.filter (· != i.val), bankCopy := g.bankCopy ++ [i.val] })))) ∧
    ((d.integ b).bankCopy.contains i.val = true →
      exec (.capBankCopyDone b i) s =
        .next (s.withDev ((d.modInteg b (fun g =>
          { g with bankCopy := g.bankCopy.filter (· != i.val), banks := g.banks ++ [i.val] })).repairDue.bondDue.goOn t))) ∧
    ((d.integ n).inject = some j → j.kind < 2 →
      exec (.injectApply n) s =
        .next (s.withDev ((d.modInteg n (fun g => { g with inject := none })).modMem (fun m =>
          if 64 ≤ n.val ∧ n.val < 76 then
            (if j.kind = 1 then (m.flip j.addr 1).flip (j.addr / 32 * 32 + (j.addr + 1) % 32) 1 else m.flip j.addr 1)
          else m.flip j.addr (if j.kind = 1 then 3 else 1))))) ∧
    ((d.integ n).inject = some j → j.kind = 2 → (n.val < 64 ∨ 76 ≤ n.val) →
      exec (.injectApply n) s = .next (s.withDev ((d.modInteg n (fun g => { g with inject := none })).modMem (·.put j.addr 0 true))))

/-- Temperature of a stack: a reading is kept, counts 16 µs outside NORMAL, and moves the stack between NORMAL, HOT and CRITICAL
by its limits with the hysteresis of 2 °C; entering CRITICAL raises HOLD, entering HOT from NORMAL a CAUTION. -/
def Obligations.StackTemperatureMovesStates : Prop :=
  ∀ (s : State) (k : Fin 12) (temp : BitVec 8), (s.dev.stack k).present = true →
    let d := s.dev
    let x := d.stack k
    let T := temp.toNat
    x.hotC.toNat ≤ x.critC.toNat →
    ∃ d', exec (.stackTempReading k temp) s = .next (s.withDev d') ∧ (d'.stack k).temp = temp ∧
      (x.therm ≠ .normal → (d'.stack k).cnt = vmod x.cnt 2 (fun c => c.addLo 16)) ∧
      (x.therm = .normal → T < x.hotC.toNat → (d'.stack k).cnt = x.cnt) ∧
      (x.therm = .normal → T < x.hotC.toNat → (d'.stack k).therm = .normal ∧ d'.records = d.records) ∧
      (x.therm = .normal → x.hotC.toNat ≤ T →
        ∃ r : EvRec, d.wrote d' r ∧ r.cls = 0x06 ∧ r.count = w64 T ∧ fld r.detail.toNat 0 8 = 3) ∧
      (x.therm = .normal → x.hotC.toNat ≤ T → T < x.critC.toNat → (d'.stack k).therm = .hot) ∧
      (x.therm = .hot → T + 2 ≤ x.hotC.toNat → (d'.stack k).therm = .normal) ∧
      (x.therm = .hot → x.hotC.toNat < T + 2 → T < x.critC.toNat → (d'.stack k).therm = .hot) ∧
      (x.critC.toNat ≤ T → (d'.stack k).therm = .critical) ∧
      (x.therm ≠ .critical → x.critC.toNat ≤ T → d.hold.raised = [] → d.hold.own = [] → d'.hold.raised = [.stack k]) ∧
      (x.therm = .critical → x.critC.toNat < T + 2 → (d'.stack k).therm = .critical)

/-- Retraining, map-out and cooling of a stack: a channel becomes due with age, an emergency retraining starts at its trigger with its
record, one that converged without losing a lane puts the channel back in service, failed channels are mapped out at the job boundary,
and the fill that follows leaves poison; RESUME follows when a stack has been NORMAL long enough. After the moves of a channel the requests
that waited for it go on. -/
def Obligations.ChannelsRetrainFailAndMapOut : Prop :=
  ∀ (s : State) (k : Fin 12) (ch : Fin 16),
    let d := s.dev
    let t := s.time
    let x := d.stack k
    let c := vget Channel.reset x.chans ch
    (x.inService.toNat.testBit ch = true → c.trainTime + 86400000000000 ≤ t.now →
      exec (.retrainDueAge k ch) s = .next (s.withDev (d.modStack k (·.setDue ch 4)))) ∧
    (x.inService.toNat.testBit ch = true → x.failed.toNat.testBit ch = false → x.training.toNat.testBit ch = false → x.emerg = true →
      x.trigger ch t.now ≠ 0 → c.lastEnd = none →
      let began := d.modStack k (fun y =>
        { y.startTraining ch (x.trigger ch t.now) t.now true with cnt := vmod y.cnt 0 (fun c => c.addLo 1) })
      let noted := began.emit t none (retrainRecord k 2 ch 0 (x.trigger ch t.now) 0 ((t.now + 40000) / t.slotLen)
        (!(d.hold.paused || d.inMaint t)))
      exec (.emergencyRetrainStart k ch) s = .next (s.withDev ((noted.retrainWithdraw t k).2.goOn t)) ∧
        (began.stack k).cnt = vmod x.cnt 0 (fun c => c.addLo 1) ∧ (noted.stack k).training.toNat.testBit ch = true ∧
        (noted.stack k).failed = x.failed ∧ ∃ r : EvRec, began.wrote noted r ∧ r.cls = 0x08) ∧
    (x.training.toNat.testBit ch = true →
      (c.emergency = false →
        let d' := scheduledEnd k ch 0 true t d
        exec (.scheduledRetrainEnd k ch 0 true) s = .next (s.withDev (d'.goOn t)) ∧ (d'.stack k).training.toNat.testBit ch = false ∧
          (d'.stack k).failed = x.failed ∧ (d'.stack k).due = x.due &&& ~~~BitVec.ofNat 16 (2 ^ ch.val) ∧
          ∃ r : EvRec, d.wrote d' r ∧ r.cls = 0x08) ∧
      (c.emergency = true →
        let d' := emergencyEnd k ch 0 true t d
        exec (.emergencyRetrainEnd k ch 0 true) s = .next (s.withDev (d'.goOn t)) ∧ (d'.stack k).training.toNat.testBit ch = false ∧
          (d'.stack k).due.toNat.testBit ch = true ∧ (d'.stack k).failed = x.failed ∧ ∃ r : EvRec, d.wrote d' r ∧ r.cls = 0x08)) ∧
    (x.failed ≠ 0 → x.filling = false → d.namesStack k = false → t.now % t.slotLen = 0 →
      let d' := channelMapOut k t d
      exec (.channelMapOut k) s = .next (s.withDev (d'.goOn t)) ∧ (d'.stack k).failed = 0 ∧
        ((d'.stack k).present = false ∨ ((d'.stack k).filling = true ∧ d'.mem = d.mem))) ∧
    (x.filling = true →
      let d' := poisonFillDone k t d
      exec (.poisonFillDone k) s = .next (s.withDev (d'.goOn t)) ∧ (d'.stack k).filling = false ∧ (d'.stack k).mapped = [] ∧
        d.records.length + x.mapped.length ≤ d'.records.length ∧
        (x.mapped = [] → d'.mem = d.mem.fillRange (hbmBase k) (x.c * 0x200000000) true)) ∧
    (∀ seq : Nat, d.cleared t (.stack k) = true → d.hold.own = [(.stack k, seq)] →
      ∃ d', exec (.stackCoolExpiry k) s = .next (s.withDev d') ∧ d'.hold.own = [] ∧ d'.hold.raised = d.hold.raised)

/-! ### Links (R365 to R402) -/

/-- Bring-up and width: training that ends with two or more quads sends CAP, a CAP that completes it brings the link up with the
quads that both ends trained and QMASK permits, and a quad that is lost leaves service, or takes the link down with fewer than two
left. Details of link training are the model's (log entry 59). -/
def Obligations.LinksTrainAgreeAndNarrow : Prop :=
  ∀ (s : State) (l : Fin 32) (quads : BitVec 4) (q : Fin 4) (signal : Bool) (p : Packet),
    let d := s.dev
    let k := d.link l
    let w := ofBytes (natBytes p.payload)
    let both := k.myQuads &&& BitVec.ofNat 4 (fld w 48 4) &&& k.qmask
    (k.state = .training → k.capSeen = false → 2 ≤ popCount 4 quads.toNat →
      ∃ d', exec (.linkTrained l quads) s = .next (s.withDev d') ∧ (d'.link l).state = .training ∧ (d'.link l).myQuads = quads ∧
        ∃ c, (d'.link l).sent = c :: k.sent ∧ c.typ = 0x01 ∧ c.seq = k.sendSeq + 1) ∧
    (k.state = .training → popCount 4 quads.toNat < 2 →
      ∃ d', exec (.linkTrained l quads) s = .next (s.withDev d') ∧ (d'.link l).state = .down) ∧
    (k.state = .training → p.typ = 0x01 → p.seq = k.recvSeq + 1 → k.myQuads ≠ 0 → fld w 0 16 ≤ 0x0100 → 0x0100 ≤ fld w 16 16 →
      2 ≤ popCount 4 both.toNat →
      ∃ d', exec (.capPacket l p) s = .next (s.withDev d') ∧ (d'.link l).state = .up ∧ (d'.link l).quads = both ∧
        (d'.link l).far = BitVec.ofNat 12 (fld w 32 12) ∧ (d'.link l).ver = 0x0100 ∧ (d'.link l).recvSeq = p.seq) ∧
    (k.state = .up → k.quads.toNat.testBit q = true →
      ∃ d', exec (.quadLoss l q signal) s = .next (s.withDev d') ∧ (d'.link l).quads.toNat.testBit q = false ∧
        (3 ≤ popCount 4 k.quads.toNat → (d'.link l).state = .up ∧ (d'.link l).quads = BitVec.ofNat 4 (clrBit k.quads.toNat q)) ∧
        (popCount 4 k.quads.toNat ≤ 2 → (d'.link l).state = .down ∧ (d'.link l).quads = 0))

/-- Link service: NAK and replay, replays above the thresholds, with the quad of the most uncorrectable codewords leaving service at
the second, IDLE and unassigned packets, and the TIME packets that go and come. The choice among quads with equal counts is the
model's (log entry 138). -/
def Obligations.LinkServiceCountsAndReplays : Prop :=
  ∀ (s : State) (l : Fin 32) (quad : Fin 4) (p : Packet) (unc : Vector Nat 4) (ack : BitVec 16) (frac : Fin 16) (rx : W64) (i : Nat),
    let d := s.dev
    let k := d.link l
    let t := s.time
    (k.state = .up →
      (∃ d', exec (.packetNak l unc) s = .next (s.withDev d') ∧ (d'.link l).cnt = vmod k.cnt 0 (fun c => c.addHi unc.sum) ∧
        (d'.link l).unc = Vector.zipWith (· + ·) k.unc unc ∧
        ∃ n, (d'.link l).sent = n :: k.sent ∧ n.nak = true ∧ n.ack = k.recvSeq) ∧
      (k.unacked.findIdx? (fun u => u.seq == ack) = some i →
        ∃ d', exec (.packetReplay l ack) s = .next (s.withDev d') ∧ (d'.link l).unacked = k.unacked.drop (i + 1) ∧
          (d'.link l).sent = (k.unacked.drop (i + 1)).reverse ++ k.sent ∧
          (d'.link l).cnt = vmod k.cnt 1 (fun c => c.addLo (k.unacked.drop (i + 1)).length)) ∧
      (∃ d', exec (.timeExchange l frac) s = .next (s.withDev d') ∧ (d'.link l).lastTx = w64 (16 * t.now + frac) ∧
        ∃ n, (d'.link l).sent = n :: k.sent ∧ n.typ = 0x02 ∧ n.seq = k.sendSeq + 1 ∧ n.payload.length = 64)) ∧
    (t.linkBytes < 64 * k.replayed → 16 * k.replayed ≤ t.linkBytes → k.lastCaution = none →
      ∃ (d' : Dev) (r : EvRec), exec (.replayThreshold l quad) s = .next (s.withDev d') ∧ d.wrote d' r ∧ r.cls = 0x06 ∧
        r.source = BitVec.ofNat 16 (0x2000 + l.val) ∧ r.count = w64 k.replayed ∧ fld r.detail.toNat 0 8 = 5 ∧
        (d'.link l).lastCaution = some t.slot ∧ (d'.link l).state = k.state) ∧
    (∀ u : Nat, t.linkBytes < 16 * k.replayed → 2 ≤ k.overSlots → k.lastCaution = some u → t.slot < u + 1024 →
      exec (.replayThreshold l quad) s = .next (s.withDev (d.loseQuad t l (k.worstQuad quad) 1)) ∧
      ∀ q, q < 4 → bit k.quads.toNat q = true → vget 0 k.unc q ≤ vget 0 k.unc (k.worstQuad quad)) ∧
    (d.nextOn l p = true → p.typ = 0x00 → exec (.idlePacket l p) s = .next (s.withDev (d.received l p))) ∧
    (d.nextOn l p = true → knownType p.typ.toNat = false →
      exec (.unknownPacket l p) s =
        .next (s.withDev ((d.received l p).modLink l (fun k => { k with cnt := vmod k.cnt 2 (fun c => c.addHi 1) })))) ∧
    (d.nextOn l p = true → p.typ = 0x02 →
      let x := timePacket l p rx.toNat t (d.received l p)
      exec (.timePacket l p rx) s = .next ((s.withTime x.1).withDev x.2) ∧ (x.2.link l).lastRx = rx)

/-- An RD, WR or AT addressed to this device. It is served at once unless something makes it wait. It passes exactly when its partition is
enabled for the link, its address lies above the control space, its whole range lies in the windows of the partition that the link maps
it to with the access asked for, and, for an AT, its address lies in a stack; it then acts as a request of that partition and is answered.
Otherwise an RD is answered with REFUSED = 1 and zeros, a WR or an AT is discarded and acknowledged with REFUSED = 1, and the refusal is
counted, with no record and memory unchanged. -/
def Obligations.PeerRequestsAreCheckedInOrder : Prop :=
  (∀ (s : State) (l : Fin 32) (p : Packet), s.dev.nextOn l p = true → p.daddr = s.dev.fab.addr →
    let d := s.dev.received l p
    let t := s.time
    let e : Dev := { d with nextJob := d.nextJob + 1 }
    let takes (c : Instr) : Prop := exec c s = .next (s.withDev (d.request t (.peer l p)))
    (p.typ = 0x10 → takes (.rdPacket l p)) ∧ (p.typ = 0x11 → takes (.wrPacket l p)) ∧ (p.typ = 0x12 → takes (.atPacket l p)) ∧
    (e.whole t Await.none (Dev.servePeer t d.nextJob Await.none l p) = true →
      d.request t (.peer l p) = e.had t (Dev.servePeer t d.nextJob Await.none l p))) ∧
  ∀ (t : TimeUnit) (d : Dev) (job : Nat) (wt : Await) (l : Fin 32) (p : Packet), (p.typ = 0x10 ∨ p.typ = 0x11 ∨ p.typ = 0x12) →
    let a := fld p.arg.toNat 0 52
    let n := if p.typ = 0x10 then rdLength p else p.payload.length
    let q := fld (d.link l).pmap.toNat (4 * p.part.toNat) 4
    let req := jobReq job wt (peerReq l q)
    let passes : Prop :=
      (d.link l).pmapEn.toNat.testBit p.part.toNat = true ∧ 0x100000000 ≤ a ∧
      ((d.part q).en = true ∧ (d.part q).inside (p.typ != 0x10) a n = true) ∧ (p.typ = 0x12 → ∃ k o, regionOf a = .hbm k o)
    let served := d.servePeer t job wt l p
    let x := d.read t req a n
    let zeros := d.answerRd l p true (List.replicate n 0) []
    let wack := d.respond l (responseTo d p 0x19 1)
    req.part = some q ∧
    (passes →
      (p.typ = 0x10 → served = x.2.answerRd l p false x.1.1 x.1.2) ∧
      (p.typ = 0x11 → let y := d.write t req a p.payload p.poisonBits (packetMask p); served = y.respond l (responseTo y p 0x19 0)) ∧
      (p.typ = 0x12 →
        let y := d.atomic t req (fld p.arg.toNat 52 4) a p.payload p.poisonBits (packetMask p)
        served = y.respond l (responseTo y p 0x19 0))) ∧
    (¬passes →
      (p.typ = 0x10 → served = zeros.refusal l) ∧ ((p.typ = 0x11 ∨ p.typ = 0x12) → served = wack.refusal l) ∧
      served.mem = d.mem ∧ served.records = d.records) ∧
    ∀ e : Dev, ((e.refusal l).link l).cnt = vmod (e.link l).cnt 1 (fun c => c.addHi 1)

/-- Responses addressed to this device: an RDR delivers its bytes where the read asked for them, zeros where it was refused, and ends its
read, unless the read asked for more than 512 bytes and this is its first half; a WACK ends its write; and then what waited goes on. -/
def Obligations.PeerResponsesAreTaken : Prop :=
  ∀ (s : State) (l : Fin 32) (p : Packet) (w : Outstanding), s.dev.nextOn l p = true → p.daddr = s.dev.fab.addr →
    let d := s.dev.received l p
    let t := s.time
    let home := p.tag.toNat % 32
    let ws := (d.link home).waiting
    (p.typ = 0x18 → ws.find? (fun w => w.tag == p.tag.toNat && w.typ == 0x10) = some w → fld p.arg.toNat 1 5 = 0 → p.poisonBits = [] →
      ∃ x : Dev, exec (.rdrPacket l p) s = .next (s.withDev (x.goOn t)) ∧
        (∀ i, i < w.len → i < 512 → x.mem.isPoison (w.addr + i) = false ∧
          x.mem.byte (w.addr + i) = if bit p.arg.toNat 0 then 0 else p.payload.getD i 0) ∧
        (w.len ≤ 512 → (x.link home).waiting = ws.filter (fun y => y != w)) ∧
        (512 < w.len → (x.link home).waiting = ws.map (fun y => if y = w then { y with half := true } else y))) ∧
    (p.typ = 0x19 →
      (ws.find? (fun w => w.tag == p.tag.toNat && (w.typ == 0x11 || w.typ == 0x12)) = some w →
        let x := d.modLink home (fun k => { k with waiting := k.waiting.filter (fun y => y != w) })
        exec (.wackPacket l p) s = .next (s.withDev ((x.signerAnswer w.flight (bit p.arg.toNat 0)).goOn t)) ∧
          (w.flight ≠ some (72, 0) → w.flight ≠ some (72, 1) → x.signerAnswer w.flight (bit p.arg.toNat 0) = x)) ∧
      (ws.find? (fun w => w.tag == p.tag.toNat && (w.typ == 0x11 || w.typ == 0x12)) = none →
        exec (.wackPacket l p) s = .next (s.withDev (d.goOn t))))

/-- Notices: each is taken by its own rule once it is the next packet, and a COLL packet is taken into its collective or
refused and counted. -/
def Obligations.NoticesAreTakenByTheirRules : Prop :=
  ∀ (s : State) (l : Fin 32) (p : Packet), s.dev.nextOn l p = true →
    let d := s.dev.received l p
    let t := s.time
    let w := ofBytes (natBytes p.payload)
    let kind (n : Nat) : Prop := p.typ = 0x03 ∧ fld w 0 8 = n
    let init := fld w 16 12
    let seq := fld w 32 16
    let slot := fld w 64 64
    let value := fld w 128 64
    (kind 1 → exec (.holdNotice l p) s = .next (s.withDev (holdNotice l init seq (fld w 8 8) slot t d)) ∧
      (d.hold.seen.contains (false, init, seq) = false → d.hold.seen.contains (true, init, seq) = false →
        (holdNotice l init seq (fld w 8 8) slot t d).hold.live = d.hold.live ++
          [{ init := init, seq := seq, pause := slot, resume := none, cause := fld w 8 8, src := 0x2000 + l.val
             late := decide (slot ≤ t.slot) }])) ∧
    (kind 2 → exec (.resumeNotice l p) s = .next (s.withDev (resumeNotice l init seq slot t d)) ∧
      (d.hold.seen.contains (true, init, seq) = false →
        ∀ h ∈ (resumeNotice l init seq slot t d).hold.live, h.init = init → h.seq = seq → h.resume = some slot)) ∧
    (kind 3 → exec (.cautionNotice l p) s = .next (s.withDev d)) ∧
    (kind 4 →
      (t.srcLink.toNat ≠ l.val → exec (.stepNotice l p) s = .next (s.withDev d)) ∧
      (t.srcLink.toNat = l.val → ∃ d', exec (.stepNotice l p) s = .next (s.withDev d') ∧ d'.stepPend = (d.noteStep value slot).stepPend)) ∧
    (kind 5 → p.daddr = d.fab.addr → exec (.peerLate l p) s = .next (s.withDev (peerLate seq slot t d))) ∧
    (kind 6 → p.daddr = d.fab.addr → exec (.abandon l p) s = .next (s.withDev (abandonNotice init seq value t d))) ∧
    (p.typ = 0x20 → p.daddr = d.fab.addr →
      let x := d.collArrive t (fld (d.link l).pmap.toNat (4 * p.part.toNat) 4) p
      ((d.link l).pmapEn.toNat.testBit p.part.toNat = true → x.1 = true → exec (.collPacket l p) s = .next (s.withDev x.2)) ∧
      ((d.link l).pmapEn.toNat.testBit p.part.toNat = false ∨ x.1 = false →
        exec (.collPacket l p) s = .next (s.withDev (d.refusal l))))

/-! ### Waybills, quotes and repair records (R403 to R414, R425 to R428, R463 to R466) -/

/-- The hash engine and the signer. A queued drain begins when no other of its partition runs; a running drain takes its next step
when nothing that it waits for is outstanding and nothing that it asks for makes it wait; one whose last header has been accepted
ends, is counted, sets its token and queues its signature. WB_SIG is written, and SIGNED only once it has been accepted. A restore
checks the head of its slot, then copies its images, and ends with STATE 2 or with STATE 3, a CAUSE and a record. A quote is
answered or stored and its STATE becomes 2; a repair record is written and comes into force. The order of a drain's steps, of a
restore's checks and of the signer's quote is the model's (log entries 68, 70 and 141). -/
def Obligations.DrainsRestoresAndSignaturesProceed : Prop :=
  ∀ (s : State) (p : Fin 4) (q : Fin 16) (x : Drain) (r : Restore) (rest : List SignJob),
    let d := s.dev
    let t := s.time
    let next (d' : Dev) : Host.Outcome State Fault Refusal := .next (s.withDev d')
    let signing (jobs : List SignJob) (d : Dev) : Dev := { d with bond := { d.bond with signer := jobs } }
    (d.draining q = false → d.hold.paused = false →
      (d.pier p).drains.find? (fun x => x.occ.part == q.val && !x.running && !x.table.isEmpty) = some x →
      let d1 := d.putDrain p { x with running := true }
      exec (.drainQueuedStart p q) s = next (d1.drainRun t p q (d1.drainFuel p)) ∧ { x with running := true } ∈ (d1.pier p).drains) ∧
    ((d.pier p).drains.find? (fun x => x.running && x.occ.part == q.val) = some x → d.hold.paused = false →
      (x.phase < 5 → d.drainWaits p x = false → d.whole t x.await (fun d => d.drainStep t p x) = true →
        ∀ fuel : Nat, d.drainRun t p q (fuel + 1) = (d.had t (fun d => d.drainStep t p x)).drainRun t p q fuel) ∧
      (5 ≤ x.phase → d.awaits (64 + p.val) q = false → d.box.idState ≠ 2 →
        let d' := d.endDrain p x (fun k => { k with wbCnt := k.wbCnt.addLo 1 })
        let job := SignJob.waybill p q (wtBuddy x.table) (wtSlot x.table x.step) ((d.wbHeader p x 1 x.ltime x.sums).take 512) none
        exec (.drainComplete p q) s = next (signing (d.bond.signer ++ [job]) d') ∧
          (d'.pier p).wbCnt = (d.pier p).wbCnt.addLo 1 ∧ (∀ y ∈ (d'.pier p).drains, y.occ ≠ x.occ) ∧
          ∀ b ∈ x.te.bays, b < 64 → (d'.bay b).tokens.toNat.testBit (wtToken x.table) = true)) ∧
    (∀ (cause : Nat) (index : Option Nat) (expect : Nat),
      let v := d.voidDrain t p x cause index expect
      (v.pier p).wbCnt = (d.pier p).wbCnt.addHi 1 ∧ ∀ y ∈ (v.pier p).drains, y.occ ≠ x.occ) ∧
    (∀ (holder slot : Nat) (header : List Nat),
      (d.bond.signer = .waybill p q holder slot header none :: rest →
        exec .waybillSigned s = next ((signing (.waybill p q holder slot header (some (d.reachesHolder holder)) :: rest)
          (d.signerWrite t 0 q holder (slot + 512) (rsaSign d.bond.keyN d.bond.keyD (header.set 2 1)))).signerOn t)) ∧
      (∀ ok : Bool, d.bond.signer = .waybill p q holder slot header (some ok) :: rest → d.awaits 72 0 = false → d.signerPosts = false →
        exec .waybillSigned s = next (signing rest (if ok then d.signerWrite t 1 q holder (slot + 2) [3] else d))) ∧
      (∀ refused : Bool, d.bond.signer = .waybill p q holder slot header (some true) :: rest →
        (d.signerAnswer (some (72, 0)) refused).bond.signer = .waybill p q holder slot header (some !refused) :: rest)) ∧
    (vget 0 (d.pier p).rstState q = 1 → (d.pier p).restores.find? (fun y => y.part == q.val) = some r →
      d.awaitsRead (68 + p.val) q = false → d.whole t r.await (fun d => d.restoreStep t p r) = true →
      let d' := d.had t (fun d => d.restoreStep t p r)
      (r.phase = 1 → exec (.restoreComplete p q) s = next (d'.restoreRun t p q 2 2)) ∧
      (r.phase = 2 → exec (.restoreComplete p q) s = next d' ∧
        (vget 0 (d'.pier p).rstState q = 2 ∨ vget 0 (d'.pier p).rstState q = 3))) ∧
    (let h := d.slotRead t p r 0 (1536 + 128 * rsShards r.order)
     let key := h.2.fetch t (r.req p) (bytesAt r.order 32 8 % 2 ^ 52) 512
     ∀ (cause expect : Nat), key.2.stall = [] → headFault r h.1.1 (natBytes key.1.1) = some (cause, expect) →
      d.restoreHead t p r = key.2.restoreRefuse t p r cause (bytesAt h.1.1 8 8) none expect) ∧
    (∀ (cause step : Nat) (index : Option Nat) (expect : Nat), r.part < 16 →
      let d' := d.restoreRefuse t p r cause step index expect
      vget 0 (d'.pier p).rstState r.part = 3 ∧ vget 0 (d'.pier p).rstCause r.part = BitVec.ofNat 8 cause ∧
        (∀ y ∈ (d'.pier p).restores, y.part ≠ r.part) ∧
        ∃ e : EvRec, d.wrote d' e ∧ e.cls = 0x11 ∧ e.part = BitVec.ofNat 4 r.part ∧ fld e.detail.toNat 0 8 = cause % 256) ∧
    (∀ (nonce : List Nat) (ps : List Bool) (a id : Nat) (x : Option Nat),
      (d.bond.signer = .quote none (some (nonce, ps)) x :: rest →
        exec .quoteDone s = next ((signing rest d).modBox (fun b => { b with reply := .data (d.quoteBytes t nonce) }))) ∧
      (d.bond.signer = .quote (some a) (some (nonce, ps)) none :: rest →
        exec .quoteDone s = next (((signing (.quote (some a) (some (nonce, ps)) (some d.nextJob) :: rest) d).request t
          (.mem (.write (a + 64) (byteList (d.quoteBytes t nonce)) (quotePoison ps) [] boxReq.src d.adminPart))).signerOn t)) ∧
      (d.bond.signer = .quote (some a) (some (nonce, ps)) (some id) :: rest → d.awaits 79 id = false →
        d.held.any (fun h => h.id == id) = false →
        exec .quoteDone s = next (signing rest (d.modBox (fun b => { b with quoteState := 2 }))))) ∧
    (d.box.stage = 3 → d.powered = true → d.box.repPending = true → d.box.repWriting = none →
      exec .repairRecordWrite s = next (d.modBox (fun b =>
        { b with repWriting := some (d.repairRecord (if d.box.repInForce.isEmpty then 1 else d.box.repSeq.toNat + 1)),
                 repAgain := false }))) ∧
    (∀ bs : List Nat, d.box.repWriting = some bs →
      let k := 1 - d.box.repSector % 2
      exec .repairRecordDone s = next ((d.flashPut (d.sectorBase k) (bs ++ List.replicate 49152 0xFF)).modBox (fun b =>
        { b with repWriting := none, repPending := b.repAgain, repAgain := false, repSector := k,
                 repSeq := w32 (ofBytes ((bs.drop 8).take 8)), repInForce := bs.drop 1024 })))

/-! ### Boot (R451 to R463, R472) -/

/-- The stages of boot: a sound signed directory leads from stage 0 to stage 1 and none to RECOVERY, the images to stage 2,
self-test applies its findings there, and publication to stage 3. Signatures and findings are operands, the model's choice (log
entries 37 and 98). -/
def Obligations.BootGoesThroughItsStages : Prop :=
  ∀ (s : State) (sig0 sig1 puf : Bool) (found : Findings), s.dev.powered = true →
    let d := s.dev
    (d.box.stage = 0 →
      if (sig0 && d.dirSound false) = true then
        exec (.romDone sig0 sig1) s = .next (s.withDev (d.modBox (fun x => { x with stage := 1, dirCopy := false })))
      else if (sig1 && d.dirSound true) = true then
        exec (.romDone sig0 sig1) s = .next (s.withDev (d.modBox (fun x => { x with stage := 1, dirCopy := true })))
      else ∃ d', exec (.romDone sig0 sig1) s = .next (s.withDev d') ∧ d'.box.stage = 4 ∧ d'.box.error ≠ 0) ∧
    (d.box.stage = 1 →
      ∃ d', exec (.imagesDone puf) s = .next (s.withDev d') ∧ d'.box.stage = 2 ∧ d'.bond.fnRevs = imageRevisions ∧ d'.mem = d.mem ∧
        (puf = false → d'.box.idState = 2 ∧ d'.bond.devid = 0 ∧ d'.box.error = 3)) ∧
    (d.box.stage = 2 → d.box.tested = false →
      ∃ d', exec (.selftestDone found) s = .next (s.withDev d') ∧ d'.box.stage = 2 ∧ d'.box.tested = true ∧
        (d'.bond.bays = 0 → d'.box.error = 4)) ∧
    (d.box.stage = 2 → d.box.tested = true →
      ∃ d', exec .published s = .next (s.withDev d') ∧ d'.box.stage = 3 ∧ d'.bond.gen = 2 ∧
        d'.box.pubMs = w32 ((s.time.now - d.box.bootAt.toNat) / 1000000) ∧
        ∀ l : Fin 32, (d'.link l).state = (if (d.link l).en then .training else (d.link l).state))

/-! ### The management chain (R468 to R471) -/

/-- The I3C target. ENTDAA: a powered device without an address takes the one it is given while CHAIN_IN is asserted, and asserts
CHAIN_OUT. A device that holds an address: its addresses, the values it answers, in-band interrupts, and private commands. GETPID's
byte order is PRESUMED (log entry 41), as is the flash model of FERASE and FPROG (log entry 42); the free values of GETSTATUS,
GETMWL and GETMRL are a DESIGN CHOICE (log entry 3). -/
def Obligations.ChainCommandsAnswer : Prop :=
  ∀ (s : State) (chainIn : Bool) (ea da : BitVec 7) (a : W64) (o : W32) (nonce data : List Byte) (v : W64) (bs : List Nat),
    (∃ d', exec (.entdaa chainIn ea) s = .next (s.withDev d') ∧ d'.box.chainIn = chainIn ∧ d'.mem = s.dev.mem ∧
      (chainIn = true → s.dev.powered = true → s.dev.box.daValid = false →
        d'.box.da = ea ∧ d'.box.daValid = true ∧ d'.box.chainOut = true) ∧
      (chainIn = false ∨ s.dev.box.daValid = true → d'.box.da = s.dev.box.da ∧ d'.box.daValid = s.dev.box.daValid)) ∧
    (s.dev.powered = true → s.dev.box.daValid = true →
    let d := s.dev
    let free (n : Nat) : Host.Outcome State Fault Refusal :=
      .next (s.withDev ({ d with free := d.free + 1 }.i3cAnswer (toBytes n (Config.freeValue d.free).toNat)))
    exec (.setnewda da) s = .next (s.withDev (d.modBox (fun x => { x with da := da }))) ∧
    exec .rstdaa s = .next (s.withDev (d.modBox (fun x => { x with da := 0, daValid := false, chainOut := false }))) ∧
    exec .getpid s = .next (s.withDev (d.i3cAnswer (toBytes 6 d.pid).reverse)) ∧
    exec .getbcr s = .next (s.withDev (d.i3cAnswer [0x06])) ∧ exec .getdcr s = .next (s.withDev (d.i3cAnswer [0x00])) ∧
    exec .getstatus s = free 2 ∧ exec .getmwl s = free 2 ∧ exec .getmrl s = free 3 ∧
    exec (.enec true) s = .next (s.withDev (d.modBox (fun x => { x with ibiEn := true }))) ∧
    exec (.disec true) s = .next (s.withDev (d.modBox (fun x => { x with ibiEn := false }))) ∧
    (a.toNat < 0x100000 → a.toNat % 8 = 0 →
      exec (.i3cRead a 1) s = .next (s.withDev (d.modBox (fun x => { x with reply := .data (toBytes 8 (d.bondWord (a.toNat / 8))) })))) ∧
    (chainReg a.toNat = none →
      let x := afterWrite (s.time, d.countHole chainReq a.toNat)
      exec (.i3cWrite a [v]) s = .next ((s.withTime x.1).withDev x.2) ∧
      (d.settled = true → exec (.i3cWrite a [v]) s = .next (s.withDev (d.countHole chainReq a.toNat)))) ∧
    (∀ r, chainReg a.toNat = some r →
      let x := afterWrite (d.regWrite chainReq r v.toNat s.time)
      exec (.i3cWrite a [v]) s = .next ((s.withTime x.1).withDev x.2)) ∧
    (d.box.idState ≠ 2 → nonce.length = 64 →
      exec (.i3cQuote nonce) s = .next (s.withDev { d.modBox (fun x => { x with reply := .nack }) with
        bond := { d.bond with signer := d.bond.signer ++ [.quote none (some (natBytes nonce, [])) none] } })) ∧
    ((d.box.stage = 3 ∨ d.box.stage = 4) →
      (o.toNat % 0x10000 = 0 → exec (.ferase o) s = .next (s.withDev (d.flashPut o.toNat (List.replicate 0x10000 0xFF)))) ∧
      (data.length ≤ 256 → exec (.fprog o data) s =
        .next (s.withDev (d.flashPut o.toNat ((data.zipIdx).map (fun x => d.flashByte (o.toNat + x.2) &&& x.1.toNat)))))) ∧
    (d.box.reply = .data bs →
      exec .i3cPrivateRead s = .next (s.withDev ((d.modBox (fun x => { x with reply := .none })).i3cAnswer bs))) ∧
    (d.box.reply = .nack → exec .i3cPrivateRead s = .next (s.withDev (d.answer 9 0 [] []))))

/-! ### Power and temperature (R477 to R485, R493 to R495) -/

/-- Power-up, reset and power-down: rails and pins, and a boot that starts again in stage 0 at line time 0. What outlives a reset or
a loss of power is a DESIGN CHOICE (log entries 2 and 36). -/
def Obligations.PowerComesAndGoes : Prop :=
  ∀ s : State,
    let d := s.dev
    exec .vinRise s = .next (s.withDev (d.modPwr (fun p => { p with standby := true }))) ∧
    (d.pwr.standby = true → exec .pwrEnRise s = .next (s.withDev (d.modPwr (fun p => { p with pwrEn := true, falling := false })))) ∧
    (d.pwr.standby = true → d.pwr.pwrEn = true → d.pwr.pwrGood = false → d.pwr.thermtripN = true →
      ∃ t, exec .powerGood s = .next t ∧ t.time = TimeUnit.reset ∧ t.dev.box.stage = 0 ∧ t.dev.pwr.rails = true ∧ t.dev.pwr.pwrGood = true ∧
        t.dev.mem = Memory.reset ∧ t.dev.bond.flash = d.bond.flash ∧ t.dev.bays = Dev.reset.bays ∧ t.dev.parts = Dev.reset.parts) ∧
    (d.pwr.pwrEn = true →
      ∃ d', exec .pwrEnFall s = .next (s.withDev d') ∧ d'.pwr.pwrEn = false ∧ d'.pwr.thermtripN = true ∧ d'.pwr.falling = d.pwr.rails ∧
        (d.pwr.rails = true → d'.running = false)) ∧
    (d.pwr.pwrEn = false → d.pwr.rails = true →
      ∃ d', exec .railsOff s = .next (s.withDev d') ∧ d'.pwr.rails = false ∧ d'.pwr.pwrGood = false ∧ d'.mem = Memory.reset ∧
        d'.bond.flash = d.bond.flash) ∧
    (∃ t, exec (.resetN true) s = .next t ∧ t.time = TimeUnit.reset ∧ t.dev.pwr.resetN = false ∧ t.dev.mem = d.mem ∧
      t.dev.bays = Dev.reset.bays ∧ t.dev.bond.flash = d.bond.flash) ∧
    (d.pwr.resetN = false → ∃ t, exec (.resetN false) s = .next t ∧ t.dev.pwr.resetN = true ∧ t.dev.box.stage = 0 ∧ t.dev.mem = d.mem)

/-- The 54 V input: a sample is kept and its condition noted; near a limit for 100 µs a CAUTION, out of range for more than 10 ms
a HOLD, and a protective stop turns every rail off with THERMTRIP_N asserted and no record. -/
def Obligations.InputVoltageActs : Prop :=
  ∀ (s : State) (mv : Nat),
    let d := s.dev
    let t := s.time
    (∃ d', exec (.vinSample mv) s = .next (s.withDev d') ∧ d'.pwr.vinZone = vinZone mv ∧ d'.pwr.vin = BitVec.ofNat 16 (min mv 0xFFFF) ∧
      d'.pwr.zoneSince = (if vinZone mv = d.pwr.vinZone then d.pwr.zoneSince else t.now) ∧ (mv < 36000 → d'.pwr.ballast = 0) ∧
      d'.mem = d.mem ∧ d'.records = d.records) ∧
    (d.pwr.vinZone = 1 → d.pwr.zoneSince + 100000 ≤ t.now → (∀ u, d.pwr.lastVinCaution = some u → u + 1024 ≤ t.slot) →
      let e := d.modPwr (fun p => { p with lastVinCaution := some t.slot })
      ∃ (d' : Dev) (r : EvRec), exec .vinCaution s = .next (s.withDev d') ∧ e.wrote d' r ∧ r.cls = 0x06 ∧ r.source = 0x3200 ∧
        r.count = w64 d.pwr.vin.toNat ∧ fld r.detail.toNat 0 8 = 1 ∧ d'.sansRings = e.sansRings) ∧
    (d.pwr.vinZone = 2 → d.pwr.zoneSince + 10000000 < t.now → d.hold.raised.contains .supply = false →
      d.hold.own.any (fun x => x.1 = .supply) = false →
      ∃ d', exec .vinRideExpiry s = .next (s.withDev d') ∧ d'.hold.raised = d.hold.raised ++ [.supply] ∧ d'.pwr.supply = 3 ∧
        d'.mem = d.mem ∧ d'.records = d.records) ∧
    (d.pwr.vinZone = 3 → exec .vinRideExpiry s = exec .protectiveStop s) ∧
    (∀ seq : Nat, d.cleared t .supply = true → d.hold.own = [(.supply, seq)] →
      ∃ d', exec .vinStableExpiry s = .next (s.withDev d') ∧ d'.hold.own = [] ∧
        ∀ h ∈ d'.hold.live, h.init = d.fab.addr.toNat → h.seq = seq → ∃ u, h.resume = some u ∧ t.slot + t.lead + 1 ≤ u) ∧
    (d.pwr.rails = true → d.mustStop t = true →
      ∃ d', exec .protectiveStop s = .next (s.withDev d') ∧ d'.pwr.rails = false ∧ d'.pwr.pwrGood = false ∧ d'.pwr.thermtripN = false ∧
        d'.records = d.records)

/-- Draw shaping, core voltage, droop, die temperature, and the PCIe ports' own events. Powers in units of 0.1 W and the voltage
step as an operand are the model's (log entries 39 and 40). -/
def Obligations.ShaperVoltageDroopAndTemperature : Prop :=
  ∀ (s : State) (work gated pass safe temp width rate tag : Nat) (rail : Fin 9) (p : Fin 4) (bays : BitVec 16) (v : Fin 4) (ep : Bool)
    (data : List Byte),
    let d := s.dev
    let t := s.time
    let W := 10 * work
    (∃ d', exec (.shaperTick work gated) s = .next (s.withDev d') ∧ d'.pwr.work = W ∧
      d'.pwr.draw = min (max W (max (d.lookAhead t) (d.pwr.draw - d.pwr.slew.toNat))) (min (10 * d.pwr.cap.toNat) 34000) ∧
      d'.pwr.ballast ≤ 20000 ∧ (d.pwr.balen = false → d'.pwr.ballast = 0) ∧ d'.pwr.cnt0 = d.pwr.cnt0.addHi gated) ∧
    (vget 0 d.pwr.voltAt rail = 0 → d.pwr.vfloor.toNat ≤ safe →
      ∃ d', exec (.voltageStep rail pass safe) s = .next (s.withDev d') ∧ d'.records = d.records ∧
        (let aim := max 700 (min 900 (max pass d.pwr.vfloor.toNat))
         let x := vget 900 d.pwr.volts rail
         vget 900 d'.pwr.volts rail = if x < aim then min aim (x + 5) else max aim (x - 5))) ∧
    (bays = 0 → exec (.droopEvent p bays) s = .next s) ∧
    (∀ j : Fin 16, bays = BitVec.ofNat 16 (2 ^ j.val) → d.bayPresent (16 * p + j) = true →
      exec (.droopEvent p bays) s = .next (s.withDev (d.droopBay t (16 * p + j)))) ∧
    (∃ d', exec (.dieTempReading temp) s = .next (s.withDev d') ∧ d'.pwr.tdie = BitVec.ofNat 8 (min temp 255) ∧
      (95 ≤ temp → d'.pwr.alertN = false) ∧ (temp ≤ 93 → d'.pwr.alertN = true) ∧
      (100 ≤ temp → d.hold.raised = [] → d.hold.own = [] → d'.hold.raised = [.thermal]) ∧ (temp < 100 → d'.hold = d.hold)) ∧
    (∀ seq : Nat, d.cleared t .thermal = true → d.hold.own = [(.thermal, seq)] →
      ∃ d', exec .dieCoolExpiry s = .next (s.withDev d') ∧ d'.hold.own = []) ∧
    exec (.pcieRetrain v width rate) s =
      .next (s.withDev (d.modPort v (fun k => { k with width := width, rate := rate })).bondDue) ∧
    (∀ w : Outstanding, (d.portOf v).waiting.find? (fun w => w.tag = tag) = some w →
      exec (.pcieCompletion v tag ep data) s =
        .next (s.withDev (((d.modMem (·.putAll w.addr (data.take w.len) (List.replicate (data.take w.len).length ep) [])).modPort v
          (fun k => { k with waiting := k.waiting.filter (fun x => x.tag != tag) })).goOn t))) ∧
    ((d.portOf v).waiting.all (fun w => w.tag != tag) = true → exec (.pcieCompletion v tag ep data) s = .next (s.withDev (d.goOn t)))

/-! ### What tile instructions leave in the tiles (R142, R203, R210, R212, R349) -/

/-- TURN of a tile into a tile without quantising: every cell of the destination is the mirrored cell of the source as it was,
with its poison; every other tile and memory keep theirs. No instruction of the bay waits for memory before it. -/
def Obligations.TurnMirrorsATile : Prop :=
  ∀ (s : State) (b : Fin 64) (i : Fin 3) (word : W128), s.dev.presents b i word = true →
    let w := word.toNat
    let d := s.dev
    let j := d.issued b i word
    let m := fld w 0 9
    let n := fld w 9 9
    opc w = 0x40 → bit w 18 = false → m < 256 → n < 256 →
      d.takes s.time j [0, 9] (turnFault j d) = true → (d.bay b).flights.all (fun f => !f.parked) = true → d.owed = [] →
      ∃ d', exec (.turn b i) s = .next (s.withDev d') ∧ d'.mem = d.mem ∧
        ∀ r c h, r < 64 → c < 64 → h < 2 →
          (d'.bay b).cell m r c = (d.bay b).cell n c r ∧ (d'.bay b).halfPoison m r c h = (d.bay b).cellPoison n c r ∧
          ∀ k, k ≠ m → (d'.bay b).cell k r c = (d.bay b).cell k r c ∧ (d'.bay b).halfPoison k r c h = (d.bay b).halfPoison k r c h

/-- VOP's integer operations over tiles: within the present region every cell of the destination is the operation of the two
source cells as they were, poisoned if either was; the destination outside the region, every other tile and memory keep
theirs. No instruction of the bay waits for memory before it. -/
def Obligations.IntegerVopComputesTheRegion : Prop :=
  ∀ (s : State) (b : Fin 64) (i : Fin 3) (word : W128) (starve : Nat), s.dev.presents b i word = true →
    let w := word.toNat
    let d := s.dev
    let j : Issue := { d.issued b i word with ops := [starve] }
    let op := fld w 36 8
    let m := fld w 0 9
    let A := fld w 9 9
    let B := fld w 18 9
    let vl := (s.dev.stream b i).live.vl.toNat
    opc w = 0x30 → bit w 44 = false → m < 256 → A < 256 → B < 256 → vl ≤ 64 →
      (op = 0x40 ∨ op = 0x41 ∨ op = 0x42 ∨ op = 0x45 ∨ op = 0x46 ∨ op = 0x47 ∨ op = 0x4B ∨ op = 0x4C) →
      d.takes s.time j ((vopOpds j j.vopShape).map (·.lo)) (vopFault j d) = true →
      (d.bay b).flights.all (fun f => !f.parked) = true → d.owed = [] →
      ∃ d', exec (.vop b i starve) s = .next (s.withDev d') ∧ d'.mem = d.mem ∧
        ∀ r c h, r < 64 → c < 64 → h < 2 →
          (c < vl →
            (let x := (d.bay b).cell A r c
             let y := (d.bay b).cell B r c
             (d'.bay b).cell m r c =
               (if op = 0x40 then x + y else if op = 0x41 then x - y else if op = 0x42 then x * y else if op = 0x45 then x &&& y
                else if op = 0x46 then x ||| y else if op = 0x47 then x ^^^ y
                else if op = 0x4B then (if y.slt x then 1 else 0) else (if x = y then 1 else 0))) ∧
            (d'.bay b).halfPoison m r c h = ((d.bay b).cellPoison A r c || (d.bay b).cellPoison B r c)) ∧
          (vl ≤ c → (d'.bay b).cell m r c = (d.bay b).cell m r c ∧ (d'.bay b).halfPoison m r c h = (d.bay b).halfPoison m r c h) ∧
          ∀ k, k ≠ m → (d'.bay b).cell k r c = (d.bay b).cell k r c ∧ (d'.bay b).halfPoison k r c h = (d.bay b).halfPoison k r c h

end
end

