-- ==== Sys2Proof/Laws/Tables.lean ====
section
/-! SUPPORT. Sparse tables, ascending sets and fixed-size files: what reading gives after a change. -/

namespace Sys2Proof.Machine

variable {α : Type}

/-! ### Fixed-size files -/

theorem vget_lt {n : Nat} (d : α) (v : Vector α n) {i : Nat} (h : i < n) : vget d v i = v[i] := by
  simp [vget, List.getD, h]

theorem vget_beyond {n : Nat} (d : α) (v : Vector α n) {i : Nat} (h : n ≤ i) : vget d v i = d := by
  simp [vget, List.getD, h]

theorem vget_vmod_same {n : Nat} (d : α) (v : Vector α n) {i : Nat} (h : i < n) (f : α → α) :
    vget d (vmod v i f) i = f (vget d v i) := by
  rw [vget_lt d _ h, vget_lt d _ h]
  simp [vmod]

theorem vget_vmod_ne {n : Nat} (d : α) (v : Vector α n) {i j : Nat} (h : j ≠ i) (f : α → α) :
    vget d (vmod v i f) j = vget d v j := by
  by_cases hj : j < n
  · rw [vget_lt d _ hj, vget_lt d _ hj]
    simp [vmod, h]
  · rw [vget_beyond d _ (by omega), vget_beyond d _ (by omega)]

/-! ### Sparse tables -/

theorem tabGet_filter_ne (d : α) (t : List (Nat × α)) {j k : Nat} (h : j ≠ k) :
    tabGet d (t.filter (fun e => e.1 != k)) j = tabGet d t j := by
  induction t with
  | nil => rfl
  | cons e rest ih =>
    by_cases hk : e.1 = k
    · simp only [List.filter_cons, hk, bne_self_eq_false, Bool.false_eq_true, if_false, ih]
      simp [tabGet, hk, Ne.symm h]
    · simp only [List.filter_cons, bne_iff_ne.mpr hk, if_true, tabGet, ih]

theorem tabGet_filter_same (d : α) (t : List (Nat × α)) (k : Nat) :
    tabGet d (t.filter (fun e => e.1 != k)) k = d := by
  induction t with
  | nil => rfl
  | cons e rest ih =>
    by_cases hk : e.1 = k
    · simp only [List.filter_cons, hk, bne_self_eq_false, Bool.false_eq_true, if_false, ih]
    · simp only [List.filter_cons, bne_iff_ne.mpr hk, if_true, tabGet, if_neg hk, ih]

theorem tabGet_tabInsert_ne (d : α) (t : List (Nat × α)) (v : α) {j k : Nat} (h : j ≠ k) :
    tabGet d (tabInsert k v t) j = tabGet d t j := by
  induction t with
  | nil => simp [tabInsert, tabGet, Ne.symm h]
  | cons e rest ih =>
    by_cases hk : k < e.1
    · simp [tabInsert, if_pos hk, tabGet, Ne.symm h]
    · simp only [tabInsert, if_neg hk, tabGet, ih]

theorem tabGet_tabInsert_same (d : α) (t : List (Nat × α)) (v : α) (k : Nat) (h : ∀ e ∈ t, e.1 ≠ k) :
    tabGet d (tabInsert k v t) k = v := by
  induction t with
  | nil => simp [tabInsert, tabGet]
  | cons e rest ih =>
    by_cases hk : k < e.1
    · simp [tabInsert, if_pos hk, tabGet]
    · simp only [tabInsert, if_neg hk, tabGet, if_neg (h e (by simp))]
      exact ih (fun x hx => h x (by simp [hx]))

/-- Reading a table after one entry has changed. -/
theorem tabGet_tabSet [DecidableEq α] (d : α) (t : List (Nat × α)) (k j : Nat) (v : α) :
    tabGet d (tabSet d t k v) j = if j = k then v else tabGet d t j := by
  unfold tabSet
  by_cases hv : v = d
  · simp only [hv, if_true]
    by_cases hj : j = k
    · subst hj; simp [tabGet_filter_same]
    · simp [hj, tabGet_filter_ne d t hj]
  · simp only [hv, if_false]
    by_cases hj : j = k
    · subst hj
      simp only [if_true]
      exact tabGet_tabInsert_same d _ v j (fun e he => by simpa using (List.mem_filter.mp he).2)
    · rw [if_neg hj, tabGet_tabInsert_ne d _ v hj, tabGet_filter_ne d t hj]

/-! ### Sets -/

theorem mem_setInsert (s : List Nat) (k j : Nat) : j ∈ setInsert k s ↔ j = k ∨ j ∈ s := by
  induction s with
  | nil => simp [setInsert]
  | cons a rest ih =>
    unfold setInsert
    split
    · simp
    · split
      · rename_i h; subst h; simp
      · simp only [List.mem_cons, ih]; grind

/-- Membership after one key has been put in or taken out. -/
theorem contains_setPut (s : List Nat) (k j : Nat) (b : Bool) :
    (setPut s k b).contains j = if j = k then b else s.contains j := by
  rw [Bool.eq_iff_iff]
  cases b
  · simp only [setPut, Bool.false_eq_true, if_false, List.contains_iff_mem, List.mem_filter, bne_iff_ne]
    by_cases h : j = k <;> simp [h]
  · simp only [setPut, if_true, List.contains_iff_mem, mem_setInsert]
    by_cases h : j = k <;> simp [h]

end Sys2Proof.Machine
end

