-- ==== Sys2Proof/Laws/State.lean ====
section
/-! SUPPORT. What each update of one part of the device leaves alone and what it puts there, field by field. -/

namespace Sys2Proof.Machine

/-! ### `Dev.modBay` -/

@[simp] theorem Dev.modBay_mem (d : Dev) (b : Nat) (f : Bay → Bay) : (d.modBay b f).mem = d.mem := by simp only [Dev.modBay]
@[simp] theorem Dev.modBay_piers (d : Dev) (b : Nat) (f : Bay → Bay) : (d.modBay b f).piers = d.piers := by simp only [Dev.modBay]
@[simp] theorem Dev.modBay_hbms (d : Dev) (b : Nat) (f : Bay → Bay) : (d.modBay b f).hbms = d.hbms := by simp only [Dev.modBay]
@[simp] theorem Dev.modBay_integs (d : Dev) (b : Nat) (f : Bay → Bay) : (d.modBay b f).integs = d.integs := by simp only [Dev.modBay]
@[simp] theorem Dev.modBay_links (d : Dev) (b : Nat) (f : Bay → Bay) : (d.modBay b f).links = d.links := by simp only [Dev.modBay]
@[simp] theorem Dev.modBay_ports (d : Dev) (b : Nat) (f : Bay → Bay) : (d.modBay b f).ports = d.ports := by simp only [Dev.modBay]
@[simp] theorem Dev.modBay_parts (d : Dev) (b : Nat) (f : Bay → Bay) : (d.modBay b f).parts = d.parts := by simp only [Dev.modBay]
@[simp] theorem Dev.modBay_fab (d : Dev) (b : Nat) (f : Bay → Bay) : (d.modBay b f).fab = d.fab := by simp only [Dev.modBay]
@[simp] theorem Dev.modBay_hold (d : Dev) (b : Nat) (f : Bay → Bay) : (d.modBay b f).hold = d.hold := by simp only [Dev.modBay]
@[simp] theorem Dev.modBay_colls (d : Dev) (b : Nat) (f : Bay → Bay) : (d.modBay b f).colls = d.colls := by simp only [Dev.modBay]
@[simp] theorem Dev.modBay_box (d : Dev) (b : Nat) (f : Bay → Bay) : (d.modBay b f).box = d.box := by simp only [Dev.modBay]
@[simp] theorem Dev.modBay_bond (d : Dev) (b : Nat) (f : Bay → Bay) : (d.modBay b f).bond = d.bond := by simp only [Dev.modBay]
@[simp] theorem Dev.modBay_pwr (d : Dev) (b : Nat) (f : Bay → Bay) : (d.modBay b f).pwr = d.pwr := by simp only [Dev.modBay]
@[simp] theorem Dev.modBay_step (d : Dev) (b : Nat) (f : Bay → Bay) : (d.modBay b f).step = d.step := by simp only [Dev.modBay]
@[simp] theorem Dev.modBay_stepPend (d : Dev) (b : Nat) (f : Bay → Bay) : (d.modBay b f).stepPend = d.stepPend := by simp only [Dev.modBay]
@[simp] theorem Dev.modBay_stepSent (d : Dev) (b : Nat) (f : Bay → Bay) : (d.modBay b f).stepSent = d.stepSent := by simp only [Dev.modBay]
@[simp] theorem Dev.modBay_shift (d : Dev) (b : Nat) (f : Bay → Bay) : (d.modBay b f).shift = d.shift := by simp only [Dev.modBay]
@[simp] theorem Dev.modBay_maint (d : Dev) (b : Nat) (f : Bay → Bay) : (d.modBay b f).maint = d.maint := by simp only [Dev.modBay]
@[simp] theorem Dev.modBay_timeOut (d : Dev) (b : Nat) (f : Bay → Bay) : (d.modBay b f).timeOut = d.timeOut := by simp only [Dev.modBay]
@[simp] theorem Dev.modBay_evSeq (d : Dev) (b : Nat) (f : Bay → Bay) : (d.modBay b f).evSeq = d.evSeq := by simp only [Dev.modBay]
@[simp] theorem Dev.modBay_records (d : Dev) (b : Nat) (f : Bay → Bay) : (d.modBay b f).records = d.records := by simp only [Dev.modBay]
@[simp] theorem Dev.modBay_pend (d : Dev) (b : Nat) (f : Bay → Bay) : (d.modBay b f).pend = d.pend := by simp only [Dev.modBay]
@[simp] theorem Dev.modBay_held (d : Dev) (b : Nat) (f : Bay → Bay) : (d.modBay b f).held = d.held := by simp only [Dev.modBay]
@[simp] theorem Dev.modBay_nextJob (d : Dev) (b : Nat) (f : Bay → Bay) : (d.modBay b f).nextJob = d.nextJob := by simp only [Dev.modBay]
@[simp] theorem Dev.modBay_stall (d : Dev) (b : Nat) (f : Bay → Bay) : (d.modBay b f).stall = d.stall := by simp only [Dev.modBay]
@[simp] theorem Dev.modBay_late (d : Dev) (b : Nat) (f : Bay → Bay) : (d.modBay b f).late = d.late := by simp only [Dev.modBay]
@[simp] theorem Dev.modBay_owed (d : Dev) (b : Nat) (f : Bay → Bay) : (d.modBay b f).owed = d.owed := by simp only [Dev.modBay]
@[simp] theorem Dev.modBay_answers (d : Dev) (b : Nat) (f : Bay → Bay) : (d.modBay b f).answers = d.answers := by simp only [Dev.modBay]
@[simp] theorem Dev.modBay_free (d : Dev) (b : Nat) (f : Bay → Bay) : (d.modBay b f).free = d.free := by simp only [Dev.modBay]

/-! ### `Dev.modPier` -/

@[simp] theorem Dev.modPier_mem (d : Dev) (p : Nat) (f : Pier → Pier) : (d.modPier p f).mem = d.mem := by simp only [Dev.modPier]
@[simp] theorem Dev.modPier_bays (d : Dev) (p : Nat) (f : Pier → Pier) : (d.modPier p f).bays = d.bays := by simp only [Dev.modPier]
@[simp] theorem Dev.modPier_hbms (d : Dev) (p : Nat) (f : Pier → Pier) : (d.modPier p f).hbms = d.hbms := by simp only [Dev.modPier]
@[simp] theorem Dev.modPier_integs (d : Dev) (p : Nat) (f : Pier → Pier) : (d.modPier p f).integs = d.integs := by simp only [Dev.modPier]
@[simp] theorem Dev.modPier_links (d : Dev) (p : Nat) (f : Pier → Pier) : (d.modPier p f).links = d.links := by simp only [Dev.modPier]
@[simp] theorem Dev.modPier_ports (d : Dev) (p : Nat) (f : Pier → Pier) : (d.modPier p f).ports = d.ports := by simp only [Dev.modPier]
@[simp] theorem Dev.modPier_parts (d : Dev) (p : Nat) (f : Pier → Pier) : (d.modPier p f).parts = d.parts := by simp only [Dev.modPier]
@[simp] theorem Dev.modPier_fab (d : Dev) (p : Nat) (f : Pier → Pier) : (d.modPier p f).fab = d.fab := by simp only [Dev.modPier]
@[simp] theorem Dev.modPier_hold (d : Dev) (p : Nat) (f : Pier → Pier) : (d.modPier p f).hold = d.hold := by simp only [Dev.modPier]
@[simp] theorem Dev.modPier_colls (d : Dev) (p : Nat) (f : Pier → Pier) : (d.modPier p f).colls = d.colls := by simp only [Dev.modPier]
@[simp] theorem Dev.modPier_box (d : Dev) (p : Nat) (f : Pier → Pier) : (d.modPier p f).box = d.box := by simp only [Dev.modPier]
@[simp] theorem Dev.modPier_bond (d : Dev) (p : Nat) (f : Pier → Pier) : (d.modPier p f).bond = d.bond := by simp only [Dev.modPier]
@[simp] theorem Dev.modPier_pwr (d : Dev) (p : Nat) (f : Pier → Pier) : (d.modPier p f).pwr = d.pwr := by simp only [Dev.modPier]
@[simp] theorem Dev.modPier_step (d : Dev) (p : Nat) (f : Pier → Pier) : (d.modPier p f).step = d.step := by simp only [Dev.modPier]
@[simp] theorem Dev.modPier_stepPend (d : Dev) (p : Nat) (f : Pier → Pier) : (d.modPier p f).stepPend = d.stepPend := by simp only [Dev.modPier]
@[simp] theorem Dev.modPier_stepSent (d : Dev) (p : Nat) (f : Pier → Pier) : (d.modPier p f).stepSent = d.stepSent := by simp only [Dev.modPier]
@[simp] theorem Dev.modPier_shift (d : Dev) (p : Nat) (f : Pier → Pier) : (d.modPier p f).shift = d.shift := by simp only [Dev.modPier]
@[simp] theorem Dev.modPier_maint (d : Dev) (p : Nat) (f : Pier → Pier) : (d.modPier p f).maint = d.maint := by simp only [Dev.modPier]
@[simp] theorem Dev.modPier_timeOut (d : Dev) (p : Nat) (f : Pier → Pier) : (d.modPier p f).timeOut = d.timeOut := by simp only [Dev.modPier]
@[simp] theorem Dev.modPier_evSeq (d : Dev) (p : Nat) (f : Pier → Pier) : (d.modPier p f).evSeq = d.evSeq := by simp only [Dev.modPier]
@[simp] theorem Dev.modPier_records (d : Dev) (p : Nat) (f : Pier → Pier) : (d.modPier p f).records = d.records := by simp only [Dev.modPier]
@[simp] theorem Dev.modPier_pend (d : Dev) (p : Nat) (f : Pier → Pier) : (d.modPier p f).pend = d.pend := by simp only [Dev.modPier]
@[simp] theorem Dev.modPier_held (d : Dev) (p : Nat) (f : Pier → Pier) : (d.modPier p f).held = d.held := by simp only [Dev.modPier]
@[simp] theorem Dev.modPier_nextJob (d : Dev) (p : Nat) (f : Pier → Pier) : (d.modPier p f).nextJob = d.nextJob := by simp only [Dev.modPier]
@[simp] theorem Dev.modPier_stall (d : Dev) (p : Nat) (f : Pier → Pier) : (d.modPier p f).stall = d.stall := by simp only [Dev.modPier]
@[simp] theorem Dev.modPier_late (d : Dev) (p : Nat) (f : Pier → Pier) : (d.modPier p f).late = d.late := by simp only [Dev.modPier]
@[simp] theorem Dev.modPier_owed (d : Dev) (p : Nat) (f : Pier → Pier) : (d.modPier p f).owed = d.owed := by simp only [Dev.modPier]
@[simp] theorem Dev.modPier_answers (d : Dev) (p : Nat) (f : Pier → Pier) : (d.modPier p f).answers = d.answers := by simp only [Dev.modPier]
@[simp] theorem Dev.modPier_free (d : Dev) (p : Nat) (f : Pier → Pier) : (d.modPier p f).free = d.free := by simp only [Dev.modPier]

/-! ### `Dev.modStack` -/

@[simp] theorem Dev.modStack_mem (d : Dev) (k : Nat) (f : Stack → Stack) : (d.modStack k f).mem = d.mem := by simp only [Dev.modStack]
@[simp] theorem Dev.modStack_bays (d : Dev) (k : Nat) (f : Stack → Stack) : (d.modStack k f).bays = d.bays := by simp only [Dev.modStack]
@[simp] theorem Dev.modStack_piers (d : Dev) (k : Nat) (f : Stack → Stack) : (d.modStack k f).piers = d.piers := by simp only [Dev.modStack]
@[simp] theorem Dev.modStack_integs (d : Dev) (k : Nat) (f : Stack → Stack) : (d.modStack k f).integs = d.integs := by simp only [Dev.modStack]
@[simp] theorem Dev.modStack_links (d : Dev) (k : Nat) (f : Stack → Stack) : (d.modStack k f).links = d.links := by simp only [Dev.modStack]
@[simp] theorem Dev.modStack_ports (d : Dev) (k : Nat) (f : Stack → Stack) : (d.modStack k f).ports = d.ports := by simp only [Dev.modStack]
@[simp] theorem Dev.modStack_parts (d : Dev) (k : Nat) (f : Stack → Stack) : (d.modStack k f).parts = d.parts := by simp only [Dev.modStack]
@[simp] theorem Dev.modStack_fab (d : Dev) (k : Nat) (f : Stack → Stack) : (d.modStack k f).fab = d.fab := by simp only [Dev.modStack]
@[simp] theorem Dev.modStack_hold (d : Dev) (k : Nat) (f : Stack → Stack) : (d.modStack k f).hold = d.hold := by simp only [Dev.modStack]
@[simp] theorem Dev.modStack_colls (d : Dev) (k : Nat) (f : Stack → Stack) : (d.modStack k f).colls = d.colls := by simp only [Dev.modStack]
@[simp] theorem Dev.modStack_box (d : Dev) (k : Nat) (f : Stack → Stack) : (d.modStack k f).box = d.box := by simp only [Dev.modStack]
@[simp] theorem Dev.modStack_bond (d : Dev) (k : Nat) (f : Stack → Stack) : (d.modStack k f).bond = d.bond := by simp only [Dev.modStack]
@[simp] theorem Dev.modStack_pwr (d : Dev) (k : Nat) (f : Stack → Stack) : (d.modStack k f).pwr = d.pwr := by simp only [Dev.modStack]
@[simp] theorem Dev.modStack_step (d : Dev) (k : Nat) (f : Stack → Stack) : (d.modStack k f).step = d.step := by simp only [Dev.modStack]
@[simp] theorem Dev.modStack_stepPend (d : Dev) (k : Nat) (f : Stack → Stack) : (d.modStack k f).stepPend = d.stepPend := by simp only [Dev.modStack]
@[simp] theorem Dev.modStack_stepSent (d : Dev) (k : Nat) (f : Stack → Stack) : (d.modStack k f).stepSent = d.stepSent := by simp only [Dev.modStack]
@[simp] theorem Dev.modStack_shift (d : Dev) (k : Nat) (f : Stack → Stack) : (d.modStack k f).shift = d.shift := by simp only [Dev.modStack]
@[simp] theorem Dev.modStack_maint (d : Dev) (k : Nat) (f : Stack → Stack) : (d.modStack k f).maint = d.maint := by simp only [Dev.modStack]
@[simp] theorem Dev.modStack_timeOut (d : Dev) (k : Nat) (f : Stack → Stack) : (d.modStack k f).timeOut = d.timeOut := by simp only [Dev.modStack]
@[simp] theorem Dev.modStack_evSeq (d : Dev) (k : Nat) (f : Stack → Stack) : (d.modStack k f).evSeq = d.evSeq := by simp only [Dev.modStack]
@[simp] theorem Dev.modStack_records (d : Dev) (k : Nat) (f : Stack → Stack) : (d.modStack k f).records = d.records := by simp only [Dev.modStack]
@[simp] theorem Dev.modStack_pend (d : Dev) (k : Nat) (f : Stack → Stack) : (d.modStack k f).pend = d.pend := by simp only [Dev.modStack]
@[simp] theorem Dev.modStack_held (d : Dev) (k : Nat) (f : Stack → Stack) : (d.modStack k f).held = d.held := by simp only [Dev.modStack]
@[simp] theorem Dev.modStack_nextJob (d : Dev) (k : Nat) (f : Stack → Stack) : (d.modStack k f).nextJob = d.nextJob := by simp only [Dev.modStack]
@[simp] theorem Dev.modStack_stall (d : Dev) (k : Nat) (f : Stack → Stack) : (d.modStack k f).stall = d.stall := by simp only [Dev.modStack]
@[simp] theorem Dev.modStack_late (d : Dev) (k : Nat) (f : Stack → Stack) : (d.modStack k f).late = d.late := by simp only [Dev.modStack]
@[simp] theorem Dev.modStack_owed (d : Dev) (k : Nat) (f : Stack → Stack) : (d.modStack k f).owed = d.owed := by simp only [Dev.modStack]
@[simp] theorem Dev.modStack_answers (d : Dev) (k : Nat) (f : Stack → Stack) : (d.modStack k f).answers = d.answers := by simp only [Dev.modStack]
@[simp] theorem Dev.modStack_free (d : Dev) (k : Nat) (f : Stack → Stack) : (d.modStack k f).free = d.free := by simp only [Dev.modStack]

/-! ### `Dev.modInteg` -/

@[simp] theorem Dev.modInteg_mem (d : Dev) (i : Nat) (f : Integ → Integ) : (d.modInteg i f).mem = d.mem := by simp only [Dev.modInteg]
@[simp] theorem Dev.modInteg_bays (d : Dev) (i : Nat) (f : Integ → Integ) : (d.modInteg i f).bays = d.bays := by simp only [Dev.modInteg]
@[simp] theorem Dev.modInteg_piers (d : Dev) (i : Nat) (f : Integ → Integ) : (d.modInteg i f).piers = d.piers := by simp only [Dev.modInteg]
@[simp] theorem Dev.modInteg_hbms (d : Dev) (i : Nat) (f : Integ → Integ) : (d.modInteg i f).hbms = d.hbms := by simp only [Dev.modInteg]
@[simp] theorem Dev.modInteg_links (d : Dev) (i : Nat) (f : Integ → Integ) : (d.modInteg i f).links = d.links := by simp only [Dev.modInteg]
@[simp] theorem Dev.modInteg_ports (d : Dev) (i : Nat) (f : Integ → Integ) : (d.modInteg i f).ports = d.ports := by simp only [Dev.modInteg]
@[simp] theorem Dev.modInteg_parts (d : Dev) (i : Nat) (f : Integ → Integ) : (d.modInteg i f).parts = d.parts := by simp only [Dev.modInteg]
@[simp] theorem Dev.modInteg_fab (d : Dev) (i : Nat) (f : Integ → Integ) : (d.modInteg i f).fab = d.fab := by simp only [Dev.modInteg]
@[simp] theorem Dev.modInteg_hold (d : Dev) (i : Nat) (f : Integ → Integ) : (d.modInteg i f).hold = d.hold := by simp only [Dev.modInteg]
@[simp] theorem Dev.modInteg_colls (d : Dev) (i : Nat) (f : Integ → Integ) : (d.modInteg i f).colls = d.colls := by simp only [Dev.modInteg]
@[simp] theorem Dev.modInteg_box (d : Dev) (i : Nat) (f : Integ → Integ) : (d.modInteg i f).box = d.box := by simp only [Dev.modInteg]
@[simp] theorem Dev.modInteg_bond (d : Dev) (i : Nat) (f : Integ → Integ) : (d.modInteg i f).bond = d.bond := by simp only [Dev.modInteg]
@[simp] theorem Dev.modInteg_pwr (d : Dev) (i : Nat) (f : Integ → Integ) : (d.modInteg i f).pwr = d.pwr := by simp only [Dev.modInteg]
@[simp] theorem Dev.modInteg_step (d : Dev) (i : Nat) (f : Integ → Integ) : (d.modInteg i f).step = d.step := by simp only [Dev.modInteg]
@[simp] theorem Dev.modInteg_stepPend (d : Dev) (i : Nat) (f : Integ → Integ) : (d.modInteg i f).stepPend = d.stepPend := by simp only [Dev.modInteg]
@[simp] theorem Dev.modInteg_stepSent (d : Dev) (i : Nat) (f : Integ → Integ) : (d.modInteg i f).stepSent = d.stepSent := by simp only [Dev.modInteg]
@[simp] theorem Dev.modInteg_shift (d : Dev) (i : Nat) (f : Integ → Integ) : (d.modInteg i f).shift = d.shift := by simp only [Dev.modInteg]
@[simp] theorem Dev.modInteg_maint (d : Dev) (i : Nat) (f : Integ → Integ) : (d.modInteg i f).maint = d.maint := by simp only [Dev.modInteg]
@[simp] theorem Dev.modInteg_timeOut (d : Dev) (i : Nat) (f : Integ → Integ) : (d.modInteg i f).timeOut = d.timeOut := by simp only [Dev.modInteg]
@[simp] theorem Dev.modInteg_evSeq (d : Dev) (i : Nat) (f : Integ → Integ) : (d.modInteg i f).evSeq = d.evSeq := by simp only [Dev.modInteg]
@[simp] theorem Dev.modInteg_records (d : Dev) (i : Nat) (f : Integ → Integ) : (d.modInteg i f).records = d.records := by simp only [Dev.modInteg]
@[simp] theorem Dev.modInteg_pend (d : Dev) (i : Nat) (f : Integ → Integ) : (d.modInteg i f).pend = d.pend := by simp only [Dev.modInteg]
@[simp] theorem Dev.modInteg_held (d : Dev) (i : Nat) (f : Integ → Integ) : (d.modInteg i f).held = d.held := by simp only [Dev.modInteg]
@[simp] theorem Dev.modInteg_nextJob (d : Dev) (i : Nat) (f : Integ → Integ) : (d.modInteg i f).nextJob = d.nextJob := by simp only [Dev.modInteg]
@[simp] theorem Dev.modInteg_stall (d : Dev) (i : Nat) (f : Integ → Integ) : (d.modInteg i f).stall = d.stall := by simp only [Dev.modInteg]
@[simp] theorem Dev.modInteg_late (d : Dev) (i : Nat) (f : Integ → Integ) : (d.modInteg i f).late = d.late := by simp only [Dev.modInteg]
@[simp] theorem Dev.modInteg_owed (d : Dev) (i : Nat) (f : Integ → Integ) : (d.modInteg i f).owed = d.owed := by simp only [Dev.modInteg]
@[simp] theorem Dev.modInteg_answers (d : Dev) (i : Nat) (f : Integ → Integ) : (d.modInteg i f).answers = d.answers := by simp only [Dev.modInteg]
@[simp] theorem Dev.modInteg_free (d : Dev) (i : Nat) (f : Integ → Integ) : (d.modInteg i f).free = d.free := by simp only [Dev.modInteg]

/-! ### `Dev.modLink` -/

@[simp] theorem Dev.modLink_mem (d : Dev) (l : Nat) (f : Link → Link) : (d.modLink l f).mem = d.mem := by simp only [Dev.modLink]
@[simp] theorem Dev.modLink_bays (d : Dev) (l : Nat) (f : Link → Link) : (d.modLink l f).bays = d.bays := by simp only [Dev.modLink]
@[simp] theorem Dev.modLink_piers (d : Dev) (l : Nat) (f : Link → Link) : (d.modLink l f).piers = d.piers := by simp only [Dev.modLink]
@[simp] theorem Dev.modLink_hbms (d : Dev) (l : Nat) (f : Link → Link) : (d.modLink l f).hbms = d.hbms := by simp only [Dev.modLink]
@[simp] theorem Dev.modLink_integs (d : Dev) (l : Nat) (f : Link → Link) : (d.modLink l f).integs = d.integs := by simp only [Dev.modLink]
@[simp] theorem Dev.modLink_ports (d : Dev) (l : Nat) (f : Link → Link) : (d.modLink l f).ports = d.ports := by simp only [Dev.modLink]
@[simp] theorem Dev.modLink_parts (d : Dev) (l : Nat) (f : Link → Link) : (d.modLink l f).parts = d.parts := by simp only [Dev.modLink]
@[simp] theorem Dev.modLink_fab (d : Dev) (l : Nat) (f : Link → Link) : (d.modLink l f).fab = d.fab := by simp only [Dev.modLink]
@[simp] theorem Dev.modLink_hold (d : Dev) (l : Nat) (f : Link → Link) : (d.modLink l f).hold = d.hold := by simp only [Dev.modLink]
@[simp] theorem Dev.modLink_colls (d : Dev) (l : Nat) (f : Link → Link) : (d.modLink l f).colls = d.colls := by simp only [Dev.modLink]
@[simp] theorem Dev.modLink_box (d : Dev) (l : Nat) (f : Link → Link) : (d.modLink l f).box = d.box := by simp only [Dev.modLink]
@[simp] theorem Dev.modLink_bond (d : Dev) (l : Nat) (f : Link → Link) : (d.modLink l f).bond = d.bond := by simp only [Dev.modLink]
@[simp] theorem Dev.modLink_pwr (d : Dev) (l : Nat) (f : Link → Link) : (d.modLink l f).pwr = d.pwr := by simp only [Dev.modLink]
@[simp] theorem Dev.modLink_step (d : Dev) (l : Nat) (f : Link → Link) : (d.modLink l f).step = d.step := by simp only [Dev.modLink]
@[simp] theorem Dev.modLink_stepPend (d : Dev) (l : Nat) (f : Link → Link) : (d.modLink l f).stepPend = d.stepPend := by simp only [Dev.modLink]
@[simp] theorem Dev.modLink_stepSent (d : Dev) (l : Nat) (f : Link → Link) : (d.modLink l f).stepSent = d.stepSent := by simp only [Dev.modLink]
@[simp] theorem Dev.modLink_shift (d : Dev) (l : Nat) (f : Link → Link) : (d.modLink l f).shift = d.shift := by simp only [Dev.modLink]
@[simp] theorem Dev.modLink_maint (d : Dev) (l : Nat) (f : Link → Link) : (d.modLink l f).maint = d.maint := by simp only [Dev.modLink]
@[simp] theorem Dev.modLink_timeOut (d : Dev) (l : Nat) (f : Link → Link) : (d.modLink l f).timeOut = d.timeOut := by simp only [Dev.modLink]
@[simp] theorem Dev.modLink_evSeq (d : Dev) (l : Nat) (f : Link → Link) : (d.modLink l f).evSeq = d.evSeq := by simp only [Dev.modLink]
@[simp] theorem Dev.modLink_records (d : Dev) (l : Nat) (f : Link → Link) : (d.modLink l f).records = d.records := by simp only [Dev.modLink]
@[simp] theorem Dev.modLink_pend (d : Dev) (l : Nat) (f : Link → Link) : (d.modLink l f).pend = d.pend := by simp only [Dev.modLink]
@[simp] theorem Dev.modLink_held (d : Dev) (l : Nat) (f : Link → Link) : (d.modLink l f).held = d.held := by simp only [Dev.modLink]
@[simp] theorem Dev.modLink_nextJob (d : Dev) (l : Nat) (f : Link → Link) : (d.modLink l f).nextJob = d.nextJob := by simp only [Dev.modLink]
@[simp] theorem Dev.modLink_stall (d : Dev) (l : Nat) (f : Link → Link) : (d.modLink l f).stall = d.stall := by simp only [Dev.modLink]
@[simp] theorem Dev.modLink_late (d : Dev) (l : Nat) (f : Link → Link) : (d.modLink l f).late = d.late := by simp only [Dev.modLink]
@[simp] theorem Dev.modLink_owed (d : Dev) (l : Nat) (f : Link → Link) : (d.modLink l f).owed = d.owed := by simp only [Dev.modLink]
@[simp] theorem Dev.modLink_answers (d : Dev) (l : Nat) (f : Link → Link) : (d.modLink l f).answers = d.answers := by simp only [Dev.modLink]
@[simp] theorem Dev.modLink_free (d : Dev) (l : Nat) (f : Link → Link) : (d.modLink l f).free = d.free := by simp only [Dev.modLink]

/-! ### `Dev.modPort` -/

@[simp] theorem Dev.modPort_mem (d : Dev) (v : Nat) (f : Port → Port) : (d.modPort v f).mem = d.mem := by simp only [Dev.modPort]
@[simp] theorem Dev.modPort_bays (d : Dev) (v : Nat) (f : Port → Port) : (d.modPort v f).bays = d.bays := by simp only [Dev.modPort]
@[simp] theorem Dev.modPort_piers (d : Dev) (v : Nat) (f : Port → Port) : (d.modPort v f).piers = d.piers := by simp only [Dev.modPort]
@[simp] theorem Dev.modPort_hbms (d : Dev) (v : Nat) (f : Port → Port) : (d.modPort v f).hbms = d.hbms := by simp only [Dev.modPort]
@[simp] theorem Dev.modPort_integs (d : Dev) (v : Nat) (f : Port → Port) : (d.modPort v f).integs = d.integs := by simp only [Dev.modPort]
@[simp] theorem Dev.modPort_links (d : Dev) (v : Nat) (f : Port → Port) : (d.modPort v f).links = d.links := by simp only [Dev.modPort]
@[simp] theorem Dev.modPort_parts (d : Dev) (v : Nat) (f : Port → Port) : (d.modPort v f).parts = d.parts := by simp only [Dev.modPort]
@[simp] theorem Dev.modPort_fab (d : Dev) (v : Nat) (f : Port → Port) : (d.modPort v f).fab = d.fab := by simp only [Dev.modPort]
@[simp] theorem Dev.modPort_hold (d : Dev) (v : Nat) (f : Port → Port) : (d.modPort v f).hold = d.hold := by simp only [Dev.modPort]
@[simp] theorem Dev.modPort_colls (d : Dev) (v : Nat) (f : Port → Port) : (d.modPort v f).colls = d.colls := by simp only [Dev.modPort]
@[simp] theorem Dev.modPort_box (d : Dev) (v : Nat) (f : Port → Port) : (d.modPort v f).box = d.box := by simp only [Dev.modPort]
@[simp] theorem Dev.modPort_bond (d : Dev) (v : Nat) (f : Port → Port) : (d.modPort v f).bond = d.bond := by simp only [Dev.modPort]
@[simp] theorem Dev.modPort_pwr (d : Dev) (v : Nat) (f : Port → Port) : (d.modPort v f).pwr = d.pwr := by simp only [Dev.modPort]
@[simp] theorem Dev.modPort_step (d : Dev) (v : Nat) (f : Port → Port) : (d.modPort v f).step = d.step := by simp only [Dev.modPort]
@[simp] theorem Dev.modPort_stepPend (d : Dev) (v : Nat) (f : Port → Port) : (d.modPort v f).stepPend = d.stepPend := by simp only [Dev.modPort]
@[simp] theorem Dev.modPort_stepSent (d : Dev) (v : Nat) (f : Port → Port) : (d.modPort v f).stepSent = d.stepSent := by simp only [Dev.modPort]
@[simp] theorem Dev.modPort_shift (d : Dev) (v : Nat) (f : Port → Port) : (d.modPort v f).shift = d.shift := by simp only [Dev.modPort]
@[simp] theorem Dev.modPort_maint (d : Dev) (v : Nat) (f : Port → Port) : (d.modPort v f).maint = d.maint := by simp only [Dev.modPort]
@[simp] theorem Dev.modPort_timeOut (d : Dev) (v : Nat) (f : Port → Port) : (d.modPort v f).timeOut = d.timeOut := by simp only [Dev.modPort]
@[simp] theorem Dev.modPort_evSeq (d : Dev) (v : Nat) (f : Port → Port) : (d.modPort v f).evSeq = d.evSeq := by simp only [Dev.modPort]
@[simp] theorem Dev.modPort_records (d : Dev) (v : Nat) (f : Port → Port) : (d.modPort v f).records = d.records := by simp only [Dev.modPort]
@[simp] theorem Dev.modPort_pend (d : Dev) (v : Nat) (f : Port → Port) : (d.modPort v f).pend = d.pend := by simp only [Dev.modPort]
@[simp] theorem Dev.modPort_held (d : Dev) (v : Nat) (f : Port → Port) : (d.modPort v f).held = d.held := by simp only [Dev.modPort]
@[simp] theorem Dev.modPort_nextJob (d : Dev) (v : Nat) (f : Port → Port) : (d.modPort v f).nextJob = d.nextJob := by simp only [Dev.modPort]
@[simp] theorem Dev.modPort_stall (d : Dev) (v : Nat) (f : Port → Port) : (d.modPort v f).stall = d.stall := by simp only [Dev.modPort]
@[simp] theorem Dev.modPort_late (d : Dev) (v : Nat) (f : Port → Port) : (d.modPort v f).late = d.late := by simp only [Dev.modPort]
@[simp] theorem Dev.modPort_owed (d : Dev) (v : Nat) (f : Port → Port) : (d.modPort v f).owed = d.owed := by simp only [Dev.modPort]
@[simp] theorem Dev.modPort_answers (d : Dev) (v : Nat) (f : Port → Port) : (d.modPort v f).answers = d.answers := by simp only [Dev.modPort]
@[simp] theorem Dev.modPort_free (d : Dev) (v : Nat) (f : Port → Port) : (d.modPort v f).free = d.free := by simp only [Dev.modPort]

/-! ### `Dev.modPart` -/

@[simp] theorem Dev.modPart_mem (d : Dev) (q : Nat) (f : Part → Part) : (d.modPart q f).mem = d.mem := by simp only [Dev.modPart]
@[simp] theorem Dev.modPart_bays (d : Dev) (q : Nat) (f : Part → Part) : (d.modPart q f).bays = d.bays := by simp only [Dev.modPart]
@[simp] theorem Dev.modPart_piers (d : Dev) (q : Nat) (f : Part → Part) : (d.modPart q f).piers = d.piers := by simp only [Dev.modPart]
@[simp] theorem Dev.modPart_hbms (d : Dev) (q : Nat) (f : Part → Part) : (d.modPart q f).hbms = d.hbms := by simp only [Dev.modPart]
@[simp] theorem Dev.modPart_integs (d : Dev) (q : Nat) (f : Part → Part) : (d.modPart q f).integs = d.integs := by simp only [Dev.modPart]
@[simp] theorem Dev.modPart_links (d : Dev) (q : Nat) (f : Part → Part) : (d.modPart q f).links = d.links := by simp only [Dev.modPart]
@[simp] theorem Dev.modPart_ports (d : Dev) (q : Nat) (f : Part → Part) : (d.modPart q f).ports = d.ports := by simp only [Dev.modPart]
@[simp] theorem Dev.modPart_fab (d : Dev) (q : Nat) (f : Part → Part) : (d.modPart q f).fab = d.fab := by simp only [Dev.modPart]
@[simp] theorem Dev.modPart_hold (d : Dev) (q : Nat) (f : Part → Part) : (d.modPart q f).hold = d.hold := by simp only [Dev.modPart]
@[simp] theorem Dev.modPart_colls (d : Dev) (q : Nat) (f : Part → Part) : (d.modPart q f).colls = d.colls := by simp only [Dev.modPart]
@[simp] theorem Dev.modPart_box (d : Dev) (q : Nat) (f : Part → Part) : (d.modPart q f).box = d.box := by simp only [Dev.modPart]
@[simp] theorem Dev.modPart_bond (d : Dev) (q : Nat) (f : Part → Part) : (d.modPart q f).bond = d.bond := by simp only [Dev.modPart]
@[simp] theorem Dev.modPart_pwr (d : Dev) (q : Nat) (f : Part → Part) : (d.modPart q f).pwr = d.pwr := by simp only [Dev.modPart]
@[simp] theorem Dev.modPart_step (d : Dev) (q : Nat) (f : Part → Part) : (d.modPart q f).step = d.step := by simp only [Dev.modPart]
@[simp] theorem Dev.modPart_stepPend (d : Dev) (q : Nat) (f : Part → Part) : (d.modPart q f).stepPend = d.stepPend := by simp only [Dev.modPart]
@[simp] theorem Dev.modPart_stepSent (d : Dev) (q : Nat) (f : Part → Part) : (d.modPart q f).stepSent = d.stepSent := by simp only [Dev.modPart]
@[simp] theorem Dev.modPart_shift (d : Dev) (q : Nat) (f : Part → Part) : (d.modPart q f).shift = d.shift := by simp only [Dev.modPart]
@[simp] theorem Dev.modPart_maint (d : Dev) (q : Nat) (f : Part → Part) : (d.modPart q f).maint = d.maint := by simp only [Dev.modPart]
@[simp] theorem Dev.modPart_timeOut (d : Dev) (q : Nat) (f : Part → Part) : (d.modPart q f).timeOut = d.timeOut := by simp only [Dev.modPart]
@[simp] theorem Dev.modPart_evSeq (d : Dev) (q : Nat) (f : Part → Part) : (d.modPart q f).evSeq = d.evSeq := by simp only [Dev.modPart]
@[simp] theorem Dev.modPart_records (d : Dev) (q : Nat) (f : Part → Part) : (d.modPart q f).records = d.records := by simp only [Dev.modPart]
@[simp] theorem Dev.modPart_pend (d : Dev) (q : Nat) (f : Part → Part) : (d.modPart q f).pend = d.pend := by simp only [Dev.modPart]
@[simp] theorem Dev.modPart_held (d : Dev) (q : Nat) (f : Part → Part) : (d.modPart q f).held = d.held := by simp only [Dev.modPart]
@[simp] theorem Dev.modPart_nextJob (d : Dev) (q : Nat) (f : Part → Part) : (d.modPart q f).nextJob = d.nextJob := by simp only [Dev.modPart]
@[simp] theorem Dev.modPart_stall (d : Dev) (q : Nat) (f : Part → Part) : (d.modPart q f).stall = d.stall := by simp only [Dev.modPart]
@[simp] theorem Dev.modPart_late (d : Dev) (q : Nat) (f : Part → Part) : (d.modPart q f).late = d.late := by simp only [Dev.modPart]
@[simp] theorem Dev.modPart_owed (d : Dev) (q : Nat) (f : Part → Part) : (d.modPart q f).owed = d.owed := by simp only [Dev.modPart]
@[simp] theorem Dev.modPart_answers (d : Dev) (q : Nat) (f : Part → Part) : (d.modPart q f).answers = d.answers := by simp only [Dev.modPart]
@[simp] theorem Dev.modPart_free (d : Dev) (q : Nat) (f : Part → Part) : (d.modPart q f).free = d.free := by simp only [Dev.modPart]

/-! ### `Dev.modStream` -/

@[simp] theorem Dev.modStream_mem (d : Dev) (b i : Nat) (f : Stream → Stream) : (d.modStream b i f).mem = d.mem := by simp only [Dev.modStream, Dev.modBay]
@[simp] theorem Dev.modStream_piers (d : Dev) (b i : Nat) (f : Stream → Stream) : (d.modStream b i f).piers = d.piers := by simp only [Dev.modStream, Dev.modBay]
@[simp] theorem Dev.modStream_hbms (d : Dev) (b i : Nat) (f : Stream → Stream) : (d.modStream b i f).hbms = d.hbms := by simp only [Dev.modStream, Dev.modBay]
@[simp] theorem Dev.modStream_integs (d : Dev) (b i : Nat) (f : Stream → Stream) : (d.modStream b i f).integs = d.integs := by simp only [Dev.modStream, Dev.modBay]
@[simp] theorem Dev.modStream_links (d : Dev) (b i : Nat) (f : Stream → Stream) : (d.modStream b i f).links = d.links := by simp only [Dev.modStream, Dev.modBay]
@[simp] theorem Dev.modStream_ports (d : Dev) (b i : Nat) (f : Stream → Stream) : (d.modStream b i f).ports = d.ports := by simp only [Dev.modStream, Dev.modBay]
@[simp] theorem Dev.modStream_parts (d : Dev) (b i : Nat) (f : Stream → Stream) : (d.modStream b i f).parts = d.parts := by simp only [Dev.modStream, Dev.modBay]
@[simp] theorem Dev.modStream_fab (d : Dev) (b i : Nat) (f : Stream → Stream) : (d.modStream b i f).fab = d.fab := by simp only [Dev.modStream, Dev.modBay]
@[simp] theorem Dev.modStream_hold (d : Dev) (b i : Nat) (f : Stream → Stream) : (d.modStream b i f).hold = d.hold := by simp only [Dev.modStream, Dev.modBay]
@[simp] theorem Dev.modStream_colls (d : Dev) (b i : Nat) (f : Stream → Stream) : (d.modStream b i f).colls = d.colls := by simp only [Dev.modStream, Dev.modBay]
@[simp] theorem Dev.modStream_box (d : Dev) (b i : Nat) (f : Stream → Stream) : (d.modStream b i f).box = d.box := by simp only [Dev.modStream, Dev.modBay]
@[simp] theorem Dev.modStream_bond (d : Dev) (b i : Nat) (f : Stream → Stream) : (d.modStream b i f).bond = d.bond := by simp only [Dev.modStream, Dev.modBay]
@[simp] theorem Dev.modStream_pwr (d : Dev) (b i : Nat) (f : Stream → Stream) : (d.modStream b i f).pwr = d.pwr := by simp only [Dev.modStream, Dev.modBay]
@[simp] theorem Dev.modStream_step (d : Dev) (b i : Nat) (f : Stream → Stream) : (d.modStream b i f).step = d.step := by simp only [Dev.modStream, Dev.modBay]
@[simp] theorem Dev.modStream_stepPend (d : Dev) (b i : Nat) (f : Stream → Stream) : (d.modStream b i f).stepPend = d.stepPend := by simp only [Dev.modStream, Dev.modBay]
@[simp] theorem Dev.modStream_stepSent (d : Dev) (b i : Nat) (f : Stream → Stream) : (d.modStream b i f).stepSent = d.stepSent := by simp only [Dev.modStream, Dev.modBay]
@[simp] theorem Dev.modStream_shift (d : Dev) (b i : Nat) (f : Stream → Stream) : (d.modStream b i f).shift = d.shift := by simp only [Dev.modStream, Dev.modBay]
@[simp] theorem Dev.modStream_maint (d : Dev) (b i : Nat) (f : Stream → Stream) : (d.modStream b i f).maint = d.maint := by simp only [Dev.modStream, Dev.modBay]
@[simp] theorem Dev.modStream_timeOut (d : Dev) (b i : Nat) (f : Stream → Stream) : (d.modStream b i f).timeOut = d.timeOut := by simp only [Dev.modStream, Dev.modBay]
@[simp] theorem Dev.modStream_evSeq (d : Dev) (b i : Nat) (f : Stream → Stream) : (d.modStream b i f).evSeq = d.evSeq := by simp only [Dev.modStream, Dev.modBay]
@[simp] theorem Dev.modStream_records (d : Dev) (b i : Nat) (f : Stream → Stream) : (d.modStream b i f).records = d.records := by simp only [Dev.modStream, Dev.modBay]
@[simp] theorem Dev.modStream_pend (d : Dev) (b i : Nat) (f : Stream → Stream) : (d.modStream b i f).pend = d.pend := by simp only [Dev.modStream, Dev.modBay]
@[simp] theorem Dev.modStream_held (d : Dev) (b i : Nat) (f : Stream → Stream) : (d.modStream b i f).held = d.held := by simp only [Dev.modStream, Dev.modBay]
@[simp] theorem Dev.modStream_nextJob (d : Dev) (b i : Nat) (f : Stream → Stream) : (d.modStream b i f).nextJob = d.nextJob := by simp only [Dev.modStream, Dev.modBay]
@[simp] theorem Dev.modStream_stall (d : Dev) (b i : Nat) (f : Stream → Stream) : (d.modStream b i f).stall = d.stall := by simp only [Dev.modStream, Dev.modBay]
@[simp] theorem Dev.modStream_late (d : Dev) (b i : Nat) (f : Stream → Stream) : (d.modStream b i f).late = d.late := by simp only [Dev.modStream, Dev.modBay]
@[simp] theorem Dev.modStream_owed (d : Dev) (b i : Nat) (f : Stream → Stream) : (d.modStream b i f).owed = d.owed := by simp only [Dev.modStream, Dev.modBay]
@[simp] theorem Dev.modStream_answers (d : Dev) (b i : Nat) (f : Stream → Stream) : (d.modStream b i f).answers = d.answers := by simp only [Dev.modStream, Dev.modBay]
@[simp] theorem Dev.modStream_free (d : Dev) (b i : Nat) (f : Stream → Stream) : (d.modStream b i f).free = d.free := by simp only [Dev.modStream, Dev.modBay]

/-! ### `Dev.modBox` -/

@[simp] theorem Dev.modBox_mem (d : Dev) (f : Box → Box) : (d.modBox f).mem = d.mem := by simp only [Dev.modBox]
@[simp] theorem Dev.modBox_bays (d : Dev) (f : Box → Box) : (d.modBox f).bays = d.bays := by simp only [Dev.modBox]
@[simp] theorem Dev.modBox_piers (d : Dev) (f : Box → Box) : (d.modBox f).piers = d.piers := by simp only [Dev.modBox]
@[simp] theorem Dev.modBox_hbms (d : Dev) (f : Box → Box) : (d.modBox f).hbms = d.hbms := by simp only [Dev.modBox]
@[simp] theorem Dev.modBox_integs (d : Dev) (f : Box → Box) : (d.modBox f).integs = d.integs := by simp only [Dev.modBox]
@[simp] theorem Dev.modBox_links (d : Dev) (f : Box → Box) : (d.modBox f).links = d.links := by simp only [Dev.modBox]
@[simp] theorem Dev.modBox_ports (d : Dev) (f : Box → Box) : (d.modBox f).ports = d.ports := by simp only [Dev.modBox]
@[simp] theorem Dev.modBox_parts (d : Dev) (f : Box → Box) : (d.modBox f).parts = d.parts := by simp only [Dev.modBox]
@[simp] theorem Dev.modBox_fab (d : Dev) (f : Box → Box) : (d.modBox f).fab = d.fab := by simp only [Dev.modBox]
@[simp] theorem Dev.modBox_hold (d : Dev) (f : Box → Box) : (d.modBox f).hold = d.hold := by simp only [Dev.modBox]
@[simp] theorem Dev.modBox_colls (d : Dev) (f : Box → Box) : (d.modBox f).colls = d.colls := by simp only [Dev.modBox]
@[simp] theorem Dev.modBox_bond (d : Dev) (f : Box → Box) : (d.modBox f).bond = d.bond := by simp only [Dev.modBox]
@[simp] theorem Dev.modBox_pwr (d : Dev) (f : Box → Box) : (d.modBox f).pwr = d.pwr := by simp only [Dev.modBox]
@[simp] theorem Dev.modBox_step (d : Dev) (f : Box → Box) : (d.modBox f).step = d.step := by simp only [Dev.modBox]
@[simp] theorem Dev.modBox_stepPend (d : Dev) (f : Box → Box) : (d.modBox f).stepPend = d.stepPend := by simp only [Dev.modBox]
@[simp] theorem Dev.modBox_stepSent (d : Dev) (f : Box → Box) : (d.modBox f).stepSent = d.stepSent := by simp only [Dev.modBox]
@[simp] theorem Dev.modBox_shift (d : Dev) (f : Box → Box) : (d.modBox f).shift = d.shift := by simp only [Dev.modBox]
@[simp] theorem Dev.modBox_maint (d : Dev) (f : Box → Box) : (d.modBox f).maint = d.maint := by simp only [Dev.modBox]
@[simp] theorem Dev.modBox_timeOut (d : Dev) (f : Box → Box) : (d.modBox f).timeOut = d.timeOut := by simp only [Dev.modBox]
@[simp] theorem Dev.modBox_evSeq (d : Dev) (f : Box → Box) : (d.modBox f).evSeq = d.evSeq := by simp only [Dev.modBox]
@[simp] theorem Dev.modBox_records (d : Dev) (f : Box → Box) : (d.modBox f).records = d.records := by simp only [Dev.modBox]
@[simp] theorem Dev.modBox_pend (d : Dev) (f : Box → Box) : (d.modBox f).pend = d.pend := by simp only [Dev.modBox]
@[simp] theorem Dev.modBox_held (d : Dev) (f : Box → Box) : (d.modBox f).held = d.held := by simp only [Dev.modBox]
@[simp] theorem Dev.modBox_nextJob (d : Dev) (f : Box → Box) : (d.modBox f).nextJob = d.nextJob := by simp only [Dev.modBox]
@[simp] theorem Dev.modBox_stall (d : Dev) (f : Box → Box) : (d.modBox f).stall = d.stall := by simp only [Dev.modBox]
@[simp] theorem Dev.modBox_late (d : Dev) (f : Box → Box) : (d.modBox f).late = d.late := by simp only [Dev.modBox]
@[simp] theorem Dev.modBox_owed (d : Dev) (f : Box → Box) : (d.modBox f).owed = d.owed := by simp only [Dev.modBox]
@[simp] theorem Dev.modBox_answers (d : Dev) (f : Box → Box) : (d.modBox f).answers = d.answers := by simp only [Dev.modBox]
@[simp] theorem Dev.modBox_free (d : Dev) (f : Box → Box) : (d.modBox f).free = d.free := by simp only [Dev.modBox]

/-! ### `Dev.modPwr` -/

@[simp] theorem Dev.modPwr_mem (d : Dev) (f : Power → Power) : (d.modPwr f).mem = d.mem := by simp only [Dev.modPwr]
@[simp] theorem Dev.modPwr_bays (d : Dev) (f : Power → Power) : (d.modPwr f).bays = d.bays := by simp only [Dev.modPwr]
@[simp] theorem Dev.modPwr_piers (d : Dev) (f : Power → Power) : (d.modPwr f).piers = d.piers := by simp only [Dev.modPwr]
@[simp] theorem Dev.modPwr_hbms (d : Dev) (f : Power → Power) : (d.modPwr f).hbms = d.hbms := by simp only [Dev.modPwr]
@[simp] theorem Dev.modPwr_integs (d : Dev) (f : Power → Power) : (d.modPwr f).integs = d.integs := by simp only [Dev.modPwr]
@[simp] theorem Dev.modPwr_links (d : Dev) (f : Power → Power) : (d.modPwr f).links = d.links := by simp only [Dev.modPwr]
@[simp] theorem Dev.modPwr_ports (d : Dev) (f : Power → Power) : (d.modPwr f).ports = d.ports := by simp only [Dev.modPwr]
@[simp] theorem Dev.modPwr_parts (d : Dev) (f : Power → Power) : (d.modPwr f).parts = d.parts := by simp only [Dev.modPwr]
@[simp] theorem Dev.modPwr_fab (d : Dev) (f : Power → Power) : (d.modPwr f).fab = d.fab := by simp only [Dev.modPwr]
@[simp] theorem Dev.modPwr_hold (d : Dev) (f : Power → Power) : (d.modPwr f).hold = d.hold := by simp only [Dev.modPwr]
@[simp] theorem Dev.modPwr_colls (d : Dev) (f : Power → Power) : (d.modPwr f).colls = d.colls := by simp only [Dev.modPwr]
@[simp] theorem Dev.modPwr_box (d : Dev) (f : Power → Power) : (d.modPwr f).box = d.box := by simp only [Dev.modPwr]
@[simp] theorem Dev.modPwr_bond (d : Dev) (f : Power → Power) : (d.modPwr f).bond = d.bond := by simp only [Dev.modPwr]
@[simp] theorem Dev.modPwr_step (d : Dev) (f : Power → Power) : (d.modPwr f).step = d.step := by simp only [Dev.modPwr]
@[simp] theorem Dev.modPwr_stepPend (d : Dev) (f : Power → Power) : (d.modPwr f).stepPend = d.stepPend := by simp only [Dev.modPwr]
@[simp] theorem Dev.modPwr_stepSent (d : Dev) (f : Power → Power) : (d.modPwr f).stepSent = d.stepSent := by simp only [Dev.modPwr]
@[simp] theorem Dev.modPwr_shift (d : Dev) (f : Power → Power) : (d.modPwr f).shift = d.shift := by simp only [Dev.modPwr]
@[simp] theorem Dev.modPwr_maint (d : Dev) (f : Power → Power) : (d.modPwr f).maint = d.maint := by simp only [Dev.modPwr]
@[simp] theorem Dev.modPwr_timeOut (d : Dev) (f : Power → Power) : (d.modPwr f).timeOut = d.timeOut := by simp only [Dev.modPwr]
@[simp] theorem Dev.modPwr_evSeq (d : Dev) (f : Power → Power) : (d.modPwr f).evSeq = d.evSeq := by simp only [Dev.modPwr]
@[simp] theorem Dev.modPwr_records (d : Dev) (f : Power → Power) : (d.modPwr f).records = d.records := by simp only [Dev.modPwr]
@[simp] theorem Dev.modPwr_pend (d : Dev) (f : Power → Power) : (d.modPwr f).pend = d.pend := by simp only [Dev.modPwr]
@[simp] theorem Dev.modPwr_held (d : Dev) (f : Power → Power) : (d.modPwr f).held = d.held := by simp only [Dev.modPwr]
@[simp] theorem Dev.modPwr_nextJob (d : Dev) (f : Power → Power) : (d.modPwr f).nextJob = d.nextJob := by simp only [Dev.modPwr]
@[simp] theorem Dev.modPwr_stall (d : Dev) (f : Power → Power) : (d.modPwr f).stall = d.stall := by simp only [Dev.modPwr]
@[simp] theorem Dev.modPwr_late (d : Dev) (f : Power → Power) : (d.modPwr f).late = d.late := by simp only [Dev.modPwr]
@[simp] theorem Dev.modPwr_owed (d : Dev) (f : Power → Power) : (d.modPwr f).owed = d.owed := by simp only [Dev.modPwr]
@[simp] theorem Dev.modPwr_answers (d : Dev) (f : Power → Power) : (d.modPwr f).answers = d.answers := by simp only [Dev.modPwr]
@[simp] theorem Dev.modPwr_free (d : Dev) (f : Power → Power) : (d.modPwr f).free = d.free := by simp only [Dev.modPwr]

/-! ### `Dev.modMem` -/

@[simp] theorem Dev.modMem_bays (d : Dev) (f : Memory → Memory) : (d.modMem f).bays = d.bays := by simp only [Dev.modMem]
@[simp] theorem Dev.modMem_piers (d : Dev) (f : Memory → Memory) : (d.modMem f).piers = d.piers := by simp only [Dev.modMem]
@[simp] theorem Dev.modMem_hbms (d : Dev) (f : Memory → Memory) : (d.modMem f).hbms = d.hbms := by simp only [Dev.modMem]
@[simp] theorem Dev.modMem_integs (d : Dev) (f : Memory → Memory) : (d.modMem f).integs = d.integs := by simp only [Dev.modMem]
@[simp] theorem Dev.modMem_links (d : Dev) (f : Memory → Memory) : (d.modMem f).links = d.links := by simp only [Dev.modMem]
@[simp] theorem Dev.modMem_ports (d : Dev) (f : Memory → Memory) : (d.modMem f).ports = d.ports := by simp only [Dev.modMem]
@[simp] theorem Dev.modMem_parts (d : Dev) (f : Memory → Memory) : (d.modMem f).parts = d.parts := by simp only [Dev.modMem]
@[simp] theorem Dev.modMem_fab (d : Dev) (f : Memory → Memory) : (d.modMem f).fab = d.fab := by simp only [Dev.modMem]
@[simp] theorem Dev.modMem_hold (d : Dev) (f : Memory → Memory) : (d.modMem f).hold = d.hold := by simp only [Dev.modMem]
@[simp] theorem Dev.modMem_colls (d : Dev) (f : Memory → Memory) : (d.modMem f).colls = d.colls := by simp only [Dev.modMem]
@[simp] theorem Dev.modMem_box (d : Dev) (f : Memory → Memory) : (d.modMem f).box = d.box := by simp only [Dev.modMem]
@[simp] theorem Dev.modMem_bond (d : Dev) (f : Memory → Memory) : (d.modMem f).bond = d.bond := by simp only [Dev.modMem]
@[simp] theorem Dev.modMem_pwr (d : Dev) (f : Memory → Memory) : (d.modMem f).pwr = d.pwr := by simp only [Dev.modMem]
@[simp] theorem Dev.modMem_step (d : Dev) (f : Memory → Memory) : (d.modMem f).step = d.step := by simp only [Dev.modMem]
@[simp] theorem Dev.modMem_stepPend (d : Dev) (f : Memory → Memory) : (d.modMem f).stepPend = d.stepPend := by simp only [Dev.modMem]
@[simp] theorem Dev.modMem_stepSent (d : Dev) (f : Memory → Memory) : (d.modMem f).stepSent = d.stepSent := by simp only [Dev.modMem]
@[simp] theorem Dev.modMem_shift (d : Dev) (f : Memory → Memory) : (d.modMem f).shift = d.shift := by simp only [Dev.modMem]
@[simp] theorem Dev.modMem_maint (d : Dev) (f : Memory → Memory) : (d.modMem f).maint = d.maint := by simp only [Dev.modMem]
@[simp] theorem Dev.modMem_timeOut (d : Dev) (f : Memory → Memory) : (d.modMem f).timeOut = d.timeOut := by simp only [Dev.modMem]
@[simp] theorem Dev.modMem_evSeq (d : Dev) (f : Memory → Memory) : (d.modMem f).evSeq = d.evSeq := by simp only [Dev.modMem]
@[simp] theorem Dev.modMem_records (d : Dev) (f : Memory → Memory) : (d.modMem f).records = d.records := by simp only [Dev.modMem]
@[simp] theorem Dev.modMem_pend (d : Dev) (f : Memory → Memory) : (d.modMem f).pend = d.pend := by simp only [Dev.modMem]
@[simp] theorem Dev.modMem_held (d : Dev) (f : Memory → Memory) : (d.modMem f).held = d.held := by simp only [Dev.modMem]
@[simp] theorem Dev.modMem_nextJob (d : Dev) (f : Memory → Memory) : (d.modMem f).nextJob = d.nextJob := by simp only [Dev.modMem]
@[simp] theorem Dev.modMem_stall (d : Dev) (f : Memory → Memory) : (d.modMem f).stall = d.stall := by simp only [Dev.modMem]
@[simp] theorem Dev.modMem_late (d : Dev) (f : Memory → Memory) : (d.modMem f).late = d.late := by simp only [Dev.modMem]
@[simp] theorem Dev.modMem_owed (d : Dev) (f : Memory → Memory) : (d.modMem f).owed = d.owed := by simp only [Dev.modMem]
@[simp] theorem Dev.modMem_answers (d : Dev) (f : Memory → Memory) : (d.modMem f).answers = d.answers := by simp only [Dev.modMem]
@[simp] theorem Dev.modMem_free (d : Dev) (f : Memory → Memory) : (d.modMem f).free = d.free := by simp only [Dev.modMem]

/-! ### Reading a part back -/

theorem Dev.bay_modBay (d : Dev) {b : Nat} (h : b < 64) (f : Bay → Bay) : (d.modBay b f).bay b = f (d.bay b) := by
  simp only [Dev.bay, Dev.modBay]; exact vget_vmod_same _ _ h f
theorem Dev.bay_modBay_ne (d : Dev) {b j : Nat} (h : j ≠ b) (f : Bay → Bay) : (d.modBay b f).bay j = d.bay j := by
  simp only [Dev.bay, Dev.modBay]; exact vget_vmod_ne _ _ h f
theorem Dev.pier_modPier (d : Dev) {p : Nat} (h : p < 4) (f : Pier → Pier) : (d.modPier p f).pier p = f (d.pier p) := by
  simp only [Dev.pier, Dev.modPier]; exact vget_vmod_same _ _ h f
theorem Dev.pier_modPier_ne (d : Dev) {p j : Nat} (h : j ≠ p) (f : Pier → Pier) : (d.modPier p f).pier j = d.pier j := by
  simp only [Dev.pier, Dev.modPier]; exact vget_vmod_ne _ _ h f
theorem Dev.stack_modStack (d : Dev) {k : Nat} (h : k < 12) (f : Stack → Stack) : (d.modStack k f).stack k = f (d.stack k) := by
  simp only [Dev.stack, Dev.modStack]; exact vget_vmod_same _ _ h f
theorem Dev.stack_modStack_ne (d : Dev) {k j : Nat} (h : j ≠ k) (f : Stack → Stack) : (d.modStack k f).stack j = d.stack j := by
  simp only [Dev.stack, Dev.modStack]; exact vget_vmod_ne _ _ h f
theorem Dev.integ_modInteg (d : Dev) {i : Nat} (h : i < 80) (f : Integ → Integ) : (d.modInteg i f).integ i = f (d.integ i) := by
  simp only [Dev.integ, Dev.modInteg]; exact vget_vmod_same _ _ h f
theorem Dev.integ_modInteg_ne (d : Dev) {i j : Nat} (h : j ≠ i) (f : Integ → Integ) : (d.modInteg i f).integ j = d.integ j := by
  simp only [Dev.integ, Dev.modInteg]; exact vget_vmod_ne _ _ h f
theorem Dev.link_modLink (d : Dev) {l : Nat} (h : l < 32) (f : Link → Link) : (d.modLink l f).link l = f (d.link l) := by
  simp only [Dev.link, Dev.modLink]; exact vget_vmod_same _ _ h f
theorem Dev.link_modLink_ne (d : Dev) {l j : Nat} (h : j ≠ l) (f : Link → Link) : (d.modLink l f).link j = d.link j := by
  simp only [Dev.link, Dev.modLink]; exact vget_vmod_ne _ _ h f
theorem Dev.portOf_modPort (d : Dev) {v : Nat} (h : v < 4) (f : Port → Port) : (d.modPort v f).portOf v = f (d.portOf v) := by
  simp only [Dev.portOf, Dev.modPort]; exact vget_vmod_same _ _ h f
theorem Dev.portOf_modPort_ne (d : Dev) {v j : Nat} (h : j ≠ v) (f : Port → Port) : (d.modPort v f).portOf j = d.portOf j := by
  simp only [Dev.portOf, Dev.modPort]; exact vget_vmod_ne _ _ h f
theorem Dev.part_modPart (d : Dev) {q : Nat} (h : q < 16) (f : Part → Part) : (d.modPart q f).part q = f (d.part q) := by
  simp only [Dev.part, Dev.modPart]; exact vget_vmod_same _ _ h f
theorem Dev.part_modPart_ne (d : Dev) {q j : Nat} (h : j ≠ q) (f : Part → Part) : (d.modPart q f).part j = d.part j := by
  simp only [Dev.part, Dev.modPart]; exact vget_vmod_ne _ _ h f
@[simp] theorem Dev.bay_modPier (d : Dev) (x y : Nat) (f : Pier → Pier) : (d.modPier x f).bay y = d.bay y := by simp only [Dev.bay, Dev.modPier]
@[simp] theorem Dev.bay_modStack (d : Dev) (x y : Nat) (f : Stack → Stack) : (d.modStack x f).bay y = d.bay y := by simp only [Dev.bay, Dev.modStack]
@[simp] theorem Dev.bay_modInteg (d : Dev) (x y : Nat) (f : Integ → Integ) : (d.modInteg x f).bay y = d.bay y := by simp only [Dev.bay, Dev.modInteg]
@[simp] theorem Dev.bay_modLink (d : Dev) (x y : Nat) (f : Link → Link) : (d.modLink x f).bay y = d.bay y := by simp only [Dev.bay, Dev.modLink]
@[simp] theorem Dev.bay_modPort (d : Dev) (x y : Nat) (f : Port → Port) : (d.modPort x f).bay y = d.bay y := by simp only [Dev.bay, Dev.modPort]
@[simp] theorem Dev.bay_modPart (d : Dev) (x y : Nat) (f : Part → Part) : (d.modPart x f).bay y = d.bay y := by simp only [Dev.bay, Dev.modPart]
@[simp] theorem Dev.bay_modBox (d : Dev) (y : Nat) (f : Box → Box) : (d.modBox f).bay y = d.bay y := by simp only [Dev.bay, Dev.modBox]
@[simp] theorem Dev.bay_modPwr (d : Dev) (y : Nat) (f : Power → Power) : (d.modPwr f).bay y = d.bay y := by simp only [Dev.bay, Dev.modPwr]
@[simp] theorem Dev.bay_modMem (d : Dev) (y : Nat) (f : Memory → Memory) : (d.modMem f).bay y = d.bay y := by simp only [Dev.bay, Dev.modMem]
@[simp] theorem Dev.pier_modBay (d : Dev) (x y : Nat) (f : Bay → Bay) : (d.modBay x f).pier y = d.pier y := by simp only [Dev.pier, Dev.modBay]
@[simp] theorem Dev.pier_modStack (d : Dev) (x y : Nat) (f : Stack → Stack) : (d.modStack x f).pier y = d.pier y := by simp only [Dev.pier, Dev.modStack]
@[simp] theorem Dev.pier_modInteg (d : Dev) (x y : Nat) (f : Integ → Integ) : (d.modInteg x f).pier y = d.pier y := by simp only [Dev.pier, Dev.modInteg]
@[simp] theorem Dev.pier_modLink (d : Dev) (x y : Nat) (f : Link → Link) : (d.modLink x f).pier y = d.pier y := by simp only [Dev.pier, Dev.modLink]
@[simp] theorem Dev.pier_modPort (d : Dev) (x y : Nat) (f : Port → Port) : (d.modPort x f).pier y = d.pier y := by simp only [Dev.pier, Dev.modPort]
@[simp] theorem Dev.pier_modPart (d : Dev) (x y : Nat) (f : Part → Part) : (d.modPart x f).pier y = d.pier y := by simp only [Dev.pier, Dev.modPart]
@[simp] theorem Dev.pier_modBox (d : Dev) (y : Nat) (f : Box → Box) : (d.modBox f).pier y = d.pier y := by simp only [Dev.pier, Dev.modBox]
@[simp] theorem Dev.pier_modPwr (d : Dev) (y : Nat) (f : Power → Power) : (d.modPwr f).pier y = d.pier y := by simp only [Dev.pier, Dev.modPwr]
@[simp] theorem Dev.pier_modMem (d : Dev) (y : Nat) (f : Memory → Memory) : (d.modMem f).pier y = d.pier y := by simp only [Dev.pier, Dev.modMem]
@[simp] theorem Dev.pier_modStream (d : Dev) (b i y : Nat) (f : Stream → Stream) : (d.modStream b i f).pier y = d.pier y := by simp only [Dev.pier, Dev.modStream, Dev.modBay]
@[simp] theorem Dev.stack_modBay (d : Dev) (x y : Nat) (f : Bay → Bay) : (d.modBay x f).stack y = d.stack y := by simp only [Dev.stack, Dev.modBay]
@[simp] theorem Dev.stack_modPier (d : Dev) (x y : Nat) (f : Pier → Pier) : (d.modPier x f).stack y = d.stack y := by simp only [Dev.stack, Dev.modPier]
@[simp] theorem Dev.stack_modInteg (d : Dev) (x y : Nat) (f : Integ → Integ) : (d.modInteg x f).stack y = d.stack y := by simp only [Dev.stack, Dev.modInteg]
@[simp] theorem Dev.stack_modLink (d : Dev) (x y : Nat) (f : Link → Link) : (d.modLink x f).stack y = d.stack y := by simp only [Dev.stack, Dev.modLink]
@[simp] theorem Dev.stack_modPort (d : Dev) (x y : Nat) (f : Port → Port) : (d.modPort x f).stack y = d.stack y := by simp only [Dev.stack, Dev.modPort]
@[simp] theorem Dev.stack_modPart (d : Dev) (x y : Nat) (f : Part → Part) : (d.modPart x f).stack y = d.stack y := by simp only [Dev.stack, Dev.modPart]
@[simp] theorem Dev.stack_modBox (d : Dev) (y : Nat) (f : Box → Box) : (d.modBox f).stack y = d.stack y := by simp only [Dev.stack, Dev.modBox]
@[simp] theorem Dev.stack_modPwr (d : Dev) (y : Nat) (f : Power → Power) : (d.modPwr f).stack y = d.stack y := by simp only [Dev.stack, Dev.modPwr]
@[simp] theorem Dev.stack_modMem (d : Dev) (y : Nat) (f : Memory → Memory) : (d.modMem f).stack y = d.stack y := by simp only [Dev.stack, Dev.modMem]
@[simp] theorem Dev.stack_modStream (d : Dev) (b i y : Nat) (f : Stream → Stream) : (d.modStream b i f).stack y = d.stack y := by simp only [Dev.stack, Dev.modStream, Dev.modBay]
@[simp] theorem Dev.integ_modBay (d : Dev) (x y : Nat) (f : Bay → Bay) : (d.modBay x f).integ y = d.integ y := by simp only [Dev.integ, Dev.modBay]
@[simp] theorem Dev.integ_modPier (d : Dev) (x y : Nat) (f : Pier → Pier) : (d.modPier x f).integ y = d.integ y := by simp only [Dev.integ, Dev.modPier]
@[simp] theorem Dev.integ_modStack (d : Dev) (x y : Nat) (f : Stack → Stack) : (d.modStack x f).integ y = d.integ y := by simp only [Dev.integ, Dev.modStack]
@[simp] theorem Dev.integ_modLink (d : Dev) (x y : Nat) (f : Link → Link) : (d.modLink x f).integ y = d.integ y := by simp only [Dev.integ, Dev.modLink]
@[simp] theorem Dev.integ_modPort (d : Dev) (x y : Nat) (f : Port → Port) : (d.modPort x f).integ y = d.integ y := by simp only [Dev.integ, Dev.modPort]
@[simp] theorem Dev.integ_modPart (d : Dev) (x y : Nat) (f : Part → Part) : (d.modPart x f).integ y = d.integ y := by simp only [Dev.integ, Dev.modPart]
@[simp] theorem Dev.integ_modBox (d : Dev) (y : Nat) (f : Box → Box) : (d.modBox f).integ y = d.integ y := by simp only [Dev.integ, Dev.modBox]
@[simp] theorem Dev.integ_modPwr (d : Dev) (y : Nat) (f : Power → Power) : (d.modPwr f).integ y = d.integ y := by simp only [Dev.integ, Dev.modPwr]
@[simp] theorem Dev.integ_modMem (d : Dev) (y : Nat) (f : Memory → Memory) : (d.modMem f).integ y = d.integ y := by simp only [Dev.integ, Dev.modMem]
@[simp] theorem Dev.integ_modStream (d : Dev) (b i y : Nat) (f : Stream → Stream) : (d.modStream b i f).integ y = d.integ y := by simp only [Dev.integ, Dev.modStream, Dev.modBay]
@[simp] theorem Dev.link_modBay (d : Dev) (x y : Nat) (f : Bay → Bay) : (d.modBay x f).link y = d.link y := by simp only [Dev.link, Dev.modBay]
@[simp] theorem Dev.link_modPier (d : Dev) (x y : Nat) (f : Pier → Pier) : (d.modPier x f).link y = d.link y := by simp only [Dev.link, Dev.modPier]
@[simp] theorem Dev.link_modStack (d : Dev) (x y : Nat) (f : Stack → Stack) : (d.modStack x f).link y = d.link y := by simp only [Dev.link, Dev.modStack]
@[simp] theorem Dev.link_modInteg (d : Dev) (x y : Nat) (f : Integ → Integ) : (d.modInteg x f).link y = d.link y := by simp only [Dev.link, Dev.modInteg]
@[simp] theorem Dev.link_modPort (d : Dev) (x y : Nat) (f : Port → Port) : (d.modPort x f).link y = d.link y := by simp only [Dev.link, Dev.modPort]
@[simp] theorem Dev.link_modPart (d : Dev) (x y : Nat) (f : Part → Part) : (d.modPart x f).link y = d.link y := by simp only [Dev.link, Dev.modPart]
@[simp] theorem Dev.link_modBox (d : Dev) (y : Nat) (f : Box → Box) : (d.modBox f).link y = d.link y := by simp only [Dev.link, Dev.modBox]
@[simp] theorem Dev.link_modPwr (d : Dev) (y : Nat) (f : Power → Power) : (d.modPwr f).link y = d.link y := by simp only [Dev.link, Dev.modPwr]
@[simp] theorem Dev.link_modMem (d : Dev) (y : Nat) (f : Memory → Memory) : (d.modMem f).link y = d.link y := by simp only [Dev.link, Dev.modMem]
@[simp] theorem Dev.link_modStream (d : Dev) (b i y : Nat) (f : Stream → Stream) : (d.modStream b i f).link y = d.link y := by simp only [Dev.link, Dev.modStream, Dev.modBay]
@[simp] theorem Dev.portOf_modBay (d : Dev) (x y : Nat) (f : Bay → Bay) : (d.modBay x f).portOf y = d.portOf y := by simp only [Dev.portOf, Dev.modBay]
@[simp] theorem Dev.portOf_modPier (d : Dev) (x y : Nat) (f : Pier → Pier) : (d.modPier x f).portOf y = d.portOf y := by simp only [Dev.portOf, Dev.modPier]
@[simp] theorem Dev.portOf_modStack (d : Dev) (x y : Nat) (f : Stack → Stack) : (d.modStack x f).portOf y = d.portOf y := by simp only [Dev.portOf, Dev.modStack]
@[simp] theorem Dev.portOf_modInteg (d : Dev) (x y : Nat) (f : Integ → Integ) : (d.modInteg x f).portOf y = d.portOf y := by simp only [Dev.portOf, Dev.modInteg]
@[simp] theorem Dev.portOf_modLink (d : Dev) (x y : Nat) (f : Link → Link) : (d.modLink x f).portOf y = d.portOf y := by simp only [Dev.portOf, Dev.modLink]
@[simp] theorem Dev.portOf_modPart (d : Dev) (x y : Nat) (f : Part → Part) : (d.modPart x f).portOf y = d.portOf y := by simp only [Dev.portOf, Dev.modPart]
@[simp] theorem Dev.portOf_modBox (d : Dev) (y : Nat) (f : Box → Box) : (d.modBox f).portOf y = d.portOf y := by simp only [Dev.portOf, Dev.modBox]
@[simp] theorem Dev.portOf_modPwr (d : Dev) (y : Nat) (f : Power → Power) : (d.modPwr f).portOf y = d.portOf y := by simp only [Dev.portOf, Dev.modPwr]
@[simp] theorem Dev.portOf_modMem (d : Dev) (y : Nat) (f : Memory → Memory) : (d.modMem f).portOf y = d.portOf y := by simp only [Dev.portOf, Dev.modMem]
@[simp] theorem Dev.portOf_modStream (d : Dev) (b i y : Nat) (f : Stream → Stream) : (d.modStream b i f).portOf y = d.portOf y := by simp only [Dev.portOf, Dev.modStream, Dev.modBay]
@[simp] theorem Dev.part_modBay (d : Dev) (x y : Nat) (f : Bay → Bay) : (d.modBay x f).part y = d.part y := by simp only [Dev.part, Dev.modBay]
@[simp] theorem Dev.part_modPier (d : Dev) (x y : Nat) (f : Pier → Pier) : (d.modPier x f).part y = d.part y := by simp only [Dev.part, Dev.modPier]
@[simp] theorem Dev.part_modStack (d : Dev) (x y : Nat) (f : Stack → Stack) : (d.modStack x f).part y = d.part y := by simp only [Dev.part, Dev.modStack]
@[simp] theorem Dev.part_modInteg (d : Dev) (x y : Nat) (f : Integ → Integ) : (d.modInteg x f).part y = d.part y := by simp only [Dev.part, Dev.modInteg]
@[simp] theorem Dev.part_modLink (d : Dev) (x y : Nat) (f : Link → Link) : (d.modLink x f).part y = d.part y := by simp only [Dev.part, Dev.modLink]
@[simp] theorem Dev.part_modPort (d : Dev) (x y : Nat) (f : Port → Port) : (d.modPort x f).part y = d.part y := by simp only [Dev.part, Dev.modPort]
@[simp] theorem Dev.part_modBox (d : Dev) (y : Nat) (f : Box → Box) : (d.modBox f).part y = d.part y := by simp only [Dev.part, Dev.modBox]
@[simp] theorem Dev.part_modPwr (d : Dev) (y : Nat) (f : Power → Power) : (d.modPwr f).part y = d.part y := by simp only [Dev.part, Dev.modPwr]
@[simp] theorem Dev.part_modMem (d : Dev) (y : Nat) (f : Memory → Memory) : (d.modMem f).part y = d.part y := by simp only [Dev.part, Dev.modMem]
@[simp] theorem Dev.part_modStream (d : Dev) (b i y : Nat) (f : Stream → Stream) : (d.modStream b i f).part y = d.part y := by simp only [Dev.part, Dev.modStream, Dev.modBay]
@[simp] theorem Dev.stream_modPier (d : Dev) (x b i : Nat) (f : Pier → Pier) : (d.modPier x f).stream b i = d.stream b i := by simp only [Dev.stream, Dev.bay, Dev.modPier]
@[simp] theorem Dev.stream_modStack (d : Dev) (x b i : Nat) (f : Stack → Stack) : (d.modStack x f).stream b i = d.stream b i := by simp only [Dev.stream, Dev.bay, Dev.modStack]
@[simp] theorem Dev.stream_modInteg (d : Dev) (x b i : Nat) (f : Integ → Integ) : (d.modInteg x f).stream b i = d.stream b i := by simp only [Dev.stream, Dev.bay, Dev.modInteg]
@[simp] theorem Dev.stream_modLink (d : Dev) (x b i : Nat) (f : Link → Link) : (d.modLink x f).stream b i = d.stream b i := by simp only [Dev.stream, Dev.bay, Dev.modLink]
@[simp] theorem Dev.stream_modPort (d : Dev) (x b i : Nat) (f : Port → Port) : (d.modPort x f).stream b i = d.stream b i := by simp only [Dev.stream, Dev.bay, Dev.modPort]
@[simp] theorem Dev.stream_modPart (d : Dev) (x b i : Nat) (f : Part → Part) : (d.modPart x f).stream b i = d.stream b i := by simp only [Dev.stream, Dev.bay, Dev.modPart]
@[simp] theorem Dev.stream_modBox (d : Dev) (b i : Nat) (f : Box → Box) : (d.modBox f).stream b i = d.stream b i := by simp only [Dev.stream, Dev.bay, Dev.modBox]
@[simp] theorem Dev.stream_modPwr (d : Dev) (b i : Nat) (f : Power → Power) : (d.modPwr f).stream b i = d.stream b i := by simp only [Dev.stream, Dev.bay, Dev.modPwr]
@[simp] theorem Dev.stream_modMem (d : Dev) (b i : Nat) (f : Memory → Memory) : (d.modMem f).stream b i = d.stream b i := by simp only [Dev.stream, Dev.bay, Dev.modMem]

/-- A stream after a change of that stream. -/
theorem Dev.stream_modStream (d : Dev) {b i : Nat} (hb : b < 64) (hi : i < 3) (f : Stream → Stream) :
    (d.modStream b i f).stream b i = f (d.stream b i) := by
  simp only [Dev.stream, Dev.modStream, Dev.bay_modBay d hb, Bay.stream]
  exact vget_vmod_same _ _ hi f

/-- A stream after a change of another one. -/
theorem Dev.stream_modStream_ne (d : Dev) {b i c j : Nat} (h : c ≠ b ∨ j ≠ i) (f : Stream → Stream) :
    (d.modStream b i f).stream c j = d.stream c j := by
  by_cases hb : c = b
  · subst hb
    by_cases h64 : c < 64
    · simp only [Dev.stream, Dev.modStream, Dev.bay_modBay d h64, Bay.stream]
      exact vget_vmod_ne _ _ (by omega) f
    · simp only [Dev.stream, Dev.bay, Dev.modStream, Dev.modBay, vget_beyond _ _ (by omega : 64 ≤ c)]
  · simp only [Dev.stream, Dev.modStream, Dev.bay_modBay_ne d hb]

/-- A stream after a change of its bay that keeps the bay's streams. -/
theorem Dev.stream_modBay (d : Dev) {b : Nat} (c i : Nat) (f : Bay → Bay) (h : ∀ y, (f y).streams = y.streams) :
    (d.modBay b f).stream c i = d.stream c i := by
  by_cases hb : c = b
  · subst hb
    by_cases h64 : c < 64
    · simp only [Dev.stream, Dev.bay_modBay d h64, Bay.stream, h]
    · simp only [Dev.stream, Dev.bay, Dev.modBay, vget_beyond _ _ (by omega : 64 ≤ c)]
  · simp only [Dev.stream, Dev.bay_modBay_ne d hb]

/-! ### The lifts -/

@[simp] theorem State.withDev_dev (s : State) (d : Dev) : (s.withDev d).dev = d := rfl
@[simp] theorem State.withDev_time (s : State) (d : Dev) : (s.withDev d).time = s.time := rfl
@[simp] theorem State.withDev_pending (s : State) (d : Dev) : (s.withDev d).pending = s.pending := rfl
@[simp] theorem State.withTime_dev (s : State) (t : TimeUnit) : (s.withTime t).dev = s.dev := rfl
@[simp] theorem State.withTime_time (s : State) (t : TimeUnit) : (s.withTime t).time = t := rfl
@[simp] theorem State.withTime_pending (s : State) (t : TimeUnit) : (s.withTime t).pending = s.pending := rfl

end Sys2Proof.Machine
end

