-- ==== Sys2Proof/Laws/Commands.lean ====
section
/-! SUPPORT. What the shared operations do, said once: issue, the units' acceptance, link service, register writes. -/

namespace Sys2Proof.Machine

/-! ### Issue (R74, R78, R81, R96) -/

/-- An instruction that a stream presents is handed to the command that stands for it. -/
theorem issue_presents {t : TimeUnit} {d : Dev} {b i : Nat} {word : W128} {mine : Nat → Bool} {body : Issue → Dev → Dev}
    (h : d.presents b i word = true) (hm : mine word.toNat = true) :
    d.issue t b i mine body = body (d.issued b i word) d := by
  simp only [Dev.presents, Bool.and_eq_true] at h
  obtain ⟨⟨⟨⟨⟨hc, hf⟩, hb⟩, hk⟩, hw⟩, hr⟩ := h
  split at hb
  · rename_i k hfind
    simp only [Bool.and_eq_true, beq_iff_eq, Bool.not_eq_true'] at hb
    obtain ⟨hbytes, hpoison⟩ := hb
    simp only [Option.isNone_iff_eq_none] at hr
    simp [Dev.issue, Dev.fetchLine, Stream.lineNow, FetchLine.pick, hc, hf, hfind, hpoison, hbytes, hk, hm, hw, hr, Dev.issued]
  · simp at hb

/-- A stream that may not issue leaves the device as it is. -/
theorem issue_not {t : TimeUnit} {d : Dev} {b i : Nat} {mine : Nat → Bool} {body : Issue → Dev → Dev}
    (h : d.canIssue b i = false) : d.issue t b i mine body = d := by
  simp [Dev.issue, h]

/-- A unit that takes an instruction queues it and has its effect. -/
theorem unitStart_takes {t : TimeUnit} {d : Dev} {j : Issue} {los : List Nat} {fault : Option FaultInfo}
    {start effect : Flight → Dev → Dev} (h : d.takes t j los fault = true) :
    d.unitStart t j los fault start effect = d.taken t j los start effect := by
  simp only [Dev.takes, Bool.and_eq_true, Option.isNone_iff_eq_none] at h
  obtain ⟨⟨⟨⟨h1, h2⟩, h3⟩, h4⟩, h5⟩ := h
  simp [Dev.unitStart, h1, h2, h3, h4, h5, Dev.taken]

/-- A unit that is busy makes the stream wait. -/
theorem unitStart_busy {t : TimeUnit} {d : Dev} {j : Issue} {los : List Nat} {fault : Option FaultInfo}
    {start effect : Flight → Dev → Dev} (h0 : j.redo = none)
    (h : ((d.bay j.b).boardOk (tileReads j.w) (tileWrites j.w) && (d.bay j.b).queueOk ((queueOf (opc j.w)).getD 0)) = false) :
    d.unitStart t j los fault start effect = d.blockUnit j.b j.s := by
  rw [Bool.and_eq_false_iff] at h
  have h' : ((!(d.bay j.b).boardOk (tileReads j.w) (tileWrites j.w)) = true) ∨
      ((!(d.bay j.b).queueOk ((queueOf (opc j.w)).getD 0)) = true) := by
    rcases h with h | h <;> simp [h]
  simp only [Dev.unitStart, h0]
  rw [if_pos h']

/-- A job whose effect makes no request wait has its effect whole, with the records that it owes. -/
theorem attempt_done {t : TimeUnit} {w : Await} {effect : Await → Dev → Dev} {d d' : Dev} (hw : w.due ≤ t.now)
    (h : (effect w { d with stall := [], late := 0 }).flushOwed t = d') (hs : d'.stall = []) (hl : d'.late ≤ t.now) :
    d.attempt t w effect = (none, { d' with stall := [], late := 0 }) := by
  have h1 : ¬t.now < w.due := by omega
  have h2 : ¬t.now < d'.late := by omega
  simp [Dev.attempt, h1, h, hs, h2]

/-- A job that nothing makes wait is done. -/
theorem attempt_whole {t : TimeUnit} {w : Await} {effect : Await → Dev → Dev} {d : Dev} (h : d.whole t w (effect w) = true) :
    d.attempt t w effect = (none, d.had t (effect w)) := by
  simp only [Dev.whole, Bool.and_eq_true, decide_eq_true_eq, List.isEmpty_iff] at h
  exact attempt_done h.1.1 rfl h.1.2 h.2

/-! ### Advancing (R76, R79) -/

theorem stream_advance (d : Dev) {b i : Nat} (hb : b < 64) (hi : i < 3) :
    (d.advance b i).stream b i = { d.stream b i with state := .run, iptr := (d.stream b i).iptr + 1 } := by
  unfold Dev.advance
  rw [Dev.stream_modBay, Dev.stream_modStream d hb hi]
  exact fun _ => rfl

theorem stream_advance_ne (d : Dev) {b i c j : Nat} (h : c ≠ b ∨ j ≠ i) : (d.advance b i).stream c j = d.stream c j := by
  unfold Dev.advance
  rw [Dev.stream_modBay, Dev.stream_modStream_ne d h]
  exact fun _ => rfl

@[simp] theorem advance_mem (d : Dev) (b i : Nat) : (d.advance b i).mem = d.mem := by simp [Dev.advance]
@[simp] theorem advance_parts (d : Dev) (b i : Nat) : (d.advance b i).parts = d.parts := by simp [Dev.advance]
@[simp] theorem advance_records (d : Dev) (b i : Nat) : (d.advance b i).records = d.records := by simp [Dev.advance]
@[simp] theorem advance_answers (d : Dev) (b i : Nat) : (d.advance b i).answers = d.answers := by simp [Dev.advance]

/-! ### Links (R373, R376) -/

/-- The next packet on a link is accepted and acted on. -/
theorem arrive_next {d : Dev} {l : Nat} {p : Packet} {types : Nat → Bool} {act : Dev → Dev} (h : d.nextOn l p = true)
    (ht : types p.typ.toNat = true) : d.arrive l p types act = act (d.received l p) := by
  simp only [Dev.nextOn, Bool.and_eq_true, beq_iff_eq, Bool.or_eq_true, decide_eq_true_eq, Bool.not_eq_true'] at h
  obtain ⟨⟨hu, hs⟩, hv⟩ := h
  have hv' : ¬(d.fab.valid = false ∧ 4 ≤ p.typ.toNat ∧ knownType p.typ.toNat = true) := by
    rintro ⟨h1, h2, h3⟩
    rcases hv with (hv | hv) | hv
    · simp [h1] at hv
    · omega
    · simp [hv] at h3
  simp [Dev.arrive, ht, hu, hs, hv', Dev.received]

/-! ### Register writes through BAR0 (R433) -/

theorem startRestores_settled {t : TimeUnit} {d : Dev} (h : d.settled = true) : d.startRestores t = d := by
  unfold Dev.startRestores
  have key : ∀ x ∈ (upTo 4).flatMap (fun p => (upTo 16).map (fun q => (p, q))),
      ¬(vget 0 (d.pier x.1).rstState x.2 = 1 ∧ (!(d.pier x.1).restores.any (fun r => r.part == x.2)) = true) := by
    intro x hx
    obtain ⟨p, hp, hx⟩ := List.mem_flatMap.mp hx
    obtain ⟨q, hq, rfl⟩ := List.mem_map.mp hx
    simp only [Dev.settled, Bool.and_eq_true, List.all_eq_true, bne_iff_ne] at h
    exact fun h1 => (h.2 p hp).2 q hq h1.1
  generalize (upTo 4).flatMap (fun p => (upTo 16).map (fun q => (p, q))) = l at key
  induction l with
  | nil => rfl
  | cons x rest ih =>
    rw [List.foldl_cons, if_neg (key x (by simp))]
    exact ih (fun y hy => key y (by simp [hy]))

/-- With nothing on the device that waits, nothing goes on. -/
theorem goOn_settled {t : TimeUnit} {d : Dev} (h : d.settled = true) : d.goOn t = d := by
  have hs : d.signerOn t = d := by
    have h1 : d.signerIdle = true := by
      simp only [Dev.settled, Bool.and_eq_true] at h
      exact h.1.2
    unfold Dev.signerOn
    split
    · next heq => simp [Dev.signerIdle, heq] at h1
    · next heq => simp [Dev.signerIdle, heq] at h1
    · rfl
  simp only [Dev.settled, Bool.and_eq_true, List.all_eq_true, List.isEmpty_iff] at h
  have hd : d.drainsOn t = d := by
    unfold Dev.drainsOn
    generalize hl : upTo 4 = l
    have key : ∀ p ∈ l, (d.pier p).drains = [] := fun p hp => (h.2 p (hl ▸ hp)).1.1
    clear hl
    induction l with
    | nil => rfl
    | cons p rest ih =>
      rw [List.foldl_cons, key p (by simp), List.foldl_nil]
      exact ih (fun x hx => key x (by simp [hx]))
  have hr : d.restoresOn t = d := by
    unfold Dev.restoresOn
    generalize hl : upTo 4 = l
    have key : ∀ p ∈ l, (d.pier p).restores = [] := fun p hp => (h.2 p (hl ▸ hp)).1.2
    clear hl
    induction l with
    | nil => rfl
    | cons p rest ih =>
      rw [List.foldl_cons, key p (by simp), List.foldl_nil]
      exact ih (fun x hx => key x (by simp [hx]))
  simp [Dev.goOn, Dev.pump, h.1.1, hd, hr, hs]

/-- After a write that leaves nothing to wait, nothing more follows. -/
theorem afterWrite_settled {t : TimeUnit} {d : Dev} (h : d.settled = true) : afterWrite (t, d) = (t, d) := by
  simp [afterWrite, startRestores_settled h, goOn_settled h]

/-- A write that reaches a register has the register's effect, and what it starts and lets go on. -/
theorem hostWrite_lets {t : TimeUnit} {d : Dev} {f : Func} {r : Reg} (v : Nat) (h : d.lets f r = true) :
    hostWrite f r v t d = afterWrite (d.hostPut (d.hostReq f) r (w64 v).toNat false t) := by
  simp only [Dev.lets, Bool.and_eq_true, decide_eq_true_eq] at h
  obtain ⟨⟨⟨⟨h1, h2⟩, h3⟩, h4⟩, h5⟩ := h
  have h4' : ¬2 ^ 32 ≤ regAddr r := by omega
  have h5' : ¬regAddr r < 0x100000 := by omega
  simp [hostWrite, hostAccess, bar0Access, h1, h2, h3, show ¬ 4294967296 ≤ regAddr r from h4', h5']

end Sys2Proof.Machine
end

