-- ==== Sys2Proof/Laws/Dispatch.lean ====
section
/-! SUPPORT. The dispatch of every command, as equations: `exec` of a constructor is its meaning, and each meaning is a
lift of an effect. -/

namespace Sys2Proof.Machine

variable (s : State)

theorem exec_nop (b : Fin 64) (i : Fin 3) : exec (.nop b i) s = execNop b i s := rfl
theorem exec_endStream (b : Fin 64) (i : Fin 3) : exec (.endStream b i) s = execEndStream b i s := rfl
theorem exec_depart (b : Fin 64) (i : Fin 3) : exec (.depart b i) s = execDepart b i s := rfl
theorem exec_departRelease (b : Fin 64) (i : Fin 3) : exec (.departRelease b i) s = execDepartRelease b i s := rfl
theorem exec_branchJump (b : Fin 64) (i : Fin 3) : exec (.branchJump b i) s = execBranchJump b i s := rfl
theorem exec_branchLoop (b : Fin 64) (i : Fin 3) : exec (.branchLoop b i) s = execBranchLoop b i s := rfl
theorem exec_branchSetCount (b : Fin 64) (i : Fin 3) : exec (.branchSetCount b i) s = execBranchSetCount b i s := rfl
theorem exec_branchStallEnd (b : Fin 64) (i : Fin 3) : exec (.branchStallEnd b i) s = execBranchStallEnd b i s := rfl
theorem exec_cfg (b : Fin 64) (i : Fin 3) : exec (.cfg b i) s = execCfg b i s := rfl
theorem exec_commit (b : Fin 64) (i : Fin 3) : exec (.commit b i) s = execCommit b i s := rfl
theorem exec_syncSet (b : Fin 64) (i : Fin 3) : exec (.syncSet b i) s = execSyncSet b i s := rfl
theorem exec_syncClear (b : Fin 64) (i : Fin 3) : exec (.syncClear b i) s = execSyncClear b i s := rfl
theorem exec_syncWait (b : Fin 64) (i : Fin 3) : exec (.syncWait b i) s = execSyncWait b i s := rfl
theorem exec_syncWaitClr (b : Fin 64) (i : Fin 3) : exec (.syncWaitClr b i) s = execSyncWaitClr b i s := rfl
theorem exec_syncWaitEnd (b : Fin 64) (i : Fin 3) : exec (.syncWaitEnd b i) s = execSyncWaitEnd b i s := rfl
theorem exec_syncRset (b : Fin 64) (i : Fin 3) : exec (.syncRset b i) s = execSyncRset b i s := rfl
theorem exec_rsetArrival (b : Fin 64) (token : Fin 64) : exec (.rsetArrival b token) s = execRsetArrival b token s := rfl
theorem exec_dload (b : Fin 64) (i : Fin 3) : exec (.dload b i) s = execDload b i s := rfl
theorem exec_move (b : Fin 64) (i : Fin 3) : exec (.move b i) s = execMove b i s := rfl
theorem exec_mload (b : Fin 64) (i : Fin 3) : exec (.mload b i) s = execMload b i s := rfl
theorem exec_stationarySwap (b : Fin 64) (stall : Nat) : exec (.stationarySwap b stall) s = execStationarySwap b stall s := rfl
theorem exec_mmul (b : Fin 64) (i : Fin 3) (dry : Nat) (full : Nat) (wait : Nat) : exec (.mmul b i dry full wait) s = execMmul b i dry full wait s := rfl
theorem exec_drainWriteout (b : Fin 64) : exec (.drainWriteout b) s = execDrainWriteout b s := rfl
theorem exec_vop (b : Fin 64) (i : Fin 3) (starve : Nat) : exec (.vop b i starve) s = execVop b i starve s := rfl
theorem exec_vfunc (b : Fin 64) (i : Fin 3) (starve : Nat) : exec (.vfunc b i starve) s = execVfunc b i starve s := rfl
theorem exec_vred (b : Fin 64) (i : Fin 3) (starve : Nat) : exec (.vred b i starve) s = execVred b i starve s := rfl
theorem exec_vscan (b : Fin 64) (i : Fin 3) (starve : Nat) : exec (.vscan b i starve) s = execVscan b i starve s := rfl
theorem exec_vperm (b : Fin 64) (i : Fin 3) (starve : Nat) : exec (.vperm b i starve) s = execVperm b i starve s := rfl
theorem exec_rmsn (b : Fin 64) (i : Fin 3) (starve : Nat) (gap : Nat) : exec (.rmsn b i starve gap) s = execRmsn b i starve gap s := rfl
theorem exec_smax (b : Fin 64) (i : Fin 3) (starve : Nat) (gap : Nat) : exec (.smax b i starve gap) s = execSmax b i starve gap s := rfl
theorem exec_turn (b : Fin 64) (i : Fin 3) : exec (.turn b i) s = execTurn b i s := rfl
theorem exec_quantNarrow (b : Fin 64) (i : Fin 3) : exec (.quantNarrow b i) s = execQuantNarrow b i s := rfl
theorem exec_quantStash (b : Fin 64) (i : Fin 3) : exec (.quantStash b i) s = execQuantStash b i s := rfl
theorem exec_quantAmaxOnly (b : Fin 64) (i : Fin 3) : exec (.quantAmaxOnly b i) s = execQuantAmaxOnly b i s := rfl
theorem exec_amaxRecordUpdate (b : Fin 64) : exec (.amaxRecordUpdate b) s = execAmaxRecordUpdate b s := rfl
theorem exec_routeTopk (b : Fin 64) (i : Fin 3) : exec (.routeTopk b i) s = execRouteTopk b i s := rfl
theorem exec_routeGather (b : Fin 64) (i : Fin 3) : exec (.routeGather b i) s = execRouteGather b i s := rfl
theorem exec_routeCombine (b : Fin 64) (i : Fin 3) : exec (.routeCombine b i) s = execRouteCombine b i s := rfl
theorem exec_collAllReduce (b : Fin 64) (i : Fin 3) : exec (.collAllReduce b i) s = execCollAllReduce b i s := rfl
theorem exec_collReduceScatter (b : Fin 64) (i : Fin 3) : exec (.collReduceScatter b i) s = execCollReduceScatter b i s := rfl
theorem exec_collAllGather (b : Fin 64) (i : Fin 3) : exec (.collAllGather b i) s = execCollAllGather b i s := rfl
theorem exec_collBroadcast (b : Fin 64) (i : Fin 3) : exec (.collBroadcast b i) s = execCollBroadcast b i s := rfl
theorem exec_collSend (b : Fin 64) (i : Fin 3) : exec (.collSend b i) s = execCollSend b i s := rfl
theorem exec_collReceive (b : Fin 64) (i : Fin 3) : exec (.collReceive b i) s = execCollReceive b i s := rfl
theorem exec_collEngineStart (n : Nat) : exec (.collEngineStart n) s = execCollEngineStart n s := rfl
theorem exec_collComplete (n : Nat) : exec (.collComplete n) s = execCollComplete n s := rfl
theorem exec_collWatchdog (n : Nat) : exec (.collWatchdog n) s = execCollWatchdog n s := rfl
theorem exec_upd (b : Fin 64) (i : Fin 3) : exec (.upd b i) s = execUpd b i s := rfl
theorem exec_updPrologue (b : Fin 64) (extra : Nat) : exec (.updPrologue b extra) s = execUpdPrologue b extra s := rfl
theorem exec_updRun (p : Fin 4) (stall : Nat) : exec (.updRun p stall) s = execUpdRun p stall s := rfl
theorem exec_updEpilogue (p : Fin 4) : exec (.updEpilogue p) s = execUpdEpilogue p s := rfl
theorem exec_sealCompute (b : Fin 64) (i : Fin 3) : exec (.sealCompute b i) s = execSealCompute b i s := rfl
theorem exec_sealVerify (b : Fin 64) (i : Fin 3) : exec (.sealVerify b i) s = execSealVerify b i s := rfl
theorem exec_instructionComplete (b : Fin 64) (n : Nat) : exec (.instructionComplete b n) s = execInstructionComplete b n s := rfl
theorem exec_departureSlot (q : Fin 16) (e : BitVec 14) (k : Nat) : exec (.departureSlot q e k) s = execDepartureSlot q e k s := rfl
theorem exec_occurrenceDelivered (q : Fin 16) (e : BitVec 14) (k : Nat) : exec (.occurrenceDelivered q e k) s = execOccurrenceDelivered q e k s := rfl
theorem exec_promiseExpiry (q : Fin 16) (e : BitVec 14) (k : Nat) : exec (.promiseExpiry q e k) s = execPromiseExpiry q e k s := rfl
theorem exec_slotBoundary : exec (.slotBoundary) s = execSlotBoundary s := rfl
theorem exec_slotLengthChange : exec (.slotLengthChange) s = execSlotLengthChange s := rfl
theorem exec_submitInstall (q : Fin 16) (w : W512) : exec (.submitInstall q w) s = execSubmitInstall q w s := rfl
theorem exec_admissionComplete (q : Fin 16) : exec (.admissionComplete q) s = execAdmissionComplete q s := rfl
theorem exec_submitWithdraw (q : Fin 16) (w : W512) : exec (.submitWithdraw q w) s = execSubmitWithdraw q w s := rfl
theorem exec_submitStart (q : Fin 16) (w : W512) : exec (.submitStart q w) s = execSubmitStart q w s := rfl
theorem exec_submitModel (q : Fin 16) (w : W512) : exec (.submitModel q w) s = execSubmitModel q w s := rfl
theorem exec_submitReset (q : Fin 16) (w : W512) : exec (.submitReset q w) s = execSubmitReset q w s := rfl
theorem exec_partitionReset (q : Fin 16) : exec (.partitionReset q) s = execPartitionReset q s := rfl
theorem exec_quarterCleanDone (q : Fin 16) (i : Fin 16) : exec (.quarterCleanDone q i) s = execQuarterCleanDone q i s := rfl
theorem exec_timetableTakeover (q : Fin 16) : exec (.timetableTakeover q) s = execTimetableTakeover q s := rfl
theorem exec_timetableRemoval (q : Fin 16) : exec (.timetableRemoval q) s = execTimetableRemoval q s := rfl
theorem exec_stepBoundary (q : Fin 16) : exec (.stepBoundary q) s = execStepBoundary q s := rfl
theorem exec_stepApply : exec (.stepApply) s = execStepApply s := rfl
theorem exec_stepNotice (l : Fin 32) (p : Packet) : exec (.stepNotice l p) s = execStepNotice l p s := rfl
theorem exec_maintStart (q : Fin 16) (e : BitVec 14) (k : Nat) : exec (.maintStart q e k) s = execMaintStart q e k s := rfl
theorem exec_maintEnd (q : Fin 16) (e : BitVec 14) (k : Nat) : exec (.maintEnd q e k) s = execMaintEnd q e k s := rfl
theorem exec_holdSend : exec (.holdSend) s = execHoldSend s := rfl
theorem exec_holdNotice (l : Fin 32) (p : Packet) : exec (.holdNotice l p) s = execHoldNotice l p s := rfl
theorem exec_pauseSlot : exec (.pauseSlot) s = execPauseSlot s := rfl
theorem exec_resumeSend : exec (.resumeSend) s = execResumeSend s := rfl
theorem exec_resumeNotice (l : Fin 32) (p : Packet) : exec (.resumeNotice l p) s = execResumeNotice l p s := rfl
theorem exec_resumeSlot : exec (.resumeSlot) s = execResumeSlot s := rfl
theorem exec_epochInstant : exec (.epochInstant) s = execEpochInstant s := rfl
theorem exec_timeSourcePresent : exec (.timeSourcePresent) s = execTimeSourcePresent s := rfl
theorem exec_timeLock : exec (.timeLock) s = execTimeLock s := rfl
theorem exec_timeSourceLost : exec (.timeSourceLost) s = execTimeSourceLost s := rfl
theorem exec_timeSourceRegained (offset : Int) : exec (.timeSourceRegained offset) s = execTimeSourceRegained offset s := rfl
theorem exec_holdoverExpiry : exec (.holdoverExpiry) s = execHoldoverExpiry s := rfl
theorem exec_timeExchange (l : Fin 32) (frac : Fin 16) : exec (.timeExchange l frac) s = execTimeExchange l frac s := rfl
theorem exec_timePacket (l : Fin 32) (p : Packet) (rx : W64) : exec (.timePacket l p rx) s = execTimePacket l p rx s := rfl
theorem exec_capPacket (l : Fin 32) (p : Packet) : exec (.capPacket l p) s = execCapPacket l p s := rfl
theorem exec_linkTrained (l : Fin 32) (quads : BitVec 4) : exec (.linkTrained l quads) s = execLinkTrained l quads s := rfl
theorem exec_quadLoss (l : Fin 32) (quad : Fin 4) (signal : Bool) : exec (.quadLoss l quad signal) s = execQuadLoss l quad signal s := rfl
theorem exec_linkRetrain (f : Func) (l : Fin 32) : exec (.linkRetrain f l) s = execLinkRetrain f l s := rfl
theorem exec_packetNak (l : Fin 32) (unc : Vector Nat 4) : exec (.packetNak l unc) s = execPacketNak l unc s := rfl
theorem exec_packetReplay (l : Fin 32) (ack : BitVec 16) : exec (.packetReplay l ack) s = execPacketReplay l ack s := rfl
theorem exec_replayThreshold (l : Fin 32) (quad : Fin 4) : exec (.replayThreshold l quad) s = execReplayThreshold l quad s := rfl
theorem exec_idlePacket (l : Fin 32) (p : Packet) : exec (.idlePacket l p) s = execIdlePacket l p s := rfl
theorem exec_unknownPacket (l : Fin 32) (p : Packet) : exec (.unknownPacket l p) s = execUnknownPacket l p s := rfl
theorem exec_rdPacket (l : Fin 32) (p : Packet) : exec (.rdPacket l p) s = execRdPacket l p s := rfl
theorem exec_wrPacket (l : Fin 32) (p : Packet) : exec (.wrPacket l p) s = execWrPacket l p s := rfl
theorem exec_atPacket (l : Fin 32) (p : Packet) : exec (.atPacket l p) s = execAtPacket l p s := rfl
theorem exec_rdrPacket (l : Fin 32) (p : Packet) : exec (.rdrPacket l p) s = execRdrPacket l p s := rfl
theorem exec_wackPacket (l : Fin 32) (p : Packet) : exec (.wackPacket l p) s = execWackPacket l p s := rfl
theorem exec_collPacket (l : Fin 32) (p : Packet) : exec (.collPacket l p) s = execCollPacket l p s := rfl
theorem exec_cautionNotice (l : Fin 32) (p : Packet) : exec (.cautionNotice l p) s = execCautionNotice l p s := rfl
theorem exec_peerLate (l : Fin 32) (p : Packet) : exec (.peerLate l p) s = execPeerLate l p s := rfl
theorem exec_abandon (l : Fin 32) (p : Packet) : exec (.abandon l p) s = execAbandon l p s := rfl
theorem exec_memoryRead (a : BitVec 52) (n : Nat) (src : BitVec 16) (part : Option (Fin 16)) (tag : Nat) (die : Fin 5) : exec (.memoryRead a n src part tag die) s = execMemoryRead a n src part tag die s := rfl
theorem exec_memoryWrite (a : BitVec 52) (src : BitVec 16) (part : Option (Fin 16)) (data : List Byte) (poison : List Bool) (mask : List Bool) : exec (.memoryWrite a src part data poison mask) s = execMemoryWrite a src part data poison mask s := rfl
theorem exec_correctionWriteback (a : BitVec 52) : exec (.correctionWriteback a) s = execCorrectionWriteback a s := rfl
theorem exec_mergeEvict (k : Fin 12) : exec (.mergeEvict k) s = execMergeEvict k s := rfl
theorem exec_msMerge (a : BitVec 52) (src : BitVec 16) (part : Option (Fin 16)) (data : List Byte) (poison : List Bool) (mask : List Bool) : exec (.msMerge a src part data poison mask) s = execMsMerge a src part data poison mask s := rfl
theorem exec_msAddFp32 (a : BitVec 52) (src : BitVec 16) (part : Option (Fin 16)) (data : List Byte) (poison : List Bool) (mask : List Bool) : exec (.msAddFp32 a src part data poison mask) s = execMsAddFp32 a src part data poison mask s := rfl
theorem exec_msAddBf16 (a : BitVec 52) (src : BitVec 16) (part : Option (Fin 16)) (data : List Byte) (poison : List Bool) (mask : List Bool) : exec (.msAddBf16 a src part data poison mask) s = execMsAddBf16 a src part data poison mask s := rfl
theorem exec_msAddInt32 (a : BitVec 52) (src : BitVec 16) (part : Option (Fin 16)) (data : List Byte) (poison : List Bool) (mask : List Bool) : exec (.msAddInt32 a src part data poison mask) s = execMsAddInt32 a src part data poison mask s := rfl
theorem exec_msAddInt64 (a : BitVec 52) (src : BitVec 16) (part : Option (Fin 16)) (data : List Byte) (poison : List Bool) (mask : List Bool) : exec (.msAddInt64 a src part data poison mask) s = execMsAddInt64 a src part data poison mask s := rfl
theorem exec_msMaxFp32 (a : BitVec 52) (src : BitVec 16) (part : Option (Fin 16)) (data : List Byte) (poison : List Bool) (mask : List Bool) : exec (.msMaxFp32 a src part data poison mask) s = execMsMaxFp32 a src part data poison mask s := rfl
theorem exec_msMinFp32 (a : BitVec 52) (src : BitVec 16) (part : Option (Fin 16)) (data : List Byte) (poison : List Bool) (mask : List Bool) : exec (.msMinFp32 a src part data poison mask) s = execMsMinFp32 a src part data poison mask s := rfl
theorem exec_msMaxBf16 (a : BitVec 52) (src : BitVec 16) (part : Option (Fin 16)) (data : List Byte) (poison : List Bool) (mask : List Bool) : exec (.msMaxBf16 a src part data poison mask) s = execMsMaxBf16 a src part data poison mask s := rfl
theorem exec_msMinBf16 (a : BitVec 52) (src : BitVec 16) (part : Option (Fin 16)) (data : List Byte) (poison : List Bool) (mask : List Bool) : exec (.msMinBf16 a src part data poison mask) s = execMsMinBf16 a src part data poison mask s := rfl
theorem exec_msMaxInt32 (a : BitVec 52) (src : BitVec 16) (part : Option (Fin 16)) (data : List Byte) (poison : List Bool) (mask : List Bool) : exec (.msMaxInt32 a src part data poison mask) s = execMsMaxInt32 a src part data poison mask s := rfl
theorem exec_msMinInt32 (a : BitVec 52) (src : BitVec 16) (part : Option (Fin 16)) (data : List Byte) (poison : List Bool) (mask : List Bool) : exec (.msMinInt32 a src part data poison mask) s = execMsMinInt32 a src part data poison mask s := rfl
theorem exec_msMaxInt64 (a : BitVec 52) (src : BitVec 16) (part : Option (Fin 16)) (data : List Byte) (poison : List Bool) (mask : List Bool) : exec (.msMaxInt64 a src part data poison mask) s = execMsMaxInt64 a src part data poison mask s := rfl
theorem exec_msMinInt64 (a : BitVec 52) (src : BitVec 16) (part : Option (Fin 16)) (data : List Byte) (poison : List Bool) (mask : List Bool) : exec (.msMinInt64 a src part data poison mask) s = execMsMinInt64 a src part data poison mask s := rfl
theorem exec_msReservedOp (code : BitVec 4) (a : BitVec 52) (src : BitVec 16) (part : Option (Fin 16)) : exec (.msReservedOp code a src part) s = execMsReservedOp code a src part s := rfl
theorem exec_refresh (k : Fin 12) : exec (.refresh k) s = execRefresh k s := rfl
theorem exec_scrubStep (n : Fin 80) : exec (.scrubStep n) s = execScrubStep n s := rfl
theorem exec_scrubLapOverdue (n : Fin 80) : exec (.scrubLapOverdue n) s = execScrubLapOverdue n s := rfl
theorem exec_stackTempReading (k : Fin 12) (temp : BitVec 8) : exec (.stackTempReading k temp) s = execStackTempReading k temp s := rfl
theorem exec_stackCoolExpiry (k : Fin 12) : exec (.stackCoolExpiry k) s = execStackCoolExpiry k s := rfl
theorem exec_retrainDueAge (k : Fin 12) (ch : Fin 16) : exec (.retrainDueAge k ch) s = execRetrainDueAge k ch s := rfl
theorem exec_scheduledRetrainEnd (k : Fin 12) (ch : Fin 16) (lost : BitVec 2) (converged : Bool) : exec (.scheduledRetrainEnd k ch lost converged) s = execScheduledRetrainEnd k ch lost converged s := rfl
theorem exec_emergencyRetrainStart (k : Fin 12) (ch : Fin 16) : exec (.emergencyRetrainStart k ch) s = execEmergencyRetrainStart k ch s := rfl
theorem exec_emergencyRetrainEnd (k : Fin 12) (ch : Fin 16) (lost : BitVec 2) (converged : Bool) : exec (.emergencyRetrainEnd k ch lost converged) s = execEmergencyRetrainEnd k ch lost converged s := rfl
theorem exec_channelMapOut (k : Fin 12) : exec (.channelMapOut k) s = execChannelMapOut k s := rfl
theorem exec_poisonFillDone (k : Fin 12) : exec (.poisonFillDone k) s = execPoisonFillDone k s := rfl
theorem exec_regionZeroDone (n : Fin 80) (i : Fin 128) : exec (.regionZeroDone n i) s = execRegionZeroDone n i s := rfl
theorem exec_retireGo (f : Func) (n : Fin 80) (index : BitVec 16) (bank : Bool) : exec (.retireGo f n index bank) s = execRetireGo f n index bank s := rfl
theorem exec_capBankCopy (b : Fin 64) (i : Fin 32) : exec (.capBankCopy b i) s = execCapBankCopy b i s := rfl
theorem exec_capBankCopyDone (b : Fin 64) (i : Fin 32) : exec (.capBankCopyDone b i) s = execCapBankCopyDone b i s := rfl
theorem exec_injectGo (f : Func) (n : Fin 80) (offset : BitVec 37) (kind : BitVec 2) (store : Bool) : exec (.injectGo f n offset kind store) s = execInjectGo f n offset kind store s := rfl
theorem exec_injectApply (n : Fin 80) : exec (.injectApply n) s = execInjectApply n s := rfl
theorem exec_drainQueuedStart (p : Fin 4) (q : Fin 16) : exec (.drainQueuedStart p q) s = execDrainQueuedStart p q s := rfl
theorem exec_drainComplete (p : Fin 4) (q : Fin 16) : exec (.drainComplete p q) s = execDrainComplete p q s := rfl
theorem exec_waybillSigned : exec (.waybillSigned) s = execWaybillSigned s := rfl
theorem exec_restoreGo (f : Func) (p : Fin 4) (q : Fin 16) (order : BitVec 52) : exec (.restoreGo f p q order) s = execRestoreGo f p q order s := rfl
theorem exec_restoreComplete (p : Fin 4) (q : Fin 16) : exec (.restoreComplete p q) s = execRestoreComplete p q s := rfl
theorem exec_quoteGo (f : Func) (buf : BitVec 52) : exec (.quoteGo f buf) s = execQuoteGo f buf s := rfl
theorem exec_quoteDone : exec (.quoteDone) s = execQuoteDone s := rfl
theorem exec_repairRecordWrite : exec (.repairRecordWrite) s = execRepairRecordWrite s := rfl
theorem exec_repairRecordDone : exec (.repairRecordDone) s = execRepairRecordDone s := rfl
theorem exec_streamRun (f : Func) (b : Fin 64) (i : Fin 3) (start : W32) : exec (.streamRun f b i start) s = execStreamRun f b i start s := rfl
theorem exec_streamHalt (f : Func) (b : Fin 64) (i : Fin 3) (start : W32) : exec (.streamHalt f b i start) s = execStreamHalt f b i start s := rfl
theorem exec_tokenSet (f : Func) (b : Fin 64) (mask : W64) : exec (.tokenSet f b mask) s = execTokenSet f b mask s := rfl
theorem exec_tokenClear (f : Func) (b : Fin 64) (mask : W64) : exec (.tokenClear f b mask) s = execTokenClear f b mask s := rfl
theorem exec_permOorClear (f : Func) (b : Fin 64) (i : Fin 3) : exec (.permOorClear f b i) s = execPermOorClear f b i s := rfl
theorem exec_hostConfigWrite (f : Func) (b : Fin 64) (i : Fin 3) (g : Fin 8) (fi : Fin 3) (v : W64) : exec (.hostConfigWrite f b i g fi v) s = execHostConfigWrite f b i g fi v s := rfl
theorem exec_hostDescriptorWrite (f : Func) (b : Fin 64) (i : Fin 3) (slot : Fin 256) (wi : Fin 8) (v : W64) : exec (.hostDescriptorWrite f b i slot wi v) s = execHostDescriptorWrite f b i slot wi v s := rfl
theorem exec_qcntClear (f : Func) (b : Fin 64) : exec (.qcntClear f b) s = execQcntClear f b s := rfl
theorem exec_mxCounterClear (f : Func) (b : Fin 64) : exec (.mxCounterClear f b) s = execMxCounterClear f b s := rfl
theorem exec_vecCounterClear (f : Func) (b : Fin 64) : exec (.vecCounterClear f b) s = execVecCounterClear f b s := rfl
theorem exec_ptsCounterClear (f : Func) (p : Fin 4) : exec (.ptsCounterClear f p) s = execPtsCounterClear f p s := rfl
theorem exec_updCounterClear (f : Func) (p : Fin 4) : exec (.updCounterClear f p) s = execUpdCounterClear f p s := rfl
theorem exec_hbmCounterClear (f : Func) (k : Fin 12) : exec (.hbmCounterClear f k) s = execHbmCounterClear f k s := rfl
theorem exec_eccCounterClear (f : Func) (n : Fin 80) : exec (.eccCounterClear f n) s = execEccCounterClear f n s := rfl
theorem exec_eccLogClear (f : Func) (n : Fin 80) : exec (.eccLogClear f n) s = execEccLogClear f n s := rfl
theorem exec_lnkCounterClear (f : Func) (l : Fin 32) : exec (.lnkCounterClear f l) s = execLnkCounterClear f l s := rfl
theorem exec_pwrCounterClear (f : Func) : exec (.pwrCounterClear f) s = execPwrCounterClear f s := rfl
theorem exec_wbCounterClear (f : Func) (p : Fin 4) : exec (.wbCounterClear f p) s = execWbCounterClear f p s := rfl
theorem exec_holeClr (f : Func) : exec (.holeClr f) s = execHoleClr f s := rfl
theorem exec_ttSyncWrite (f : Func) (v : W64) : exec (.ttSyncWrite f v) s = execTtSyncWrite f v s := rfl
theorem exec_pwrCapWrite (f : Func) (v : W64) : exec (.pwrCapWrite f v) s = execPwrCapWrite f v s := rfl
theorem exec_hbmRegWrite (f : Func) (k : Fin 12) (q : Fin 16) (v : W64) : exec (.hbmRegWrite f k q v) s = execHbmRegWrite f k q v s := rfl
theorem exec_bondPartWrite (f : Func) (q : Fin 16) (wi : Fin 2) (v : W64) : exec (.bondPartWrite f q wi v) s = execBondPartWrite f q wi v s := rfl
theorem exec_bondSegWrite (f : Func) (q : Fin 16) (i : Fin 32) (wi : Fin 2) (v : W64) : exec (.bondSegWrite f q i wi v) s = execBondSegWrite f q i wi v s := rfl
theorem exec_segmentZeroDone (q : Fin 16) (i : Fin 32) : exec (.segmentZeroDone q i) s = execSegmentZeroDone q i s := rfl
theorem exec_bondPlatWrite (f : Func) (q : Fin 16) (wi : Fin 4) (v : W64) : exec (.bondPlatWrite f q wi v) s = execBondPlatWrite f q wi v s := rfl
theorem exec_bondHwinWrite (f : Func) (p : Fin 4) (i : Fin 64) (v : W64) : exec (.bondHwinWrite f p i v) s = execBondHwinWrite f p i v s := rfl
theorem exec_bondPortWrite (f : Func) (p : Fin 4) (v : W64) : exec (.bondPortWrite f p v) s = execBondPortWrite f p v s := rfl
theorem exec_updWbWrite (f : Func) (p : Fin 4) (q : Fin 16) (v : W64) : exec (.updWbWrite f p q v) s = execUpdWbWrite f p q v s := rfl
theorem exec_repairClear (f : Func) : exec (.repairClear f) s = execRepairClear f s := rfl
theorem exec_registerWrite (f : Func) (o : W32) (v : W64) : exec (.registerWrite f o v) s = execRegisterWrite f o v s := rfl
theorem exec_bar0Access (f : Func) (o : W32) (data : Option (W64 × Bool)) : exec (.bar0Access f o data) s = execBar0Access f o data s := rfl
theorem exec_bar2Access (f : Func) (o : W64) (n : Nat) (data : Option (List Byte)) (ep : Bool) : exec (.bar2Access f o n data ep) s = execBar2Access f o n data ep s := rfl
theorem exec_configRequest (f : Func) (c : CfgReq) : exec (.configRequest f c) s = execConfigRequest f c s := rfl
theorem exec_functionLevelReset (f : Func) : exec (.functionLevelReset f) s = execFunctionLevelReset f s := rfl
theorem exec_perst (port : Fin 4) (low : Bool) : exec (.perst port low) s = execPerst port low s := rfl
theorem exec_entdaa (chainIn : Bool) (da : BitVec 7) : exec (.entdaa chainIn da) s = execEntdaa chainIn da s := rfl
theorem exec_rstdaa : exec (.rstdaa) s = execRstdaa s := rfl
theorem exec_setnewda (da : BitVec 7) : exec (.setnewda da) s = execSetnewda da s := rfl
theorem exec_getpid : exec (.getpid) s = execGetpid s := rfl
theorem exec_getbcr : exec (.getbcr) s = execGetbcr s := rfl
theorem exec_getdcr : exec (.getdcr) s = execGetdcr s := rfl
theorem exec_getstatus : exec (.getstatus) s = execGetstatus s := rfl
theorem exec_getmwl : exec (.getmwl) s = execGetmwl s := rfl
theorem exec_getmrl : exec (.getmrl) s = execGetmrl s := rfl
theorem exec_enec (intr : Bool) : exec (.enec intr) s = execEnec intr s := rfl
theorem exec_disec (intr : Bool) : exec (.disec intr) s = execDisec intr s := rfl
theorem exec_i3cRead (a : W64) (words : Nat) : exec (.i3cRead a words) s = execI3cRead a words s := rfl
theorem exec_i3cWrite (a : W64) (ws : List W64) : exec (.i3cWrite a ws) s = execI3cWrite a ws s := rfl
theorem exec_i3cQuote (nonce : List Byte) : exec (.i3cQuote nonce) s = execI3cQuote nonce s := rfl
theorem exec_ferase (o : W32) : exec (.ferase o) s = execFerase o s := rfl
theorem exec_fprog (o : W32) (data : List Byte) : exec (.fprog o data) s = execFprog o data s := rfl
theorem exec_i3cPrivateRead : exec (.i3cPrivateRead) s = execI3cPrivateRead s := rfl
theorem exec_vinRise : exec (.vinRise) s = execVinRise s := rfl
theorem exec_pwrEnRise : exec (.pwrEnRise) s = execPwrEnRise s := rfl
theorem exec_powerGood : exec (.powerGood) s = execPowerGood s := rfl
theorem exec_pwrEnFall : exec (.pwrEnFall) s = execPwrEnFall s := rfl
theorem exec_resetN (low : Bool) : exec (.resetN low) s = execResetN low s := rfl
theorem exec_romDone (sig0 : Bool) (sig1 : Bool) : exec (.romDone sig0 sig1) s = execRomDone sig0 sig1 s := rfl
theorem exec_imagesDone (puf : Bool) : exec (.imagesDone puf) s = execImagesDone puf s := rfl
theorem exec_selftestDone (found : Findings) : exec (.selftestDone found) s = execSelftestDone found s := rfl
theorem exec_published : exec (.published) s = execPublished s := rfl
theorem exec_vinSample (mv : Nat) : exec (.vinSample mv) s = execVinSample mv s := rfl
theorem exec_vinCaution : exec (.vinCaution) s = execVinCaution s := rfl
theorem exec_vinRideExpiry : exec (.vinRideExpiry) s = execVinRideExpiry s := rfl
theorem exec_protectiveStop : exec (.protectiveStop) s = execProtectiveStop s := rfl
theorem exec_shaperTick (work : Nat) (gated : Nat) : exec (.shaperTick work gated) s = execShaperTick work gated s := rfl
theorem exec_voltageStep (rail : Fin 9) (pass : Nat) (safe : Nat) : exec (.voltageStep rail pass safe) s = execVoltageStep rail pass safe s := rfl
theorem exec_droopEvent (p : Fin 4) (bays : BitVec 16) : exec (.droopEvent p bays) s = execDroopEvent p bays s := rfl
theorem exec_dieTempReading (temp : Nat) : exec (.dieTempReading temp) s = execDieTempReading temp s := rfl
theorem exec_dieCoolExpiry : exec (.dieCoolExpiry) s = execDieCoolExpiry s := rfl
theorem exec_vinStableExpiry : exec (.vinStableExpiry) s = execVinStableExpiry s := rfl
theorem exec_lrefEdge : exec (.lrefEdge) s = execLrefEdge s := rfl
theorem exec_pcieRetrain (port : Fin 4) (width : Nat) (rate : Nat) : exec (.pcieRetrain port width rate) s = execPcieRetrain port width rate s := rfl
theorem exec_pcieCompletion (port : Fin 4) (tag : Nat) (ep : Bool) (data : List Byte) : exec (.pcieCompletion port tag ep data) s = execPcieCompletion port tag ep data s := rfl
theorem exec_railsOff : exec (.railsOff) s = execRailsOff s := rfl
theorem State.run_next (f : TimeUnit → Dev → Dev) : ∃ t, s.run f = .next t ∧ t.pending = s.pending := ⟨_, rfl, rfl⟩
theorem State.runDev_next (f : Dev → Dev) : ∃ t, s.runDev f = .next t ∧ t.pending = s.pending := ⟨_, rfl, rfl⟩
theorem State.runTime_next (f : TimeUnit → TimeUnit) : ∃ t, s.runTime f = .next t ∧ t.pending = s.pending := ⟨_, rfl, rfl⟩
theorem State.runBoth_next (f : TimeUnit → Dev → TimeUnit × Dev) : ∃ t, s.runBoth f = .next t ∧ t.pending = s.pending := ⟨_, rfl, rfl⟩

/-! ### Every meaning answers a next state with the queue as it was -/

theorem nop_next (b : Fin 64) (i : Fin 3) : ∃ t, execNop b i s = .next t ∧ t.pending = s.pending := by unfold execNop; exact State.run_next s _
theorem endStream_next (b : Fin 64) (i : Fin 3) : ∃ t, execEndStream b i s = .next t ∧ t.pending = s.pending := by unfold execEndStream; exact State.run_next s _
theorem depart_next (b : Fin 64) (i : Fin 3) : ∃ t, execDepart b i s = .next t ∧ t.pending = s.pending := by unfold execDepart; exact State.run_next s _
theorem departRelease_next (b : Fin 64) (i : Fin 3) : ∃ t, execDepartRelease b i s = .next t ∧ t.pending = s.pending := by unfold execDepartRelease; exact State.run_next s _
theorem branchJump_next (b : Fin 64) (i : Fin 3) : ∃ t, execBranchJump b i s = .next t ∧ t.pending = s.pending := by unfold execBranchJump; exact State.run_next s _
theorem branchLoop_next (b : Fin 64) (i : Fin 3) : ∃ t, execBranchLoop b i s = .next t ∧ t.pending = s.pending := by unfold execBranchLoop; exact State.run_next s _
theorem branchSetCount_next (b : Fin 64) (i : Fin 3) : ∃ t, execBranchSetCount b i s = .next t ∧ t.pending = s.pending := by unfold execBranchSetCount; exact State.run_next s _
theorem branchStallEnd_next (b : Fin 64) (i : Fin 3) : ∃ t, execBranchStallEnd b i s = .next t ∧ t.pending = s.pending := by unfold execBranchStallEnd; exact State.runDev_next s _
theorem cfg_next (b : Fin 64) (i : Fin 3) : ∃ t, execCfg b i s = .next t ∧ t.pending = s.pending := by unfold execCfg; exact State.run_next s _
theorem commit_next (b : Fin 64) (i : Fin 3) : ∃ t, execCommit b i s = .next t ∧ t.pending = s.pending := by unfold execCommit; exact State.run_next s _
theorem syncSet_next (b : Fin 64) (i : Fin 3) : ∃ t, execSyncSet b i s = .next t ∧ t.pending = s.pending := by unfold execSyncSet; exact State.run_next s _
theorem syncClear_next (b : Fin 64) (i : Fin 3) : ∃ t, execSyncClear b i s = .next t ∧ t.pending = s.pending := by unfold execSyncClear; exact State.run_next s _
theorem syncWait_next (b : Fin 64) (i : Fin 3) : ∃ t, execSyncWait b i s = .next t ∧ t.pending = s.pending := by unfold execSyncWait; exact State.run_next s _
theorem syncWaitClr_next (b : Fin 64) (i : Fin 3) : ∃ t, execSyncWaitClr b i s = .next t ∧ t.pending = s.pending := by unfold execSyncWaitClr; exact State.run_next s _
theorem syncWaitEnd_next (b : Fin 64) (i : Fin 3) : ∃ t, execSyncWaitEnd b i s = .next t ∧ t.pending = s.pending := by unfold execSyncWaitEnd; exact State.run_next s _
theorem syncRset_next (b : Fin 64) (i : Fin 3) : ∃ t, execSyncRset b i s = .next t ∧ t.pending = s.pending := by unfold execSyncRset; exact State.run_next s _
theorem rsetArrival_next (b : Fin 64) (token : Fin 64) : ∃ t, execRsetArrival b token s = .next t ∧ t.pending = s.pending := by unfold execRsetArrival; exact State.runDev_next s _
theorem dload_next (b : Fin 64) (i : Fin 3) : ∃ t, execDload b i s = .next t ∧ t.pending = s.pending := by unfold execDload; exact State.run_next s _
theorem move_next (b : Fin 64) (i : Fin 3) : ∃ t, execMove b i s = .next t ∧ t.pending = s.pending := by unfold execMove; exact State.run_next s _
theorem mload_next (b : Fin 64) (i : Fin 3) : ∃ t, execMload b i s = .next t ∧ t.pending = s.pending := by unfold execMload; exact State.run_next s _
theorem stationarySwap_next (b : Fin 64) (stall : Nat) : ∃ t, execStationarySwap b stall s = .next t ∧ t.pending = s.pending := by unfold execStationarySwap; exact State.runDev_next s _
theorem mmul_next (b : Fin 64) (i : Fin 3) (dry : Nat) (full : Nat) (wait : Nat) : ∃ t, execMmul b i dry full wait s = .next t ∧ t.pending = s.pending := by unfold execMmul; exact State.run_next s _
theorem drainWriteout_next (b : Fin 64) : ∃ t, execDrainWriteout b s = .next t ∧ t.pending = s.pending := by unfold execDrainWriteout; exact State.run_next s _
theorem vop_next (b : Fin 64) (i : Fin 3) (starve : Nat) : ∃ t, execVop b i starve s = .next t ∧ t.pending = s.pending := by unfold execVop; exact State.run_next s _
theorem vfunc_next (b : Fin 64) (i : Fin 3) (starve : Nat) : ∃ t, execVfunc b i starve s = .next t ∧ t.pending = s.pending := by unfold execVfunc; exact State.run_next s _
theorem vred_next (b : Fin 64) (i : Fin 3) (starve : Nat) : ∃ t, execVred b i starve s = .next t ∧ t.pending = s.pending := by unfold execVred; exact State.run_next s _
theorem vscan_next (b : Fin 64) (i : Fin 3) (starve : Nat) : ∃ t, execVscan b i starve s = .next t ∧ t.pending = s.pending := by unfold execVscan; exact State.run_next s _
theorem vperm_next (b : Fin 64) (i : Fin 3) (starve : Nat) : ∃ t, execVperm b i starve s = .next t ∧ t.pending = s.pending := by unfold execVperm; exact State.run_next s _
theorem rmsn_next (b : Fin 64) (i : Fin 3) (starve : Nat) (gap : Nat) : ∃ t, execRmsn b i starve gap s = .next t ∧ t.pending = s.pending := by unfold execRmsn; exact State.run_next s _
theorem smax_next (b : Fin 64) (i : Fin 3) (starve : Nat) (gap : Nat) : ∃ t, execSmax b i starve gap s = .next t ∧ t.pending = s.pending := by unfold execSmax; exact State.run_next s _
theorem turn_next (b : Fin 64) (i : Fin 3) : ∃ t, execTurn b i s = .next t ∧ t.pending = s.pending := by unfold execTurn; exact State.run_next s _
theorem quantNarrow_next (b : Fin 64) (i : Fin 3) : ∃ t, execQuantNarrow b i s = .next t ∧ t.pending = s.pending := by unfold execQuantNarrow; exact State.run_next s _
theorem quantStash_next (b : Fin 64) (i : Fin 3) : ∃ t, execQuantStash b i s = .next t ∧ t.pending = s.pending := by unfold execQuantStash; exact State.run_next s _
theorem quantAmaxOnly_next (b : Fin 64) (i : Fin 3) : ∃ t, execQuantAmaxOnly b i s = .next t ∧ t.pending = s.pending := by unfold execQuantAmaxOnly; exact State.run_next s _
theorem amaxRecordUpdate_next (b : Fin 64) : ∃ t, execAmaxRecordUpdate b s = .next t ∧ t.pending = s.pending := by unfold execAmaxRecordUpdate; exact State.run_next s _
theorem routeTopk_next (b : Fin 64) (i : Fin 3) : ∃ t, execRouteTopk b i s = .next t ∧ t.pending = s.pending := by unfold execRouteTopk; exact State.run_next s _
theorem routeGather_next (b : Fin 64) (i : Fin 3) : ∃ t, execRouteGather b i s = .next t ∧ t.pending = s.pending := by unfold execRouteGather; exact State.run_next s _
theorem routeCombine_next (b : Fin 64) (i : Fin 3) : ∃ t, execRouteCombine b i s = .next t ∧ t.pending = s.pending := by unfold execRouteCombine; exact State.run_next s _
theorem collAllReduce_next (b : Fin 64) (i : Fin 3) : ∃ t, execCollAllReduce b i s = .next t ∧ t.pending = s.pending := by unfold execCollAllReduce; exact State.run_next s _
theorem collReduceScatter_next (b : Fin 64) (i : Fin 3) : ∃ t, execCollReduceScatter b i s = .next t ∧ t.pending = s.pending := by unfold execCollReduceScatter; exact State.run_next s _
theorem collAllGather_next (b : Fin 64) (i : Fin 3) : ∃ t, execCollAllGather b i s = .next t ∧ t.pending = s.pending := by unfold execCollAllGather; exact State.run_next s _
theorem collBroadcast_next (b : Fin 64) (i : Fin 3) : ∃ t, execCollBroadcast b i s = .next t ∧ t.pending = s.pending := by unfold execCollBroadcast; exact State.run_next s _
theorem collSend_next (b : Fin 64) (i : Fin 3) : ∃ t, execCollSend b i s = .next t ∧ t.pending = s.pending := by unfold execCollSend; exact State.run_next s _
theorem collReceive_next (b : Fin 64) (i : Fin 3) : ∃ t, execCollReceive b i s = .next t ∧ t.pending = s.pending := by unfold execCollReceive; exact State.run_next s _
theorem collEngineStart_next (n : Nat) : ∃ t, execCollEngineStart n s = .next t ∧ t.pending = s.pending := by unfold execCollEngineStart; exact State.run_next s _
theorem collComplete_next (n : Nat) : ∃ t, execCollComplete n s = .next t ∧ t.pending = s.pending := by unfold execCollComplete; exact State.run_next s _
theorem collWatchdog_next (n : Nat) : ∃ t, execCollWatchdog n s = .next t ∧ t.pending = s.pending := by unfold execCollWatchdog; exact State.run_next s _
theorem upd_next (b : Fin 64) (i : Fin 3) : ∃ t, execUpd b i s = .next t ∧ t.pending = s.pending := by unfold execUpd; exact State.run_next s _
theorem updPrologue_next (b : Fin 64) (extra : Nat) : ∃ t, execUpdPrologue b extra s = .next t ∧ t.pending = s.pending := by unfold execUpdPrologue; exact State.run_next s _
theorem updRun_next (p : Fin 4) (stall : Nat) : ∃ t, execUpdRun p stall s = .next t ∧ t.pending = s.pending := by unfold execUpdRun; exact State.run_next s _
theorem updEpilogue_next (p : Fin 4) : ∃ t, execUpdEpilogue p s = .next t ∧ t.pending = s.pending := by unfold execUpdEpilogue; exact State.run_next s _
theorem sealCompute_next (b : Fin 64) (i : Fin 3) : ∃ t, execSealCompute b i s = .next t ∧ t.pending = s.pending := by unfold execSealCompute; exact State.run_next s _
theorem sealVerify_next (b : Fin 64) (i : Fin 3) : ∃ t, execSealVerify b i s = .next t ∧ t.pending = s.pending := by unfold execSealVerify; exact State.run_next s _
theorem instructionComplete_next (b : Fin 64) (n : Nat) : ∃ t, execInstructionComplete b n s = .next t ∧ t.pending = s.pending := by unfold execInstructionComplete; exact State.run_next s _
theorem departureSlot_next (q : Fin 16) (e : BitVec 14) (k : Nat) : ∃ t, execDepartureSlot q e k s = .next t ∧ t.pending = s.pending := by unfold execDepartureSlot; exact State.run_next s _
theorem occurrenceDelivered_next (q : Fin 16) (e : BitVec 14) (k : Nat) : ∃ t, execOccurrenceDelivered q e k s = .next t ∧ t.pending = s.pending := by unfold execOccurrenceDelivered; exact State.run_next s _
theorem promiseExpiry_next (q : Fin 16) (e : BitVec 14) (k : Nat) : ∃ t, execPromiseExpiry q e k s = .next t ∧ t.pending = s.pending := by unfold execPromiseExpiry; exact State.run_next s _
theorem slotBoundary_next : ∃ t, execSlotBoundary s = .next t ∧ t.pending = s.pending := by unfold execSlotBoundary; exact State.runBoth_next s _
theorem slotLengthChange_next : ∃ t, execSlotLengthChange s = .next t ∧ t.pending = s.pending := by unfold execSlotLengthChange; exact State.runTime_next s _
theorem submitInstall_next (q : Fin 16) (w : W512) : ∃ t, execSubmitInstall q w s = .next t ∧ t.pending = s.pending := by unfold execSubmitInstall; exact State.run_next s _
theorem admissionComplete_next (q : Fin 16) : ∃ t, execAdmissionComplete q s = .next t ∧ t.pending = s.pending := by unfold execAdmissionComplete; exact State.run_next s _
theorem submitWithdraw_next (q : Fin 16) (w : W512) : ∃ t, execSubmitWithdraw q w s = .next t ∧ t.pending = s.pending := by unfold execSubmitWithdraw; exact State.run_next s _
theorem submitStart_next (q : Fin 16) (w : W512) : ∃ t, execSubmitStart q w s = .next t ∧ t.pending = s.pending := by unfold execSubmitStart; exact State.run_next s _
theorem submitModel_next (q : Fin 16) (w : W512) : ∃ t, execSubmitModel q w s = .next t ∧ t.pending = s.pending := by unfold execSubmitModel; exact State.run_next s _
theorem submitReset_next (q : Fin 16) (w : W512) : ∃ t, execSubmitReset q w s = .next t ∧ t.pending = s.pending := by unfold execSubmitReset; exact State.run_next s _
theorem partitionReset_next (q : Fin 16) : ∃ t, execPartitionReset q s = .next t ∧ t.pending = s.pending := by unfold execPartitionReset; exact State.run_next s _
theorem quarterCleanDone_next (q : Fin 16) (i : Fin 16) : ∃ t, execQuarterCleanDone q i s = .next t ∧ t.pending = s.pending := by unfold execQuarterCleanDone; exact State.runDev_next s _
theorem timetableTakeover_next (q : Fin 16) : ∃ t, execTimetableTakeover q s = .next t ∧ t.pending = s.pending := by unfold execTimetableTakeover; exact State.run_next s _
theorem timetableRemoval_next (q : Fin 16) : ∃ t, execTimetableRemoval q s = .next t ∧ t.pending = s.pending := by unfold execTimetableRemoval; exact State.run_next s _
theorem stepBoundary_next (q : Fin 16) : ∃ t, execStepBoundary q s = .next t ∧ t.pending = s.pending := by unfold execStepBoundary; exact State.run_next s _
theorem stepApply_next : ∃ t, execStepApply s = .next t ∧ t.pending = s.pending := by unfold execStepApply; exact State.run_next s _
theorem stepNotice_next (l : Fin 32) (p : Packet) : ∃ t, execStepNotice l p s = .next t ∧ t.pending = s.pending := by unfold execStepNotice; exact State.run_next s _
theorem maintStart_next (q : Fin 16) (e : BitVec 14) (k : Nat) : ∃ t, execMaintStart q e k s = .next t ∧ t.pending = s.pending := by unfold execMaintStart; exact State.run_next s _
theorem maintEnd_next (q : Fin 16) (e : BitVec 14) (k : Nat) : ∃ t, execMaintEnd q e k s = .next t ∧ t.pending = s.pending := by unfold execMaintEnd; exact State.run_next s _
theorem holdSend_next : ∃ t, execHoldSend s = .next t ∧ t.pending = s.pending := by unfold execHoldSend; exact State.run_next s _
theorem holdNotice_next (l : Fin 32) (p : Packet) : ∃ t, execHoldNotice l p s = .next t ∧ t.pending = s.pending := by unfold execHoldNotice; exact State.run_next s _
theorem pauseSlot_next : ∃ t, execPauseSlot s = .next t ∧ t.pending = s.pending := by unfold execPauseSlot; exact State.run_next s _
theorem resumeSend_next : ∃ t, execResumeSend s = .next t ∧ t.pending = s.pending := by unfold execResumeSend; exact State.run_next s _
theorem resumeNotice_next (l : Fin 32) (p : Packet) : ∃ t, execResumeNotice l p s = .next t ∧ t.pending = s.pending := by unfold execResumeNotice; exact State.run_next s _
theorem resumeSlot_next : ∃ t, execResumeSlot s = .next t ∧ t.pending = s.pending := by unfold execResumeSlot; exact State.run_next s _
theorem epochInstant_next : ∃ t, execEpochInstant s = .next t ∧ t.pending = s.pending := by unfold execEpochInstant; exact State.runTime_next s _
theorem timeSourcePresent_next : ∃ t, execTimeSourcePresent s = .next t ∧ t.pending = s.pending := by unfold execTimeSourcePresent; exact State.runTime_next s _
theorem timeLock_next : ∃ t, execTimeLock s = .next t ∧ t.pending = s.pending := by unfold execTimeLock; exact State.runBoth_next s _
theorem timeSourceLost_next : ∃ t, execTimeSourceLost s = .next t ∧ t.pending = s.pending := by unfold execTimeSourceLost; exact State.runBoth_next s _
theorem timeSourceRegained_next (offset : Int) : ∃ t, execTimeSourceRegained offset s = .next t ∧ t.pending = s.pending := by unfold execTimeSourceRegained; exact State.runTime_next s _
theorem holdoverExpiry_next : ∃ t, execHoldoverExpiry s = .next t ∧ t.pending = s.pending := by unfold execHoldoverExpiry; exact State.runBoth_next s _
theorem timeExchange_next (l : Fin 32) (frac : Fin 16) : ∃ t, execTimeExchange l frac s = .next t ∧ t.pending = s.pending := by unfold execTimeExchange; exact State.run_next s _
theorem timePacket_next (l : Fin 32) (p : Packet) (rx : W64) : ∃ t, execTimePacket l p rx s = .next t ∧ t.pending = s.pending := by unfold execTimePacket; exact State.runBoth_next s _
theorem capPacket_next (l : Fin 32) (p : Packet) : ∃ t, execCapPacket l p s = .next t ∧ t.pending = s.pending := by unfold execCapPacket; exact State.run_next s _
theorem linkTrained_next (l : Fin 32) (quads : BitVec 4) : ∃ t, execLinkTrained l quads s = .next t ∧ t.pending = s.pending := by unfold execLinkTrained; exact State.run_next s _
theorem quadLoss_next (l : Fin 32) (quad : Fin 4) (signal : Bool) : ∃ t, execQuadLoss l quad signal s = .next t ∧ t.pending = s.pending := by unfold execQuadLoss; exact State.run_next s _
theorem linkRetrain_next (f : Func) (l : Fin 32) : ∃ t, execLinkRetrain f l s = .next t ∧ t.pending = s.pending := by unfold execLinkRetrain; exact State.runBoth_next s _
theorem packetNak_next (l : Fin 32) (unc : Vector Nat 4) : ∃ t, execPacketNak l unc s = .next t ∧ t.pending = s.pending := by unfold execPacketNak; exact State.runDev_next s _
theorem packetReplay_next (l : Fin 32) (ack : BitVec 16) : ∃ t, execPacketReplay l ack s = .next t ∧ t.pending = s.pending := by unfold execPacketReplay; exact State.runDev_next s _
theorem replayThreshold_next (l : Fin 32) (quad : Fin 4) : ∃ t, execReplayThreshold l quad s = .next t ∧ t.pending = s.pending := by unfold execReplayThreshold; exact State.run_next s _
theorem idlePacket_next (l : Fin 32) (p : Packet) : ∃ t, execIdlePacket l p s = .next t ∧ t.pending = s.pending := by unfold execIdlePacket; exact State.runDev_next s _
theorem unknownPacket_next (l : Fin 32) (p : Packet) : ∃ t, execUnknownPacket l p s = .next t ∧ t.pending = s.pending := by unfold execUnknownPacket; exact State.runDev_next s _
theorem rdPacket_next (l : Fin 32) (p : Packet) : ∃ t, execRdPacket l p s = .next t ∧ t.pending = s.pending := by unfold execRdPacket; exact State.run_next s _
theorem wrPacket_next (l : Fin 32) (p : Packet) : ∃ t, execWrPacket l p s = .next t ∧ t.pending = s.pending := by unfold execWrPacket; exact State.run_next s _
theorem atPacket_next (l : Fin 32) (p : Packet) : ∃ t, execAtPacket l p s = .next t ∧ t.pending = s.pending := by unfold execAtPacket; exact State.run_next s _
theorem rdrPacket_next (l : Fin 32) (p : Packet) : ∃ t, execRdrPacket l p s = .next t ∧ t.pending = s.pending := by unfold execRdrPacket; exact State.run_next s _
theorem wackPacket_next (l : Fin 32) (p : Packet) : ∃ t, execWackPacket l p s = .next t ∧ t.pending = s.pending := by unfold execWackPacket; exact State.run_next s _
theorem collPacket_next (l : Fin 32) (p : Packet) : ∃ t, execCollPacket l p s = .next t ∧ t.pending = s.pending := by unfold execCollPacket; exact State.run_next s _
theorem cautionNotice_next (l : Fin 32) (p : Packet) : ∃ t, execCautionNotice l p s = .next t ∧ t.pending = s.pending := by unfold execCautionNotice; exact State.runDev_next s _
theorem peerLate_next (l : Fin 32) (p : Packet) : ∃ t, execPeerLate l p s = .next t ∧ t.pending = s.pending := by unfold execPeerLate; exact State.run_next s _
theorem abandon_next (l : Fin 32) (p : Packet) : ∃ t, execAbandon l p s = .next t ∧ t.pending = s.pending := by unfold execAbandon; exact State.run_next s _
theorem memoryRead_next (a : BitVec 52) (n : Nat) (src : BitVec 16) (part : Option (Fin 16)) (tag : Nat) (die : Fin 5) : ∃ t, execMemoryRead a n src part tag die s = .next t ∧ t.pending = s.pending := by unfold execMemoryRead; exact State.run_next s _
theorem memoryWrite_next (a : BitVec 52) (src : BitVec 16) (part : Option (Fin 16)) (data : List Byte) (poison : List Bool) (mask : List Bool) : ∃ t, execMemoryWrite a src part data poison mask s = .next t ∧ t.pending = s.pending := by unfold execMemoryWrite; exact State.runBoth_next s _
theorem correctionWriteback_next (a : BitVec 52) : ∃ t, execCorrectionWriteback a s = .next t ∧ t.pending = s.pending := by unfold execCorrectionWriteback; exact State.runDev_next s _
theorem mergeEvict_next (k : Fin 12) : ∃ t, execMergeEvict k s = .next t ∧ t.pending = s.pending := by unfold execMergeEvict; exact State.runDev_next s _
theorem msMerge_next (a : BitVec 52) (src : BitVec 16) (part : Option (Fin 16)) (data : List Byte) (poison : List Bool) (mask : List Bool) : ∃ t, execMsMerge a src part data poison mask s = .next t ∧ t.pending = s.pending := by unfold execMsMerge; exact State.run_next s _
theorem msAddFp32_next (a : BitVec 52) (src : BitVec 16) (part : Option (Fin 16)) (data : List Byte) (poison : List Bool) (mask : List Bool) : ∃ t, execMsAddFp32 a src part data poison mask s = .next t ∧ t.pending = s.pending := by unfold execMsAddFp32; exact State.run_next s _
theorem msAddBf16_next (a : BitVec 52) (src : BitVec 16) (part : Option (Fin 16)) (data : List Byte) (poison : List Bool) (mask : List Bool) : ∃ t, execMsAddBf16 a src part data poison mask s = .next t ∧ t.pending = s.pending := by unfold execMsAddBf16; exact State.run_next s _
theorem msAddInt32_next (a : BitVec 52) (src : BitVec 16) (part : Option (Fin 16)) (data : List Byte) (poison : List Bool) (mask : List Bool) : ∃ t, execMsAddInt32 a src part data poison mask s = .next t ∧ t.pending = s.pending := by unfold execMsAddInt32; exact State.run_next s _
theorem msAddInt64_next (a : BitVec 52) (src : BitVec 16) (part : Option (Fin 16)) (data : List Byte) (poison : List Bool) (mask : List Bool) : ∃ t, execMsAddInt64 a src part data poison mask s = .next t ∧ t.pending = s.pending := by unfold execMsAddInt64; exact State.run_next s _
theorem msMaxFp32_next (a : BitVec 52) (src : BitVec 16) (part : Option (Fin 16)) (data : List Byte) (poison : List Bool) (mask : List Bool) : ∃ t, execMsMaxFp32 a src part data poison mask s = .next t ∧ t.pending = s.pending := by unfold execMsMaxFp32; exact State.run_next s _
theorem msMinFp32_next (a : BitVec 52) (src : BitVec 16) (part : Option (Fin 16)) (data : List Byte) (poison : List Bool) (mask : List Bool) : ∃ t, execMsMinFp32 a src part data poison mask s = .next t ∧ t.pending = s.pending := by unfold execMsMinFp32; exact State.run_next s _
theorem msMaxBf16_next (a : BitVec 52) (src : BitVec 16) (part : Option (Fin 16)) (data : List Byte) (poison : List Bool) (mask : List Bool) : ∃ t, execMsMaxBf16 a src part data poison mask s = .next t ∧ t.pending = s.pending := by unfold execMsMaxBf16; exact State.run_next s _
theorem msMinBf16_next (a : BitVec 52) (src : BitVec 16) (part : Option (Fin 16)) (data : List Byte) (poison : List Bool) (mask : List Bool) : ∃ t, execMsMinBf16 a src part data poison mask s = .next t ∧ t.pending = s.pending := by unfold execMsMinBf16; exact State.run_next s _
theorem msMaxInt32_next (a : BitVec 52) (src : BitVec 16) (part : Option (Fin 16)) (data : List Byte) (poison : List Bool) (mask : List Bool) : ∃ t, execMsMaxInt32 a src part data poison mask s = .next t ∧ t.pending = s.pending := by unfold execMsMaxInt32; exact State.run_next s _
theorem msMinInt32_next (a : BitVec 52) (src : BitVec 16) (part : Option (Fin 16)) (data : List Byte) (poison : List Bool) (mask : List Bool) : ∃ t, execMsMinInt32 a src part data poison mask s = .next t ∧ t.pending = s.pending := by unfold execMsMinInt32; exact State.run_next s _
theorem msMaxInt64_next (a : BitVec 52) (src : BitVec 16) (part : Option (Fin 16)) (data : List Byte) (poison : List Bool) (mask : List Bool) : ∃ t, execMsMaxInt64 a src part data poison mask s = .next t ∧ t.pending = s.pending := by unfold execMsMaxInt64; exact State.run_next s _
theorem msMinInt64_next (a : BitVec 52) (src : BitVec 16) (part : Option (Fin 16)) (data : List Byte) (poison : List Bool) (mask : List Bool) : ∃ t, execMsMinInt64 a src part data poison mask s = .next t ∧ t.pending = s.pending := by unfold execMsMinInt64; exact State.run_next s _
theorem msReservedOp_next (code : BitVec 4) (a : BitVec 52) (src : BitVec 16) (part : Option (Fin 16)) : ∃ t, execMsReservedOp code a src part s = .next t ∧ t.pending = s.pending := by unfold execMsReservedOp; exact State.run_next s _
theorem refresh_next (k : Fin 12) : ∃ t, execRefresh k s = .next t ∧ t.pending = s.pending := by unfold execRefresh; exact State.runDev_next s _
theorem scrubStep_next (n : Fin 80) : ∃ t, execScrubStep n s = .next t ∧ t.pending = s.pending := by unfold execScrubStep; exact State.run_next s _
theorem scrubLapOverdue_next (n : Fin 80) : ∃ t, execScrubLapOverdue n s = .next t ∧ t.pending = s.pending := by unfold execScrubLapOverdue; exact State.run_next s _
theorem stackTempReading_next (k : Fin 12) (temp : BitVec 8) : ∃ t, execStackTempReading k temp s = .next t ∧ t.pending = s.pending := by unfold execStackTempReading; exact State.run_next s _
theorem stackCoolExpiry_next (k : Fin 12) : ∃ t, execStackCoolExpiry k s = .next t ∧ t.pending = s.pending := by unfold execStackCoolExpiry; exact State.run_next s _
theorem retrainDueAge_next (k : Fin 12) (ch : Fin 16) : ∃ t, execRetrainDueAge k ch s = .next t ∧ t.pending = s.pending := by unfold execRetrainDueAge; exact State.run_next s _
theorem scheduledRetrainEnd_next (k : Fin 12) (ch : Fin 16) (lost : BitVec 2) (converged : Bool) : ∃ t, execScheduledRetrainEnd k ch lost converged s = .next t ∧ t.pending = s.pending := by unfold execScheduledRetrainEnd; exact State.run_next s _
theorem emergencyRetrainStart_next (k : Fin 12) (ch : Fin 16) : ∃ t, execEmergencyRetrainStart k ch s = .next t ∧ t.pending = s.pending := by unfold execEmergencyRetrainStart; exact State.run_next s _
theorem emergencyRetrainEnd_next (k : Fin 12) (ch : Fin 16) (lost : BitVec 2) (converged : Bool) : ∃ t, execEmergencyRetrainEnd k ch lost converged s = .next t ∧ t.pending = s.pending := by unfold execEmergencyRetrainEnd; exact State.run_next s _
theorem channelMapOut_next (k : Fin 12) : ∃ t, execChannelMapOut k s = .next t ∧ t.pending = s.pending := by unfold execChannelMapOut; exact State.run_next s _
theorem poisonFillDone_next (k : Fin 12) : ∃ t, execPoisonFillDone k s = .next t ∧ t.pending = s.pending := by unfold execPoisonFillDone; exact State.run_next s _
theorem regionZeroDone_next (n : Fin 80) (i : Fin 128) : ∃ t, execRegionZeroDone n i s = .next t ∧ t.pending = s.pending := by unfold execRegionZeroDone; exact State.run_next s _
theorem retireGo_next (f : Func) (n : Fin 80) (index : BitVec 16) (bank : Bool) : ∃ t, execRetireGo f n index bank s = .next t ∧ t.pending = s.pending := by unfold execRetireGo; exact State.runBoth_next s _
theorem capBankCopy_next (b : Fin 64) (i : Fin 32) : ∃ t, execCapBankCopy b i s = .next t ∧ t.pending = s.pending := by unfold execCapBankCopy; exact State.run_next s _
theorem capBankCopyDone_next (b : Fin 64) (i : Fin 32) : ∃ t, execCapBankCopyDone b i s = .next t ∧ t.pending = s.pending := by unfold execCapBankCopyDone; exact State.run_next s _
theorem injectGo_next (f : Func) (n : Fin 80) (offset : BitVec 37) (kind : BitVec 2) (store : Bool) : ∃ t, execInjectGo f n offset kind store s = .next t ∧ t.pending = s.pending := by unfold execInjectGo; exact State.runBoth_next s _
theorem injectApply_next (n : Fin 80) : ∃ t, execInjectApply n s = .next t ∧ t.pending = s.pending := by unfold execInjectApply; exact State.run_next s _
theorem drainQueuedStart_next (p : Fin 4) (q : Fin 16) : ∃ t, execDrainQueuedStart p q s = .next t ∧ t.pending = s.pending := by unfold execDrainQueuedStart; exact State.run_next s _
theorem drainComplete_next (p : Fin 4) (q : Fin 16) : ∃ t, execDrainComplete p q s = .next t ∧ t.pending = s.pending := by unfold execDrainComplete; exact State.run_next s _
theorem waybillSigned_next : ∃ t, execWaybillSigned s = .next t ∧ t.pending = s.pending := by unfold execWaybillSigned; exact State.run_next s _
theorem restoreGo_next (f : Func) (p : Fin 4) (q : Fin 16) (order : BitVec 52) : ∃ t, execRestoreGo f p q order s = .next t ∧ t.pending = s.pending := by unfold execRestoreGo; exact State.runBoth_next s _
theorem restoreComplete_next (p : Fin 4) (q : Fin 16) : ∃ t, execRestoreComplete p q s = .next t ∧ t.pending = s.pending := by unfold execRestoreComplete; exact State.run_next s _
theorem quoteGo_next (f : Func) (buf : BitVec 52) : ∃ t, execQuoteGo f buf s = .next t ∧ t.pending = s.pending := by unfold execQuoteGo; exact State.runBoth_next s _
theorem quoteDone_next : ∃ t, execQuoteDone s = .next t ∧ t.pending = s.pending := by unfold execQuoteDone; exact State.run_next s _
theorem repairRecordWrite_next : ∃ t, execRepairRecordWrite s = .next t ∧ t.pending = s.pending := by unfold execRepairRecordWrite; exact State.runDev_next s _
theorem repairRecordDone_next : ∃ t, execRepairRecordDone s = .next t ∧ t.pending = s.pending := by unfold execRepairRecordDone; exact State.runDev_next s _
theorem streamRun_next (f : Func) (b : Fin 64) (i : Fin 3) (start : W32) : ∃ t, execStreamRun f b i start s = .next t ∧ t.pending = s.pending := by unfold execStreamRun; exact State.runBoth_next s _
theorem streamHalt_next (f : Func) (b : Fin 64) (i : Fin 3) (start : W32) : ∃ t, execStreamHalt f b i start s = .next t ∧ t.pending = s.pending := by unfold execStreamHalt; exact State.runBoth_next s _
theorem tokenSet_next (f : Func) (b : Fin 64) (mask : W64) : ∃ t, execTokenSet f b mask s = .next t ∧ t.pending = s.pending := by unfold execTokenSet; exact State.runBoth_next s _
theorem tokenClear_next (f : Func) (b : Fin 64) (mask : W64) : ∃ t, execTokenClear f b mask s = .next t ∧ t.pending = s.pending := by unfold execTokenClear; exact State.runBoth_next s _
theorem permOorClear_next (f : Func) (b : Fin 64) (i : Fin 3) : ∃ t, execPermOorClear f b i s = .next t ∧ t.pending = s.pending := by unfold execPermOorClear; exact State.runBoth_next s _
theorem hostConfigWrite_next (f : Func) (b : Fin 64) (i : Fin 3) (g : Fin 8) (fi : Fin 3) (v : W64) : ∃ t, execHostConfigWrite f b i g fi v s = .next t ∧ t.pending = s.pending := by unfold execHostConfigWrite; exact State.runBoth_next s _
theorem hostDescriptorWrite_next (f : Func) (b : Fin 64) (i : Fin 3) (slot : Fin 256) (wi : Fin 8) (v : W64) : ∃ t, execHostDescriptorWrite f b i slot wi v s = .next t ∧ t.pending = s.pending := by unfold execHostDescriptorWrite; exact State.runBoth_next s _
theorem qcntClear_next (f : Func) (b : Fin 64) : ∃ t, execQcntClear f b s = .next t ∧ t.pending = s.pending := by unfold execQcntClear; exact State.runBoth_next s _
theorem mxCounterClear_next (f : Func) (b : Fin 64) : ∃ t, execMxCounterClear f b s = .next t ∧ t.pending = s.pending := by unfold execMxCounterClear; exact State.runBoth_next s _
theorem vecCounterClear_next (f : Func) (b : Fin 64) : ∃ t, execVecCounterClear f b s = .next t ∧ t.pending = s.pending := by unfold execVecCounterClear; exact State.runBoth_next s _
theorem ptsCounterClear_next (f : Func) (p : Fin 4) : ∃ t, execPtsCounterClear f p s = .next t ∧ t.pending = s.pending := by unfold execPtsCounterClear; exact State.runBoth_next s _
theorem updCounterClear_next (f : Func) (p : Fin 4) : ∃ t, execUpdCounterClear f p s = .next t ∧ t.pending = s.pending := by unfold execUpdCounterClear; exact State.runBoth_next s _
theorem hbmCounterClear_next (f : Func) (k : Fin 12) : ∃ t, execHbmCounterClear f k s = .next t ∧ t.pending = s.pending := by unfold execHbmCounterClear; exact State.runBoth_next s _
theorem eccCounterClear_next (f : Func) (n : Fin 80) : ∃ t, execEccCounterClear f n s = .next t ∧ t.pending = s.pending := by unfold execEccCounterClear; exact State.runBoth_next s _
theorem eccLogClear_next (f : Func) (n : Fin 80) : ∃ t, execEccLogClear f n s = .next t ∧ t.pending = s.pending := by unfold execEccLogClear; exact State.runBoth_next s _
theorem lnkCounterClear_next (f : Func) (l : Fin 32) : ∃ t, execLnkCounterClear f l s = .next t ∧ t.pending = s.pending := by unfold execLnkCounterClear; exact State.runBoth_next s _
theorem pwrCounterClear_next (f : Func) : ∃ t, execPwrCounterClear f s = .next t ∧ t.pending = s.pending := by unfold execPwrCounterClear; exact State.runBoth_next s _
theorem wbCounterClear_next (f : Func) (p : Fin 4) : ∃ t, execWbCounterClear f p s = .next t ∧ t.pending = s.pending := by unfold execWbCounterClear; exact State.runBoth_next s _
theorem holeClr_next (f : Func) : ∃ t, execHoleClr f s = .next t ∧ t.pending = s.pending := by unfold execHoleClr; exact State.runBoth_next s _
theorem ttSyncWrite_next (f : Func) (v : W64) : ∃ t, execTtSyncWrite f v s = .next t ∧ t.pending = s.pending := by unfold execTtSyncWrite; exact State.runBoth_next s _
theorem pwrCapWrite_next (f : Func) (v : W64) : ∃ t, execPwrCapWrite f v s = .next t ∧ t.pending = s.pending := by unfold execPwrCapWrite; exact State.runBoth_next s _
theorem hbmRegWrite_next (f : Func) (k : Fin 12) (q : Fin 16) (v : W64) : ∃ t, execHbmRegWrite f k q v s = .next t ∧ t.pending = s.pending := by unfold execHbmRegWrite; exact State.runBoth_next s _
theorem bondPartWrite_next (f : Func) (q : Fin 16) (wi : Fin 2) (v : W64) : ∃ t, execBondPartWrite f q wi v s = .next t ∧ t.pending = s.pending := by unfold execBondPartWrite; exact State.runBoth_next s _
theorem bondSegWrite_next (f : Func) (q : Fin 16) (i : Fin 32) (wi : Fin 2) (v : W64) : ∃ t, execBondSegWrite f q i wi v s = .next t ∧ t.pending = s.pending := by unfold execBondSegWrite; exact State.runBoth_next s _
theorem segmentZeroDone_next (q : Fin 16) (i : Fin 32) : ∃ t, execSegmentZeroDone q i s = .next t ∧ t.pending = s.pending := by unfold execSegmentZeroDone; exact State.run_next s _
theorem bondPlatWrite_next (f : Func) (q : Fin 16) (wi : Fin 4) (v : W64) : ∃ t, execBondPlatWrite f q wi v s = .next t ∧ t.pending = s.pending := by unfold execBondPlatWrite; exact State.runBoth_next s _
theorem bondHwinWrite_next (f : Func) (p : Fin 4) (i : Fin 64) (v : W64) : ∃ t, execBondHwinWrite f p i v s = .next t ∧ t.pending = s.pending := by unfold execBondHwinWrite; exact State.runBoth_next s _
theorem bondPortWrite_next (f : Func) (p : Fin 4) (v : W64) : ∃ t, execBondPortWrite f p v s = .next t ∧ t.pending = s.pending := by unfold execBondPortWrite; exact State.runBoth_next s _
theorem updWbWrite_next (f : Func) (p : Fin 4) (q : Fin 16) (v : W64) : ∃ t, execUpdWbWrite f p q v s = .next t ∧ t.pending = s.pending := by unfold execUpdWbWrite; exact State.runBoth_next s _
theorem repairClear_next (f : Func) : ∃ t, execRepairClear f s = .next t ∧ t.pending = s.pending := by unfold execRepairClear; exact State.runBoth_next s _
theorem registerWrite_next (f : Func) (o : W32) (v : W64) : ∃ t, execRegisterWrite f o v s = .next t ∧ t.pending = s.pending := by unfold execRegisterWrite; exact State.runBoth_next s _
theorem bar0Access_next (f : Func) (o : W32) (data : Option (W64 × Bool)) : ∃ t, execBar0Access f o data s = .next t ∧ t.pending = s.pending := by unfold execBar0Access; exact State.runBoth_next s _
theorem bar2Access_next (f : Func) (o : W64) (n : Nat) (data : Option (List Byte)) (ep : Bool) : ∃ t, execBar2Access f o n data ep s = .next t ∧ t.pending = s.pending := by unfold execBar2Access; exact State.run_next s _
theorem configRequest_next (f : Func) (c : CfgReq) : ∃ t, execConfigRequest f c s = .next t ∧ t.pending = s.pending := by unfold execConfigRequest; exact State.runDev_next s _
theorem functionLevelReset_next (f : Func) : ∃ t, execFunctionLevelReset f s = .next t ∧ t.pending = s.pending := by unfold execFunctionLevelReset; exact State.run_next s _
theorem perst_next (port : Fin 4) (low : Bool) : ∃ t, execPerst port low s = .next t ∧ t.pending = s.pending := by unfold execPerst; exact State.runDev_next s _
theorem entdaa_next (chainIn : Bool) (da : BitVec 7) : ∃ t, execEntdaa chainIn da s = .next t ∧ t.pending = s.pending := by unfold execEntdaa; exact State.runDev_next s _
theorem rstdaa_next : ∃ t, execRstdaa s = .next t ∧ t.pending = s.pending := by unfold execRstdaa; exact State.runDev_next s _
theorem setnewda_next (da : BitVec 7) : ∃ t, execSetnewda da s = .next t ∧ t.pending = s.pending := by unfold execSetnewda; exact State.runDev_next s _
theorem getpid_next : ∃ t, execGetpid s = .next t ∧ t.pending = s.pending := by unfold execGetpid; exact State.runDev_next s _
theorem getbcr_next : ∃ t, execGetbcr s = .next t ∧ t.pending = s.pending := by unfold execGetbcr; exact State.runDev_next s _
theorem getdcr_next : ∃ t, execGetdcr s = .next t ∧ t.pending = s.pending := by unfold execGetdcr; exact State.runDev_next s _
theorem getstatus_next : ∃ t, execGetstatus s = .next t ∧ t.pending = s.pending := by unfold execGetstatus; exact State.runDev_next s _
theorem getmwl_next : ∃ t, execGetmwl s = .next t ∧ t.pending = s.pending := by unfold execGetmwl; exact State.runDev_next s _
theorem getmrl_next : ∃ t, execGetmrl s = .next t ∧ t.pending = s.pending := by unfold execGetmrl; exact State.runDev_next s _
theorem enec_next (intr : Bool) : ∃ t, execEnec intr s = .next t ∧ t.pending = s.pending := by unfold execEnec; exact State.runDev_next s _
theorem disec_next (intr : Bool) : ∃ t, execDisec intr s = .next t ∧ t.pending = s.pending := by unfold execDisec; exact State.runDev_next s _
theorem i3cRead_next (a : W64) (words : Nat) : ∃ t, execI3cRead a words s = .next t ∧ t.pending = s.pending := by unfold execI3cRead; exact State.run_next s _
theorem i3cWrite_next (a : W64) (ws : List W64) : ∃ t, execI3cWrite a ws s = .next t ∧ t.pending = s.pending := by unfold execI3cWrite; exact State.runBoth_next s _
theorem i3cQuote_next (nonce : List Byte) : ∃ t, execI3cQuote nonce s = .next t ∧ t.pending = s.pending := by unfold execI3cQuote; exact State.runDev_next s _
theorem ferase_next (o : W32) : ∃ t, execFerase o s = .next t ∧ t.pending = s.pending := by unfold execFerase; exact State.runDev_next s _
theorem fprog_next (o : W32) (data : List Byte) : ∃ t, execFprog o data s = .next t ∧ t.pending = s.pending := by unfold execFprog; exact State.runDev_next s _
theorem i3cPrivateRead_next : ∃ t, execI3cPrivateRead s = .next t ∧ t.pending = s.pending := by unfold execI3cPrivateRead; exact State.runDev_next s _
theorem vinRise_next : ∃ t, execVinRise s = .next t ∧ t.pending = s.pending := by unfold execVinRise; exact State.runDev_next s _
theorem pwrEnRise_next : ∃ t, execPwrEnRise s = .next t ∧ t.pending = s.pending := by unfold execPwrEnRise; exact State.runDev_next s _
theorem powerGood_next : ∃ t, execPowerGood s = .next t ∧ t.pending = s.pending := by unfold execPowerGood; exact State.runBoth_next s _
theorem pwrEnFall_next : ∃ t, execPwrEnFall s = .next t ∧ t.pending = s.pending := by unfold execPwrEnFall; exact State.run_next s _
theorem resetN_next (low : Bool) : ∃ t, execResetN low s = .next t ∧ t.pending = s.pending := by unfold execResetN; exact State.runBoth_next s _
theorem romDone_next (sig0 : Bool) (sig1 : Bool) : ∃ t, execRomDone sig0 sig1 s = .next t ∧ t.pending = s.pending := by unfold execRomDone; exact State.runDev_next s _
theorem imagesDone_next (puf : Bool) : ∃ t, execImagesDone puf s = .next t ∧ t.pending = s.pending := by unfold execImagesDone; exact State.runDev_next s _
theorem selftestDone_next (found : Findings) : ∃ t, execSelftestDone found s = .next t ∧ t.pending = s.pending := by unfold execSelftestDone; exact State.run_next s _
theorem published_next : ∃ t, execPublished s = .next t ∧ t.pending = s.pending := by unfold execPublished; exact State.run_next s _
theorem vinSample_next (mv : Nat) : ∃ t, execVinSample mv s = .next t ∧ t.pending = s.pending := by unfold execVinSample; exact State.run_next s _
theorem vinCaution_next : ∃ t, execVinCaution s = .next t ∧ t.pending = s.pending := by unfold execVinCaution; exact State.run_next s _
theorem vinRideExpiry_next : ∃ t, execVinRideExpiry s = .next t ∧ t.pending = s.pending := by unfold execVinRideExpiry; exact State.run_next s _
theorem protectiveStop_next : ∃ t, execProtectiveStop s = .next t ∧ t.pending = s.pending := by unfold execProtectiveStop; exact State.run_next s _
theorem shaperTick_next (work : Nat) (gated : Nat) : ∃ t, execShaperTick work gated s = .next t ∧ t.pending = s.pending := by unfold execShaperTick; exact State.run_next s _
theorem voltageStep_next (rail : Fin 9) (pass : Nat) (safe : Nat) : ∃ t, execVoltageStep rail pass safe s = .next t ∧ t.pending = s.pending := by unfold execVoltageStep; exact State.run_next s _
theorem droopEvent_next (p : Fin 4) (bays : BitVec 16) : ∃ t, execDroopEvent p bays s = .next t ∧ t.pending = s.pending := by unfold execDroopEvent; exact State.run_next s _
theorem dieTempReading_next (temp : Nat) : ∃ t, execDieTempReading temp s = .next t ∧ t.pending = s.pending := by unfold execDieTempReading; exact State.run_next s _
theorem dieCoolExpiry_next : ∃ t, execDieCoolExpiry s = .next t ∧ t.pending = s.pending := by unfold execDieCoolExpiry; exact State.run_next s _
theorem vinStableExpiry_next : ∃ t, execVinStableExpiry s = .next t ∧ t.pending = s.pending := by unfold execVinStableExpiry; exact State.run_next s _
theorem lrefEdge_next : ∃ t, execLrefEdge s = .next t ∧ t.pending = s.pending := by unfold execLrefEdge; exact State.runTime_next s _
theorem pcieRetrain_next (port : Fin 4) (width : Nat) (rate : Nat) : ∃ t, execPcieRetrain port width rate s = .next t ∧ t.pending = s.pending := by unfold execPcieRetrain; exact State.runDev_next s _
theorem pcieCompletion_next (port : Fin 4) (tag : Nat) (ep : Bool) (data : List Byte) : ∃ t, execPcieCompletion port tag ep data s = .next t ∧ t.pending = s.pending := by unfold execPcieCompletion; exact State.run_next s _
theorem railsOff_next : ∃ t, execRailsOff s = .next t ∧ t.pending = s.pending := by unfold execRailsOff; exact State.runDev_next s _

end Sys2Proof.Machine
end

