-- ==== Sys2Proof/Laws/Memory.lean ====
section
/-! SUPPORT. Memory: what a byte reads as after a write, and that every operation keeps the canonical form. -/

namespace Sys2Proof.Machine

/-! ### Ascending keys -/

theorem ascending_iff (l : List Nat) : ascending l = true ↔ l.Pairwise (· < ·) := by
  induction l with
  | nil => simp [ascending]
  | cons a rest ih =>
    cases rest with
    | nil => simp [ascending]
    | cons b rest =>
      simp only [ascending, Bool.and_eq_true, decide_eq_true_eq, ih, List.pairwise_cons, List.mem_cons]
      constructor
      · rintro ⟨hab, hb, hp⟩
        refine ⟨?_, hb, hp⟩
        rintro x (rfl | hx)
        · exact hab
        · exact Nat.lt_trans hab (hb x hx)
      · rintro ⟨ha, hb, hp⟩
        exact ⟨ha b (Or.inl rfl), hb, hp⟩

theorem ascending_filter {l : List Nat} (p : Nat → Bool) (h : ascending l = true) : ascending (l.filter p) = true := by
  rw [ascending_iff] at h ⊢
  exact h.filter p

theorem pairwise_setInsert {s : List Nat} (k : Nat) (h : s.Pairwise (· < ·)) : (setInsert k s).Pairwise (· < ·) := by
  induction s with
  | nil => simp [setInsert]
  | cons a rest ih =>
    unfold setInsert
    rw [List.pairwise_cons] at h
    split
    · rename_i hk
      rw [List.pairwise_cons, List.pairwise_cons]
      refine ⟨?_, h⟩
      intro x hx
      rcases List.mem_cons.mp hx with rfl | hx
      · exact hk
      · exact Nat.lt_trans hk (h.1 x hx)
    · split
      · exact List.pairwise_cons.mpr h
      · rw [List.pairwise_cons]
        refine ⟨?_, ih h.2⟩
        intro x hx
        rcases (mem_setInsert rest k x).mp hx with rfl | hx
        · omega
        · exact h.1 x hx

theorem ascending_setPut {s : List Nat} (k : Nat) (b : Bool) (h : ascending s = true) : ascending (setPut s k b) = true := by
  cases b
  · exact ascending_filter _ h
  · rw [ascending_iff] at h ⊢
    exact pairwise_setInsert k h

variable {α : Type}

theorem mem_keys_tabInsert (t : List (Nat × α)) (k j : Nat) (v : α) :
    j ∈ (tabInsert k v t).map (·.1) ↔ j = k ∨ j ∈ t.map (·.1) := by
  induction t with
  | nil => simp [tabInsert]
  | cons e rest ih =>
    unfold tabInsert
    split
    · simp
    · simp only [List.map_cons, List.mem_cons, ih]; grind

theorem pairwise_tabInsert {t : List (Nat × α)} (k : Nat) (v : α) (h : (t.map (·.1)).Pairwise (· < ·))
    (hk : k ∉ t.map (·.1)) : ((tabInsert k v t).map (·.1)).Pairwise (· < ·) := by
  induction t with
  | nil => simp [tabInsert]
  | cons e rest ih =>
    unfold tabInsert
    simp only [List.map_cons, List.pairwise_cons, List.mem_cons, not_or] at h hk
    split
    · rename_i hlt
      simp only [List.map_cons, List.pairwise_cons, List.mem_cons]
      refine ⟨?_, h⟩
      rintro x (rfl | hx)
      · exact hlt
      · exact Nat.lt_trans hlt (h.1 x hx)
    · simp only [List.map_cons, List.pairwise_cons]
      refine ⟨?_, ih h.2 hk.2⟩
      intro x hx
      rcases (mem_keys_tabInsert rest k x v).mp hx with rfl | hx
      · omega
      · exact h.1 x hx

theorem keys_filter (t : List (Nat × α)) (p : Nat → Bool) :
    (t.filter (fun e => p e.1)).map (·.1) = (t.map (·.1)).filter p := by
  induction t with
  | nil => rfl
  | cons e rest ih =>
    by_cases h : p e.1 <;> simp [h, ih]

theorem ascending_tabSet [DecidableEq α] (d : α) {t : List (Nat × α)} (k : Nat) (v : α)
    (h : ascending (t.map (·.1)) = true) : ascending ((tabSet d t k v).map (·.1)) = true := by
  rw [ascending_iff] at h ⊢
  unfold tabSet
  have hf : ((t.filter (fun e => e.1 != k)).map (·.1)).Pairwise (· < ·) := by
    rw [keys_filter t (fun x => x != k)]; exact h.filter _
  split
  · exact hf
  · refine pairwise_tabInsert k v hf ?_
    rw [keys_filter t (fun x => x != k)]
    simp

theorem all_tabInsert (t : List (Nat × α)) (k : Nat) (v : α) (p : α → Bool) :
    (tabInsert k v t).all (fun e => p e.2) = (p v && t.all (fun e => p e.2)) := by
  induction t with
  | nil => simp [tabInsert]
  | cons e rest ih =>
    unfold tabInsert
    split
    · simp
    · simp only [List.all_cons, ih]
      cases p e.2 <;> cases p v <;> simp

theorem all_tabSet [DecidableEq α] (d : α) {t : List (Nat × α)} (k : Nat) (v : α)
    (h : t.all (fun e => e.2 != d) = true) : (tabSet d t k v).all (fun e => e.2 != d) = true := by
  have hf : (t.filter (fun e => e.1 != k)).all (fun e => e.2 != d) = true := by
    rw [List.all_eq_true] at h ⊢
    exact fun e he => h e (List.mem_filter.mp he).1
  unfold tabSet
  split
  · exact hf
  · rename_i hv
    rw [all_tabInsert _ k v (fun x => x != d), hf]
    simpa using hv

/-! ### Ranges -/

/-- The ranges are non-empty, ascending and disjoint. -/
theorem rangesWf_iff (l : List (Nat × Nat)) :
    rangesWf l = true ↔ (∀ r ∈ l, r.1 < r.2) ∧ l.Pairwise (fun r s => r.2 ≤ s.1) := by
  induction l with
  | nil => simp [rangesWf]
  | cons a rest ih =>
    cases rest with
    | nil => simp [rangesWf]
    | cons b rest =>
      simp only [rangesWf, Bool.and_eq_true, decide_eq_true_eq, ih, List.pairwise_cons, List.mem_cons, forall_eq_or_imp]
      constructor
      · rintro ⟨⟨ha, hab⟩, ⟨hb, hr⟩, hbp, hp⟩
        refine ⟨⟨ha, hb, hr⟩, ⟨hab, ?_⟩, hbp, hp⟩
        intro x hx
        have := hbp x hx
        omega
      · rintro ⟨⟨ha, hb, hr⟩, ⟨hab, hax⟩, hbp, hp⟩
        exact ⟨⟨ha, hab⟩, ⟨hb, hr⟩, hbp, hp⟩

/-- A range of what is left after a cut lies inside an old range and outside what was cut. -/
theorem mem_rangesCut {lo hi : Nat} {l : List (Nat × Nat)} {x : Nat × Nat} (hx : x ∈ rangesCut lo hi l) :
    x.1 < x.2 ∧ (x.2 ≤ lo ∨ hi ≤ x.1) ∧ ∃ r ∈ l, r.1 ≤ x.1 ∧ x.2 ≤ r.2 := by
  induction l with
  | nil => simp [rangesCut] at hx
  | cons r rest ih =>
    simp only [rangesCut, List.mem_append] at hx
    rcases hx with (hx | hx) | hx
    · split at hx
      · simp only [List.mem_singleton] at hx
        subst hx
        refine ⟨by assumption, Or.inl (Nat.min_le_right _ _), r, by simp, Nat.le_refl _, Nat.min_le_left _ _⟩
      · simp at hx
    · split at hx
      · simp only [List.mem_singleton] at hx
        subst hx
        refine ⟨by assumption, Or.inr (Nat.le_max_right _ _), r, by simp, Nat.le_max_left _ _, Nat.le_refl _⟩
      · simp at hx
    · obtain ⟨h1, h2, y, hy, h3⟩ := ih hx
      exact ⟨h1, h2, y, by simp [hy], h3⟩

theorem pairwise_rangesCut {lo hi : Nat} (hlh : lo ≤ hi) {l : List (Nat × Nat)} (h : l.Pairwise (fun r s => r.2 ≤ s.1)) :
    (rangesCut lo hi l).Pairwise (fun r s => r.2 ≤ s.1) := by
  induction l with
  | nil => simp [rangesCut]
  | cons r rest ih =>
    rw [List.pairwise_cons] at h
    have hr : ∀ x ∈ rangesCut lo hi rest, r.2 ≤ x.1 := by
      intro x hx
      obtain ⟨_, _, y, hy, h3, _⟩ := mem_rangesCut hx
      have := h.1 y hy
      omega
    simp only [rangesCut]
    rw [List.pairwise_append]
    refine ⟨?_, ih h.2, ?_⟩
    · split <;> split <;> simp_all
    · intro a ha b hb
      have := hr b hb
      rcases List.mem_append.mp ha with ha | ha <;> split at ha <;> simp at ha <;> subst ha <;> simp <;> omega

theorem mem_rangesPut (lo hi : Nat) (l : List (Nat × Nat)) (x : Nat × Nat) :
    x ∈ rangesPut lo hi l ↔ x = (lo, hi) ∨ x ∈ l := by
  induction l with
  | nil => simp [rangesPut]
  | cons r rest ih =>
    unfold rangesPut
    split
    · simp
    · simp only [List.mem_cons, ih]; grind

theorem pairwise_rangesPut {lo hi : Nat} (hlh : lo < hi) {l : List (Nat × Nat)} (h : l.Pairwise (fun r s => r.2 ≤ s.1))
    (hd : ∀ r ∈ l, r.1 < r.2 ∧ (r.2 ≤ lo ∨ hi ≤ r.1)) : (rangesPut lo hi l).Pairwise (fun r s => r.2 ≤ s.1) := by
  induction l with
  | nil => simp [rangesPut]
  | cons r rest ih =>
    rw [List.pairwise_cons] at h
    have h0 := hd r (by simp)
    unfold rangesPut
    split
    · rw [List.pairwise_cons, List.pairwise_cons]
      refine ⟨?_, h⟩
      intro x hx
      have hx' := hd x hx
      rcases List.mem_cons.mp hx with rfl | hx
      · simp; omega
      · have := h.1 x hx
        simp; omega
    · rw [List.pairwise_cons]
      refine ⟨?_, ih h.2 (fun x hx => hd x (by simp [hx]))⟩
      intro x hx
      rcases (mem_rangesPut lo hi rest x).mp hx with rfl | hx
      · simp; omega
      · exact h.1 x hx

/-! ### The canonical form is kept -/

theorem Memory.wf_put {m : Memory} (a : Nat) (v : Byte) (p : Bool) (h : m.wf = true) : (m.put a v p).wf = true := by
  simp only [Memory.wf, Memory.put, Bool.and_eq_true] at h ⊢
  obtain ⟨⟨⟨⟨⟨⟨h1, h2⟩, h3⟩, h4⟩, h5⟩, h6⟩, h7⟩ := h
  exact ⟨⟨⟨⟨⟨⟨ascending_tabSet 0 a _ h1, all_tabSet 0 a _ h2⟩, ascending_setPut a _ h3⟩, h4⟩, ascending_tabSet 0 a _ h5⟩,
    all_tabSet 0 a _ h6⟩, ascending_setPut a _ h7⟩

theorem Memory.wf_flip {m : Memory} (a mask : Nat) (h : m.wf = true) : (m.flip a mask).wf = true := by
  simp only [Memory.wf, Memory.flip, Bool.and_eq_true] at h ⊢
  obtain ⟨⟨⟨h1, h5⟩, h6⟩, h7⟩ := h
  exact ⟨⟨⟨h1, ascending_tabSet 0 a _ h5⟩, all_tabSet 0 a _ h6⟩, h7⟩

theorem Memory.wf_noteBack {m : Memory} (a : Nat) (v : Byte) (e : Nat) (h : m.wf = true) : (m.noteBack a v e).wf = true := by
  have hp := Memory.wf_put a v false h
  simp only [Memory.wf, Memory.noteBack, Bool.and_eq_true] at hp ⊢
  obtain ⟨⟨⟨h1, h5⟩, h6⟩, h7⟩ := hp
  exact ⟨⟨⟨h1, ascending_tabSet 0 a _ h5⟩, all_tabSet 0 a _ h6⟩, ascending_setPut a _ h7⟩

theorem Memory.wf_fix {m : Memory} (a : Nat) (h : m.wf = true) : (m.fix a).wf = true := by
  simp only [Memory.wf, Memory.fix, Bool.and_eq_true] at h ⊢
  obtain ⟨⟨⟨h1, h5⟩, h6⟩, h7⟩ := h
  exact ⟨⟨⟨h1, ascending_tabSet 0 a _ h5⟩, all_tabSet 0 a _ h6⟩, ascending_setPut a _ h7⟩

theorem Memory.wf_putAll {m : Memory} (a : Nat) (vs : List Byte) (ps ms : List Bool) (h : m.wf = true) :
    (m.putAll a vs ps ms).wf = true := by
  induction vs generalizing m a ps ms with
  | nil => exact h
  | cons v rest ih =>
    simp only [Memory.putAll]
    apply ih
    split
    · exact Memory.wf_put a v _ h
    · exact h

theorem all_filter {p q : Nat × α → Bool} {l : List (Nat × α)} (h : l.all p = true) : (l.filter q).all p = true := by
  rw [List.all_eq_true] at h ⊢
  exact fun e he => h e (List.mem_filter.mp he).1

theorem Memory.wf_fillRange {m : Memory} (lo n : Nat) (bad : Bool) (h : m.wf = true) : (m.fillRange lo n bad).wf = true := by
  simp only [Memory.wf, Bool.and_eq_true] at h
  obtain ⟨⟨⟨⟨⟨⟨h1, h2⟩, h3⟩, h4⟩, h5⟩, h6⟩, h7⟩ := h
  rw [rangesWf_iff] at h4
  simp only [Memory.wf, Memory.fillRange, Bool.and_eq_true]
  refine ⟨⟨⟨⟨⟨⟨?_, all_filter h2⟩, ascending_filter _ h3⟩, ?_⟩, ?_⟩, all_filter h6⟩, ascending_filter _ h7⟩
  · rw [keys_filter m.cells (fun a => decide (a < lo) || decide (lo + n ≤ a))]; exact ascending_filter _ h1
  · have hcut := pairwise_rangesCut (Nat.le_add_right lo n) h4.2
    have hmem : ∀ r ∈ rangesCut lo (lo + n) m.fills, r.1 < r.2 ∧ (r.2 ≤ lo ∨ lo + n ≤ r.1) :=
      fun r hr => ⟨(mem_rangesCut hr).1, (mem_rangesCut hr).2.1⟩
    rw [rangesWf_iff]
    split
    · rename_i hb
      simp only [decide_eq_true_eq] at hb
      refine ⟨?_, pairwise_rangesPut (by omega) hcut hmem⟩
      intro r hr
      rcases (mem_rangesPut _ _ _ r).mp hr with rfl | hr
      · simp; omega
      · exact (hmem r hr).1
    · exact ⟨fun r hr => (hmem r hr).1, hcut⟩
  · rw [keys_filter m.errs (fun a => decide (a < lo) || decide (lo + n ≤ a))]; exact ascending_filter _ h5

/-- A fold of steps that each keep the form keeps it. -/
theorem Memory.wf_foldl {β : Type} (g : Memory → β → Memory) (hg : ∀ m x, m.wf = true → (g m x).wf = true) (l : List β)
    (m : Memory) (h : m.wf = true) : (l.foldl g m).wf = true := by
  induction l generalizing m with
  | nil => exact h
  | cons x rest ih => exact ih _ (hg m x h)

theorem Memory.wf_combine {m : Memory} (code a : Nat) (data : List Byte) (poison mask : List Bool) (h : m.wf = true) :
    (m.combine code a data poison mask).wf = true := by
  unfold Memory.combine
  apply Memory.wf_foldl _ _ _ _ h
  intro m i hm
  simp only []
  split
  · exact Memory.wf_putAll _ _ _ _ hm
  · exact hm

/-! ### Reading after a write -/

/-- A byte after one byte has been written. -/
theorem Memory.byte_put (m : Memory) (a b : Nat) (v : Byte) (p : Bool) :
    (m.put a v p).byte b = if b = a then (if p then 0 else v) else m.byte b := by
  simp only [Memory.byte, Memory.put, tabGet_tabSet]

/-- Its poison bit. -/
theorem Memory.isPoison_put (m : Memory) (a b : Nat) (v : Byte) (p : Bool) :
    (m.put a v p).isPoison b = if b = a then p else m.isPoison b := by
  simp only [Memory.isPoison, Memory.put, contains_setPut, Memory.filled]
  by_cases h : b = a
  · subst h; simp only [if_true]; cases p <;> cases List.any m.fills _ <;> rfl
  · simp only [if_neg h]

/-- A byte below the first one written stays. -/
theorem Memory.byte_putAll_below (m : Memory) {a b : Nat} (vs : List Byte) (ps ms : List Bool) (h : b < a) :
    (m.putAll a vs ps ms).byte b = m.byte b := by
  induction vs generalizing m a ps ms with
  | nil => rfl
  | cons v rest ih =>
    simp only [Memory.putAll]
    rw [ih _ _ _ (by omega)]
    split
    · rw [Memory.byte_put, if_neg (by omega)]
    · rfl

/-- A byte past the last one written stays. -/
theorem Memory.byte_putAll_above (m : Memory) {a b : Nat} (vs : List Byte) (ps ms : List Bool) (h : a + vs.length ≤ b) :
    (m.putAll a vs ps ms).byte b = m.byte b := by
  induction vs generalizing m a ps ms with
  | nil => rfl
  | cons v rest ih =>
    simp only [List.length_cons] at h
    simp only [Memory.putAll]
    rw [ih _ _ _ (by omega)]
    split
    · rw [Memory.byte_put, if_neg (by omega)]
    · rfl

end Sys2Proof.Machine
end

