-- ==== Sys2Proof/Laws/Records.lean ====
section
/-! SUPPORT. What writing a record can do, said once: it stands among the records, later ones are what its ring writes gave rise to,
and nothing but the rings, the traffic of their requests and the jobs that wait has changed (R10 to R14, R441, R447, R448). -/

namespace Sys2Proof.Machine

/-! ### Updates that traffic makes -/

theorem map_vmod {α β : Type} {n : Nat} (v : Vector α n) (i : Nat) (f : α → α) (g : α → β) (h : ∀ x, g (f x) = g x) :
    (vmod v i f).map g = v.map g := by
  apply Vector.ext
  intro j hj
  simp only [vmod, Vector.getElem_map, Vector.getElem_ofFn]
  split <;> simp_all

theorem modMem_sansTraffic (d : Dev) (f : Memory → Memory) : (d.modMem f).sansTraffic = d.sansTraffic := rfl

theorem modStack_sansTraffic (d : Dev) (s : Nat) (f : Stack → Stack) (h : ∀ k, (f k).sansTraffic = k.sansTraffic) :
    (d.modStack s f).sansTraffic = d.sansTraffic := by
  simp only [Dev.sansTraffic, Dev.modStack, map_vmod _ _ _ _ h]

theorem modInteg_sansTraffic (d : Dev) (i : Nat) (f : Integ → Integ) (h : ∀ g, (f g).sansTraffic = g.sansTraffic) :
    (d.modInteg i f).sansTraffic = d.sansTraffic := by
  simp only [Dev.sansTraffic, Dev.modInteg, map_vmod _ _ _ _ h]

theorem modLink_sansTraffic (d : Dev) (l : Nat) (f : Link → Link) (h : ∀ k, (f k).sansTraffic = k.sansTraffic) :
    (d.modLink l f).sansTraffic = d.sansTraffic := by
  simp only [Dev.sansTraffic, Dev.modLink, map_vmod _ _ _ _ h]

theorem modPort_sansTraffic (d : Dev) (v : Nat) (f : Port → Port) (h : ∀ k, (f k).sansTraffic = k.sansTraffic) :
    (d.modPort v f).sansTraffic = d.sansTraffic := by
  simp only [Dev.sansTraffic, Dev.modPort, map_vmod _ _ _ _ h]

theorem modPart_sansTraffic (d : Dev) (q : Nat) (f : Part → Part) (h : ∀ p, (f p).sansTraffic = p.sansTraffic) :
    (d.modPart q f).sansTraffic = d.sansTraffic := by
  simp only [Dev.sansTraffic, Dev.modPart, map_vmod _ _ _ _ h]

theorem modRing_sansTraffic (d : Dev) (q r : Nat) (f : Part → Ring → Ring) :
    (d.modPart q (fun p => p.modRing r (f p))).sansTraffic = d.sansTraffic :=
  modPart_sansTraffic _ _ _ (fun _ => rfl)

/-- What every step of a fold keeps, the fold keeps. -/
theorem foldl_keeps {α β γ : Type} (g : β → γ) (f : β → α → β) (h : ∀ b x, g (f b x) = g b) (l : List α) (b : β) :
    g (l.foldl f b) = g b := by
  induction l generalizing b with
  | nil => rfl
  | cons x rest ih => rw [List.foldl_cons, ih, h]

theorem foldl_sansTraffic {α : Type} (f : Dev → α → Dev) (h : ∀ d x, (f d x).sansTraffic = d.sansTraffic) (l : List α) (d : Dev) :
    (l.foldl f d).sansTraffic = d.sansTraffic := foldl_keeps _ f h l d

theorem foldl_sansRings {α : Type} (f : Dev → α → Dev) (h : ∀ d x, (f d x).sansRings = d.sansRings) (l : List α) (d : Dev) :
    (l.foldl f d).sansRings = d.sansRings := foldl_keeps _ f h l d

theorem owe_sansTraffic (d : Dev) (q : Option Nat) (r : EvRec) : (d.owe q r).sansTraffic = d.sansTraffic := rfl

theorem foldl2_sansTraffic {α β : Type} (f : β × Dev → α → β × Dev) (h : ∀ a x, (f a x).2.sansTraffic = a.2.sansTraffic) (l : List α)
    (a : β × Dev) : (l.foldl f a).2.sansTraffic = a.2.sansTraffic := foldl_keeps (·.2.sansTraffic) f h l a

theorem touches_piece (xs : List Nat) (k : Stack) : (xs.foldl (fun k x => k.touch x) k).sansTraffic = k.sansTraffic :=
  foldl_keeps (·.sansTraffic) Stack.touch (fun _ _ => rfl) xs k

/-! ### Charges and meters -/

theorem draw_sansTraffic (k : OccKey) (c i n : Nat) (d : Dev) : (d.draw k c i n).sansTraffic = d.sansTraffic := by
  unfold Dev.draw
  split
  · rfl
  · refine modPart_sansTraffic _ _ _ (fun p => ?_)
    simp only [Part.sansTraffic, List.map_map]
    congr 1
    apply List.map_congr_left
    intro o _
    simp only [Function.comp]
    split
    · split <;> rfl
    · rfl

theorem regs_piece (k : Stack) (p : Nat) (f : Regulator → Regulator) (h : ∀ g, (f g).sansTraffic = g.sansTraffic) :
    ({ k with regs := vmod k.regs p f } : Stack).sansTraffic = k.sansTraffic := by
  simp only [Stack.sansTraffic, map_vmod _ _ _ _ h]

theorem chans_piece (k : Stack) (c : Nat) (f : Channel → Channel) (h : ∀ g, (f g).sansTraffic = g.sansTraffic) :
    ({ k with chans := vmod k.chans c f } : Stack).sansTraffic = k.sansTraffic := by
  simp only [Stack.sansTraffic, map_vmod _ _ _ _ h]

theorem chargeOne_sansTraffic (t : TimeUnit) (q : Req) (s a len n : Nat) (d : Dev) :
    (d.chargeOne t q s a len n).sansTraffic = d.sansTraffic := by
  have put (p u : Nat) : (d.modStack s (fun k =>
      { k with regs := vmod k.regs p (fun g => { g with level := g.now u - 5 * n, time := u }) })).sansTraffic = d.sansTraffic :=
    modStack_sansTraffic _ _ _ (fun k => regs_piece k p (fun g => { g with level := g.now u - 5 * n, time := u }) (fun _ => rfl))
  unfold Dev.chargeOne
  simp only
  split
  · exact draw_sansTraffic _ _ _ _ _
  · rfl
  · split
    · split
      · exact put _ _
      · exact modStack_sansTraffic _ _ _ (fun k => rfl)
    · split
      · rfl
      · split
        · exact put _ _
        · rfl

theorem chargeHbm_sansTraffic (t : TimeUnit) (q : Req) (s a n : Nat) (cost : Nat → Nat) (d : Dev) :
    (d.chargeHbm t q s a n cost).sansTraffic = d.sansTraffic :=
  foldl_sansTraffic _ (fun _ _ => chargeOne_sansTraffic _ _ _ _ _ _ _) _ _

theorem chargeBlock_sansTraffic (q : Req) (c i : Nat) (d : Dev) : (d.chargeBlock q c i).sansTraffic = d.sansTraffic := by
  unfold Dev.chargeBlock
  split
  · exact draw_sansTraffic _ _ _ _ _
  · rfl

/-! ### Errors -/

theorem logCorrection_sansTraffic (t : TimeUnit) (q : Option Nat) (k : IntegBlock) (a sym : Nat) (scrub : Bool) (c : Nat) (d : Dev) :
    (d.logCorrection t q k a sym scrub c).sansTraffic = d.sansTraffic := by
  unfold Dev.logCorrection
  simp only
  split
  · split
    · rw [owe_sansTraffic, modInteg_sansTraffic]
      intro g; simp only [Integ.sansTraffic]
    · rw [modInteg_sansTraffic]
      intro g; simp only [Integ.sansTraffic]
  · split
    · rw [owe_sansTraffic, modInteg_sansTraffic]
      intro g; simp only [Integ.sansTraffic]
    · rw [owe_sansTraffic, modInteg_sansTraffic]
      intro g; simp only [Integ.sansTraffic]

theorem corrected_sansTraffic (t : TimeUnit) (q : Option Nat) (k : IntegBlock) (a sym : Nat) (scrub : Bool) (c : Nat) (d : Dev) :
    (d.corrected t q k a sym scrub c).sansTraffic = d.sansTraffic := by
  unfold Dev.corrected
  rw [logCorrection_sansTraffic]
  exact modInteg_sansTraffic _ _ _ (fun _ => rfl)

theorem uncorrected_sansTraffic (q : Option Nat) (k : IntegBlock) (src : Nat) (es : List MemErr) (d : Dev) :
    (d.uncorrected q k src es).sansTraffic = d.sansTraffic := by
  unfold Dev.uncorrected
  split
  · rfl
  · rw [owe_sansTraffic]; exact modInteg_sansTraffic _ _ _ (fun _ => rfl)

theorem checkBytes_sansTraffic (t : TimeUnit) (q : Option Nat) (k : IntegBlock) (light scrub : Bool) (as : List Nat) (d : Dev) :
    (d.checkBytes t q k light scrub as).2.sansTraffic = d.sansTraffic := by
  induction as generalizing d with
  | nil => rfl
  | cons a rest ih =>
    simp only [Dev.checkBytes]
    split
    · rw [ih, corrected_sansTraffic, modMem_sansTraffic]
    · rw [ih, modMem_sansTraffic]
    · exact ih d

theorem dieReport_sansTraffic (t : TimeUnit) (s x : Nat) (light : Bool) (d : Dev) :
    (d.dieReport t s x light).2.sansTraffic = d.sansTraffic := by
  have h0 : (d.modStack s (fun k => { k with dies := tabSet 0 k.dies x 0 })).sansTraffic = d.sansTraffic :=
    modStack_sansTraffic _ _ _ (fun _ => rfl)
  have parity (n ch : Nat) : ((d.modStack s (fun k => { k with dies := tabSet 0 k.dies x 0 })).modStack s (fun k =>
      { k with chans := vmod k.chans ch (fun c => { c with parity := List.replicate n t.now ++ c.parity }) })).sansTraffic = d.sansTraffic := by
    rw [modStack_sansTraffic _ _ _ (fun k => chans_piece k ch (fun c => { c with parity := List.replicate n t.now ++ c.parity })
      (fun _ => rfl)), h0]
  unfold Dev.dieReport
  simp only
  split
  · rfl
  · refine (modInteg_sansTraffic _ _ _ ?_).trans h0
    intro g; simp only [Integ.sansTraffic]
  · exact h0
  · exact parity _ _
  · exact parity _ _

theorem checkSector_sansTraffic (t : TimeUnit) (q : Option Nat) (s : Nat) (scrub : Bool) (kind lost x : Nat) (d : Dev) :
    (d.checkSector t q s scrub kind lost x).2.sansTraffic = d.sansTraffic := by
  have hd := dieReport_sansTraffic t s x (d.isLight (d.regionAt x)) d
  unfold Dev.checkSector
  simp only
  split
  · rename_i h; rw [h] at hd; simpa [modMem_sansTraffic] using hd
  · rename_i h
    rw [h] at hd
    split
    · exact hd
    · split
      · rw [modStack_sansTraffic, corrected_sansTraffic, modMem_sansTraffic]
        · exact hd
        · intro k
          exact chans_piece (k.touch x) _ (fun c => { c with corr := t.now :: c.corr }) (fun _ => rfl)
      · simpa [modMem_sansTraffic] using hd
      · simpa [modMem_sansTraffic] using hd

theorem checkSectors_sansTraffic (t : TimeUnit) (q : Option Nat) (s : Nat) (scrub : Bool) (kind : Nat) (lost : Nat → Nat) (xs : List Nat)
    (d : Dev) : (d.checkSectors t q s scrub kind lost xs).2.sansTraffic = d.sansTraffic := by
  induction xs generalizing d with
  | nil => rfl
  | cons x rest ih => simp only [Dev.checkSectors]; rw [ih, checkSector_sansTraffic]

theorem checkWords_sansTraffic (t : TimeUnit) (q : Option Nat) (a n : Nat) (need : Nat → Bool) (scrub : Bool) (kind : Nat) (d : Dev) :
    (d.checkWords t q a n need scrub kind).2.sansTraffic = d.sansTraffic := by
  unfold Dev.checkWords
  simp only
  split
  · exact checkSectors_sansTraffic _ _ _ _ _ _ _ _
  · exact checkBytes_sansTraffic _ _ _ _ _ _ _
  · rfl

/-! ### Sending -/

theorem transmit_piece (k : Link) (p : Packet) : (k.transmit p).sansTraffic = k.sansTraffic := rfl

theorem sendAt_piece (k : Link) (me : BitVec 12) (x : Packet × Nat) (claimed : Bool) :
    (k.sendAt me x claimed).sansTraffic = k.sansTraffic := rfl

theorem chargePath_sansTraffic (l : Nat) (p : Packet) (d : Dev) : (d.chargePath l p).sansTraffic = d.sansTraffic := by
  unfold Dev.chargePath
  split
  · rfl
  · exact draw_sansTraffic _ _ _ _ _

theorem sendWaiting_sansTraffic (l fuel : Nat) (d : Dev) : (d.sendWaiting l fuel).sansTraffic = d.sansTraffic := by
  induction fuel generalizing d with
  | zero => rfl
  | succ fuel ih =>
    simp only [Dev.sendWaiting]
    split
    · rfl
    · split
      · rfl
      · rw [ih, modLink_sansTraffic _ _ _ (fun k => sendAt_piece k _ _ _)]
        split
        · exact chargePath_sansTraffic _ _ _
        · rfl

theorem service_sansTraffic (l : Nat) (d : Dev) : (d.service l).sansTraffic = d.sansTraffic := sendWaiting_sansTraffic _ _ _

theorem sendOn_sansTraffic (l : Nat) (p : Packet) (d : Dev) : (d.sendOn l p).sansTraffic = d.sansTraffic := by
  unfold Dev.sendOn
  split
  · rw [service_sansTraffic]; exact modLink_sansTraffic _ _ _ (fun _ => rfl)
  · exact modLink_sansTraffic _ _ _ (fun k => transmit_piece k p)

theorem sendRd_sansTraffic (q : Req) (l win base : Nat) (pc : Nat × Nat) (d : Dev) : (d.sendRd q l win base pc).sansTraffic = d.sansTraffic := by
  unfold Dev.sendRd
  simp only
  rw [sendOn_sansTraffic]
  exact modLink_sansTraffic _ _ _ (fun _ => rfl)

theorem sendWr_sansTraffic (q : Req) (l typ code : Nat) (data : List Byte) (poison mask : List Bool) (base : Nat) (pc : Nat × Nat) (d : Dev) :
    (d.sendWr q l typ code data poison mask base pc).sansTraffic = d.sansTraffic := by
  unfold Dev.sendWr
  simp only
  rw [sendOn_sansTraffic]
  exact modLink_sansTraffic _ _ _ (fun _ => rfl)

theorem answer_sansTraffic (kind tag : Nat) (bs : List Byte) (ps : List Bool) (d : Dev) : (d.answer kind tag bs ps).sansTraffic = d.sansTraffic := rfl

theorem countHole_sansTraffic (q : Req) (a : Nat) (d : Dev) : (d.countHole q a).sansTraffic = d.sansTraffic := rfl

theorem ask_sansTraffic (q : Req) (a n : Nat) (send : Dev → Dev) (d : Dev) (h : (send d).sansTraffic = d.sansTraffic) :
    (d.ask q a n send).sansTraffic = d.sansTraffic := by
  unfold Dev.ask
  split
  · rfl
  · split
    · rfl
    · exact h

/-! ### Requests -/

/-- The words that a read checks, whichever of its granules are dead. -/
theorem checks_sansTraffic (t : TimeUnit) (q : Option Nat) (need : Nat → Bool) (lo n : Nat → Nat) (gs : List Nat) (acc : List MemErr × Dev) :
    (gs.foldl (fun (acc : List MemErr × Dev) g =>
      (acc.1 ++ (acc.2.checkWords t q (lo g) (n g) need false 0).1, (acc.2.checkWords t q (lo g) (n g) need false 0).2)) acc).2.sansTraffic =
      acc.2.sansTraffic := by
  refine foldl2_sansTraffic _ (fun acc g => ?_) _ _
  exact checkWords_sansTraffic _ _ _ _ _ _ _ _

theorem loadReq_sansTraffic (t : TimeUnit) (q : Req) (a n : Nat) (need : Nat → Bool) (d : Dev) :
    (d.loadReq t q a n need).2.sansTraffic = d.sansTraffic := by
  unfold Dev.loadReq
  by_cases hw : d.mustWait a n = true
  · simp only [hw, if_true]; rfl
  · cases hr : d.regionAt a <;> simp only [hw, Bool.false_eq_true, if_false, regionBlock]
    case hole => rfl
    case control => rfl
    case host => exact ask_sansTraffic _ _ _ _ _ (modPort_sansTraffic _ _ _ (fun _ => rfl))
    case peer =>
      split
      · exact ask_sansTraffic _ _ _ _ _ (foldl_sansTraffic _ (fun _ _ => sendRd_sansTraffic _ _ _ _ _ _) _ _)
      · rfl
    case hbm =>
      rw [uncorrected_sansTraffic, modStack_sansTraffic _ _ _ (fun k => touches_piece _ k)]
      split
      · rw [checkWords_sansTraffic, chargeHbm_sansTraffic]
      · rw [checks_sansTraffic, chargeHbm_sansTraffic]
    case bay =>
      rw [uncorrected_sansTraffic]
      split
      · rw [checkWords_sansTraffic, chargeBlock_sansTraffic]
      · rw [checks_sansTraffic, chargeBlock_sansTraffic]
    case cap =>
      rw [uncorrected_sansTraffic]
      split
      · rw [checkWords_sansTraffic, chargeBlock_sansTraffic]
      · rw [checks_sansTraffic, chargeBlock_sansTraffic]
    case yard =>
      rw [uncorrected_sansTraffic]
      split
      · rw [checkWords_sansTraffic]
      · rw [checks_sansTraffic]

theorem mergeReads_sansTraffic (t : TimeUnit) (q : Req) (s : Nat) (lost : Nat → Nat) (xs : List Nat) (d : Dev) :
    (d.mergeReads t q s lost xs).sansTraffic = d.sansTraffic := by
  unfold Dev.mergeReads
  simp only
  rw [uncorrected_sansTraffic, checkSectors_sansTraffic]

theorem writeReports_sansTraffic (t : TimeUnit) (q : Req) (s a : Nat) (poison : List Bool) (n : Nat) (xs : List Nat) (d : Dev) :
    (d.writeReports t q s a poison n xs).2.sansTraffic = d.sansTraffic := by
  unfold Dev.writeReports
  simp only
  split
  · rfl
  · simp only [uncorrected_sansTraffic]
    refine foldl2_sansTraffic _ (fun acc x => ?_) _ _
    split
    · exact dieReport_sansTraffic _ _ _ _ _
    · split
      · exact dieReport_sansTraffic _ _ _ _ _
      · exact modStack_sansTraffic _ _ _ (fun _ => rfl)

theorem saveReq_sansTraffic (t : TimeUnit) (q : Req) (a : Nat) (data : List Byte) (poison mask : List Bool) (d : Dev) :
    (d.saveReq t q a data poison mask).sansTraffic = d.sansTraffic := by
  unfold Dev.saveReq
  simp only
  split
  · rfl
  · split
    · rfl
    · rfl
    · exact foldl_sansTraffic _ (fun _ _ => answer_sansTraffic _ _ _ _ _) _ _
    · split
      · exact foldl_sansTraffic _ (fun _ _ => sendWr_sansTraffic _ _ _ _ _ _ _ _ _ _) _ _
      · rfl
    · rw [modMem_sansTraffic, modStack_sansTraffic, writeReports_sansTraffic, mergeReads_sansTraffic, chargeHbm_sansTraffic]
      exact fun k => touches_piece _ { k with cnt := _ }
    · rw [modMem_sansTraffic, chargeBlock_sansTraffic]
    · rw [modMem_sansTraffic, chargeBlock_sansTraffic]
    · rfl

/-! ### Rings -/

theorem enqueue_sansTraffic (w : Work) (spans : List (Nat × Nat)) (d : Dev) : (d.enqueue w spans).sansTraffic = d.sansTraffic := rfl

theorem post_sansTraffic (t : TimeUnit) (q a : Nat) (bs : List Nat) (ps : List Bool) (d : Dev) :
    (d.post t q a bs ps).sansTraffic = d.sansTraffic := by
  unfold Dev.post
  simp only
  split
  · rfl
  · exact saveReq_sansTraffic _ _ _ _ _ _ _

theorem readCons_sansTraffic (t : TimeUnit) (q r : Nat) (d : Dev) : (d.readCons t q r).sansTraffic = d.sansTraffic := by
  unfold Dev.readCons
  simp only
  split
  · rfl
  · split
    · exact (modRing_sansTraffic _ _ _ _).trans (loadReq_sansTraffic _ _ _ _ _ _)
    · split <;> rfl

theorem ringPut_sansTraffic (t : TimeUnit) (q r mark : Nat) (bs : List Nat) (ps : List Bool) (d : Dev) :
    (d.ringPut t q r mark bs ps).sansTraffic = d.sansTraffic := by
  have lose (e : Dev) : (e.modPart q (fun p => p.modRing r (fun c => { c with lost := true }))).sansTraffic = e.sansTraffic :=
    modRing_sansTraffic _ _ _ _
  unfold Dev.ringPut
  by_cases h0 : (!((d.part q).en && (d.part q).platEn && ((d.part q).ring r).known)) = true
  · simp only [h0, if_true]
    exact lose d
  · simp only [h0]
    generalize h1 : (if (d.part q).ringSize r ≤ ((d.part q).ring r).used then d.readCons t q r else d) = d1
    have h2 : d1.sansTraffic = d.sansTraffic := by
      subst h1
      split
      · exact readCons_sansTraffic _ _ _ _
      · rfl
    simp only [Bool.false_eq_true, if_false]
    split
    · rw [lose, h2]
    · refine (modRing_sansTraffic _ _ _ _).trans ?_
      rw [post_sansTraffic, post_sansTraffic, h2]

theorem eventPut_sansTraffic (t : TimeUnit) (q : Nat) (r : EvRec) (d : Dev) : (d.eventPut t q r).sansTraffic = d.sansTraffic :=
  ringPut_sansTraffic _ _ _ _ _ _ _

/-! ### Records -/

theorem sansRings_of (d e : Dev) (h : d.sansTraffic = e.sansTraffic) : d.sansRings = e.sansRings := by
  simp only [Dev.sansRings, h]

theorem records_of {d e : Dev} (h : d.sansTraffic = e.sansTraffic) : d.records = e.records := congrArg (·.records) h

theorem adminPut_sansRings (t : TimeUnit) (r : EvRec) (d : Dev) : (d.adminPut t r).sansRings = d.sansRings := by
  unfold Dev.adminPut
  split
  · split <;> rfl
  · split
    · exact sansRings_of _ _ (eventPut_sansTraffic _ _ _ _)
    · rfl

theorem ibi_sansRings (t : TimeUnit) (d : Dev) (cls : Nat) : (d.ibi t cls).sansRings = d.sansRings := by
  unfold Dev.ibi
  split <;> rfl

theorem stamp_sansRings (t : TimeUnit) (d : Dev) (r : EvRec) (s : Option W64) : (d.stamp t r s).2.sansRings = d.sansRings := rfl

/-- Writing a record changes the rings, and what their requests touch. -/
theorem putRecord_sansRings (t : TimeUnit) (q : Option Nat) (r : EvRec) (s : Option W64) (d : Dev) :
    (d.putRecord t q r s).sansRings = d.sansRings := by
  unfold Dev.putRecord
  split
  · simp only
    rw [sansRings_of _ _ (eventPut_sansTraffic _ _ _ _)]
    rfl
  · simp only
    split
    · rw [foldl_sansRings, ibi_sansRings, adminPut_sansRings]
      · rfl
      · intro d q
        split
        · exact sansRings_of _ _ (eventPut_sansTraffic _ _ _ _)
        · rfl
    · rw [ibi_sansRings, adminPut_sansRings]
      rfl

/-- The record written stands first among the records. -/
theorem putRecord_records (t : TimeUnit) (q : Option Nat) (r : EvRec) (s : Option W64) (d : Dev) :
    (d.putRecord t q r s).records =
      (d.stamp t (match q with | some q => { r with part := BitVec.ofNat 4 q } | none => { r with part := 0, stream := 3 }) s).1 ::
        d.records := by
  have ev (q : Nat) (r : EvRec) (d : Dev) : (d.eventPut t q r).records = d.records := records_of (eventPut_sansTraffic _ _ _ _)
  have fold (l : List Nat) (r : EvRec) (d : Dev) :
      (l.foldl (fun d q => if (d.part q).en ∧ d.adminPart ≠ some q then d.eventPut t q r else d) d).records = d.records := by
    refine foldl_keeps (·.records) _ (fun d q => ?_) l d
    split
    · exact ev _ _ _
    · rfl
  have ibi (d : Dev) (c : Nat) : (d.ibi t c).records = d.records := by unfold Dev.ibi; split <;> rfl
  have admin (r : EvRec) (d : Dev) : (d.adminPut t r).records = d.records := by
    unfold Dev.adminPut
    split
    · split <;> rfl
    · split
      · exact ev _ _ _
      · rfl
  unfold Dev.putRecord
  cases q with
  | some q => simp only; rw [ev]; rfl
  | none =>
    simp only
    split
    · rw [fold, ibi, admin]; rfl
    · rw [ibi, admin]; rfl

theorem settle_records (t : TimeUnit) (fuel : Nat) (d : Dev) : ∃ later, (d.settle t fuel).records = later ++ d.records := by
  induction fuel generalizing d with
  | zero => exact ⟨[], rfl⟩
  | succ fuel ih =>
    simp only [Dev.settle]
    split
    · exact ⟨[], rfl⟩
    · rename_i q r rest _
      obtain ⟨later, h⟩ := ih (({ d with owed := rest }).putRecord t q r none)
      exact ⟨later ++ [_], by rw [h, putRecord_records, List.append_assoc]; rfl⟩

theorem flushOwed_records (t : TimeUnit) (d : Dev) : ∃ later, (d.flushOwed t).records = later ++ d.records := by
  unfold Dev.flushOwed
  split
  · exact ⟨[], rfl⟩
  · exact settle_records _ _ _

/-- A record emitted stands among the records, stamped with its sequence number, line time and STEP (R10, R11, R13). -/
theorem emit_wrote (t : TimeUnit) (q : Option Nat) (r : EvRec) (d : Dev) :
    d.wrote (d.emit t q r)
      (d.stamp t (match q with | some q => { r with part := BitVec.ofNat 4 q } | none => { r with part := 0, stream := 3 }) none).1 := by
  obtain ⟨later, h⟩ := flushOwed_records t (d.putRecord t q r none)
  exact ⟨later, by rw [Dev.emit, Dev.emitStep, h, putRecord_records]⟩

theorem settle_sansRings (t : TimeUnit) (fuel : Nat) (d : Dev) : (d.settle t fuel).sansRings = d.sansRings := by
  induction fuel generalizing d with
  | zero => rfl
  | succ fuel ih =>
    simp only [Dev.settle]
    split
    · rfl
    · rw [ih, putRecord_sansRings]
      rfl

theorem flushOwed_sansRings (t : TimeUnit) (d : Dev) : (d.flushOwed t).sansRings = d.sansRings := by
  unfold Dev.flushOwed
  split
  · rfl
  · exact settle_sansRings _ _ _

/-- What a record and the records that its ring writes give rise to leave alone. -/
theorem emitStep_sansRings (t : TimeUnit) (q : Option Nat) (r : EvRec) (s : Option W64) (d : Dev) :
    (d.emitStep t q r s).sansRings = d.sansRings := by
  rw [Dev.emitStep, flushOwed_sansRings, putRecord_sansRings]

theorem emit_sansRings (t : TimeUnit) (q : Option Nat) (r : EvRec) (d : Dev) : (d.emit t q r).sansRings = d.sansRings :=
  emitStep_sansRings _ _ _ _ _

theorem conflict_sansRings (t : TimeUnit) (q : Req) (src count : Nat) (d : Dev) : (d.conflict t q src count).sansRings = d.sansRings := by
  unfold Dev.conflict
  simp only
  split <;> exact emit_sansRings _ _ _ _

end Sys2Proof.Machine
end

