-- ==== Sys2Proof/WellFormed.lean ====
section
/-! DEFINITION. Which commands the outside world can form: operands within the ranges of the spec. -/

namespace Sys2Proof

/-- A length or a measured quantity lies in a closed range. -/
def lengthIn (lo hi n : Nat) : Bool := decide (lo ≤ n) && decide (n ≤ hi)

/-- A block of bits is absent or describes every byte (R370). -/
def bitsFor (data : List Byte) (bits : List Bool) : Bool := bits.isEmpty || bits.length == data.length

/-- A packet's payload is 0 to 512 bytes in 32-byte units, and its blocks describe every byte of it (R370). -/
def Packet.wf (p : Packet) : Bool :=
  lengthIn 0 512 p.payload.length && p.payload.length % 32 == 0 && bitsFor p.payload p.poisonBits && bitsFor p.payload p.maskBits

/-- A function is on one of four ports and is its PF or one of sixteen VFs (R432). -/
def Func.wf (f : Func) : Bool := lengthIn 0 3 f.port && lengthIn 0 16 f.num

/-- Findings name parts that the device has (R459). -/
def Findings.wf (f : Findings) : Bool :=
  (f.bays.all fun b => lengthIn 0 63 b.bay) && (f.piers.all fun p => lengthIn 0 3 p.pier && p.badCores.all (lengthIn 0 3)) &&
    (f.hbms.all fun s => lengthIn 0 11 s.stack)

/-- A command is well formed. -/
def Instr.wf : Instr → Bool
  | .nop _ _ => true
  | .endStream _ _ => true
  | .depart _ _ => true
  | .departRelease _ _ => true
  | .branchJump _ _ => true
  | .branchLoop _ _ => true
  | .branchSetCount _ _ => true
  | .branchStallEnd _ _ => true
  | .cfg _ _ => true
  | .commit _ _ => true
  | .syncSet _ _ => true
  | .syncClear _ _ => true
  | .syncWait _ _ => true
  | .syncWaitClr _ _ => true
  | .syncWaitEnd _ _ => true
  | .syncRset _ _ => true
  | .rsetArrival _ _ => true
  | .dload _ _ => true
  | .move _ _ => true
  | .mload _ _ => true
  | .stationarySwap _ _ => true
  | .mmul _ _ _ _ _ => true
  | .drainWriteout _ => true
  | .vop _ _ _ => true
  | .vfunc _ _ _ => true
  | .vred _ _ _ => true
  | .vscan _ _ _ => true
  | .vperm _ _ _ => true
  | .rmsn _ _ _ _ => true
  | .smax _ _ _ _ => true
  | .turn _ _ => true
  | .quantNarrow _ _ => true
  | .quantStash _ _ => true
  | .quantAmaxOnly _ _ => true
  | .amaxRecordUpdate _ => true
  | .routeTopk _ _ => true
  | .routeGather _ _ => true
  | .routeCombine _ _ => true
  | .collAllReduce _ _ => true
  | .collReduceScatter _ _ => true
  | .collAllGather _ _ => true
  | .collBroadcast _ _ => true
  | .collSend _ _ => true
  | .collReceive _ _ => true
  | .collEngineStart _ => true
  | .collComplete _ => true
  | .collWatchdog _ => true
  | .upd _ _ => true
  | .updPrologue _ extra => lengthIn 0 240 extra
  | .updRun _ _ => true
  | .updEpilogue _ => true
  | .sealCompute _ _ => true
  | .sealVerify _ _ => true
  | .instructionComplete _ _ => true
  | .departureSlot _ _ _ => true
  | .occurrenceDelivered _ _ _ => true
  | .promiseExpiry _ _ _ => true
  | .slotBoundary => true
  | .slotLengthChange => true
  | .submitInstall _ _ => true
  | .admissionComplete _ => true
  | .submitWithdraw _ _ => true
  | .submitStart _ _ => true
  | .submitModel _ _ => true
  | .submitReset _ _ => true
  | .partitionReset _ => true
  | .quarterCleanDone _ _ => true
  | .timetableTakeover _ => true
  | .timetableRemoval _ => true
  | .stepBoundary _ => true
  | .stepApply => true
  | .stepNotice _ p => p.wf
  | .maintStart _ _ _ => true
  | .maintEnd _ _ _ => true
  | .holdSend => true
  | .holdNotice _ p => p.wf
  | .pauseSlot => true
  | .resumeSend => true
  | .resumeNotice _ p => p.wf
  | .resumeSlot => true
  | .epochInstant => true
  | .timeSourcePresent => true
  | .timeLock => true
  | .timeSourceLost => true
  | .timeSourceRegained _ => true
  | .holdoverExpiry => true
  | .timeExchange _ _ => true
  | .timePacket _ p _ => p.wf
  | .capPacket _ p => p.wf
  | .linkTrained _ _ => true
  | .quadLoss _ _ _ => true
  | .linkRetrain f _ => f.wf
  | .packetNak _ _ => true
  | .packetReplay _ _ => true
  | .replayThreshold _ _ => true
  | .idlePacket _ p => p.wf
  | .unknownPacket _ p => p.wf
  | .rdPacket _ p => p.wf
  | .wrPacket _ p => p.wf
  | .atPacket _ p => p.wf
  | .rdrPacket _ p => p.wf
  | .wackPacket _ p => p.wf
  | .collPacket _ p => p.wf
  | .cautionNotice _ p => p.wf
  | .peerLate _ p => p.wf
  | .abandon _ p => p.wf
  | .memoryRead _ n _ _ _ _ => lengthIn 1 4096 n
  | .memoryWrite _ _ _ data poison mask => lengthIn 1 4096 data.length && bitsFor data poison && bitsFor data mask
  | .correctionWriteback _ => true
  | .mergeEvict _ => true
  | .msMerge _ _ _ data poison mask => lengthIn 1 64 data.length && bitsFor data poison && bitsFor data mask
  | .msAddFp32 _ _ _ data poison mask => lengthIn 1 64 data.length && bitsFor data poison && bitsFor data mask
  | .msAddBf16 _ _ _ data poison mask => lengthIn 1 64 data.length && bitsFor data poison && bitsFor data mask
  | .msAddInt32 _ _ _ data poison mask => lengthIn 1 64 data.length && bitsFor data poison && bitsFor data mask
  | .msAddInt64 _ _ _ data poison mask => lengthIn 1 64 data.length && bitsFor data poison && bitsFor data mask
  | .msMaxFp32 _ _ _ data poison mask => lengthIn 1 64 data.length && bitsFor data poison && bitsFor data mask
  | .msMinFp32 _ _ _ data poison mask => lengthIn 1 64 data.length && bitsFor data poison && bitsFor data mask
  | .msMaxBf16 _ _ _ data poison mask => lengthIn 1 64 data.length && bitsFor data poison && bitsFor data mask
  | .msMinBf16 _ _ _ data poison mask => lengthIn 1 64 data.length && bitsFor data poison && bitsFor data mask
  | .msMaxInt32 _ _ _ data poison mask => lengthIn 1 64 data.length && bitsFor data poison && bitsFor data mask
  | .msMinInt32 _ _ _ data poison mask => lengthIn 1 64 data.length && bitsFor data poison && bitsFor data mask
  | .msMaxInt64 _ _ _ data poison mask => lengthIn 1 64 data.length && bitsFor data poison && bitsFor data mask
  | .msMinInt64 _ _ _ data poison mask => lengthIn 1 64 data.length && bitsFor data poison && bitsFor data mask
  | .msReservedOp code _ _ _ => decide (13 ≤ code.toNat)
  | .refresh _ => true
  | .scrubStep _ => true
  | .scrubLapOverdue _ => true
  | .stackTempReading _ _ => true
  | .stackCoolExpiry _ => true
  | .retrainDueAge _ _ => true
  | .scheduledRetrainEnd _ _ _ _ => true
  | .emergencyRetrainStart _ _ => true
  | .emergencyRetrainEnd _ _ _ _ => true
  | .channelMapOut _ => true
  | .poisonFillDone _ => true
  | .regionZeroDone _ _ => true
  | .retireGo f _ _ _ => f.wf
  | .capBankCopy _ _ => true
  | .capBankCopyDone _ _ => true
  | .injectGo f _ _ _ _ => f.wf
  | .injectApply _ => true
  | .drainQueuedStart _ _ => true
  | .drainComplete _ _ => true
  | .waybillSigned => true
  | .restoreGo f _ _ _ => f.wf
  | .restoreComplete _ _ => true
  | .quoteGo f _ => f.wf
  | .quoteDone => true
  | .repairRecordWrite => true
  | .repairRecordDone => true
  | .streamRun f _ _ _ => f.wf
  | .streamHalt f _ _ _ => f.wf
  | .tokenSet f _ _ => f.wf
  | .tokenClear f _ _ => f.wf
  | .permOorClear f _ _ => f.wf
  | .hostConfigWrite f _ _ _ _ _ => f.wf
  | .hostDescriptorWrite f _ _ _ _ _ => f.wf
  | .qcntClear f _ => f.wf
  | .mxCounterClear f _ => f.wf
  | .vecCounterClear f _ => f.wf
  | .ptsCounterClear f _ => f.wf
  | .updCounterClear f _ => f.wf
  | .hbmCounterClear f _ => f.wf
  | .eccCounterClear f _ => f.wf
  | .eccLogClear f _ => f.wf
  | .lnkCounterClear f _ => f.wf
  | .pwrCounterClear f => f.wf
  | .wbCounterClear f _ => f.wf
  | .holeClr f => f.wf
  | .ttSyncWrite f _ => f.wf
  | .pwrCapWrite f _ => f.wf
  | .hbmRegWrite f _ _ _ => f.wf
  | .bondPartWrite f _ _ _ => f.wf
  | .bondSegWrite f _ _ _ _ => f.wf
  | .segmentZeroDone _ _ => true
  | .bondPlatWrite f _ _ _ => f.wf
  | .bondHwinWrite f _ _ _ => f.wf
  | .bondPortWrite f _ _ => f.wf
  | .updWbWrite f _ _ _ => f.wf
  | .repairClear f => f.wf
  | .registerWrite f _ _ => f.wf
  | .bar0Access f _ _ => f.wf
  | .bar2Access f _ n data _ => f.wf && lengthIn 1 4096 n && (data.all fun bs => lengthIn 1 512 bs.length)
  | .configRequest f _ => f.wf
  | .functionLevelReset f => f.wf
  | .perst _ _ => true
  | .entdaa _ _ => true
  | .rstdaa => true
  | .setnewda _ => true
  | .getpid => true
  | .getbcr => true
  | .getdcr => true
  | .getstatus => true
  | .getmwl => true
  | .getmrl => true
  | .enec _ => true
  | .disec _ => true
  | .i3cRead _ words => lengthIn 1 256 words
  | .i3cWrite _ ws => lengthIn 1 32 ws.length
  | .i3cQuote nonce => lengthIn 64 64 nonce.length
  | .ferase o => o.toNat % 0x10000 == 0
  | .fprog _ data => lengthIn 1 256 data.length
  | .i3cPrivateRead => true
  | .vinRise => true
  | .pwrEnRise => true
  | .powerGood => true
  | .pwrEnFall => true
  | .resetN _ => true
  | .romDone _ _ => true
  | .imagesDone _ => true
  | .selftestDone found => found.wf
  | .published => true
  | .vinSample mv => lengthIn 0 0xFFFF mv
  | .vinCaution => true
  | .vinRideExpiry => true
  | .protectiveStop => true
  | .shaperTick _ _ => true
  | .voltageStep _ _ _ => true
  | .droopEvent _ _ => true
  | .dieTempReading temp => lengthIn 0 0xFF temp
  | .dieCoolExpiry => true
  | .vinStableExpiry => true
  | .lrefEdge => true
  | .pcieRetrain _ _ _ => true
  | .pcieCompletion _ tag _ data => decide (tag < 1024) && lengthIn 1 4096 data.length
  | .railsOff => true

end Sys2Proof
end

