-- ==== Sys2Proof/Tests/Slice0.lean ====
section
/-! SUPPORT. Checks of the model: ill-formed commands are refused, small single steps, and for every statement with
hypotheses a concrete state and operands that meet them. -/

set_option Elab.async false

namespace Sys2Proof.Tests

open Sys2Proof Sys2Proof.Machine

/-! ### Small states -/

/-- A descriptor: format, dimensions, brick mode, inner, base, extents, strides. -/
def descBits (fmt ndim brick inner base : Nat) (ext str : List Nat) : W512 :=
  BitVec.ofNat 512 (base + fmt * 2 ^ 52 + ndim * 2 ^ 56 + brick * 2 ^ 59 + inner * 2 ^ 60 +
    (ext.zipIdx.map (fun x => x.1 * 2 ^ (64 + 24 * x.2))).sum + (str.zipIdx.map (fun x => x.1 * 2 ^ (192 + 32 * x.2))).sum)

/-- A device in service: partition 0 is enabled over quarter 0, with windows over the bay stores, stack 0 and the yards. -/
def dev : Dev :=
  ({ Dev.reset with box := { Box.reset with stage := 3 } } : Dev).modPart 0 (fun p =>
    { p with
      en := true, quarters := 0xF
      segs := vmod (vmod (vmod p.segs 0 (fun _ => { valid := true, wr := true, base := 0x800, size := 0x200 })) 1
        (fun _ => { valid := true, wr := true, base := 0x80000, size := 0x10000 })) 2
        (fun _ => { valid := true, wr := true, base := 0xA00, size := 0x60 }) })

/-- A state of a device, with line time 0 and no command waiting. -/
def st (d : Dev) : State := { time := TimeUnit.reset, dev := d, pending := [] }

/-- Stream 0 of bay 0 about to issue `w`, with a descriptor table and a configuration. -/
def readyWith (ds : List (Nat × W512)) (c : Cfg) (w : W128) : Dev :=
  dev.modStream 0 0 (fun x =>
    { x with
      state := .run, base := 0x10000000, runBase := 0x10000000, desc := ds, live := c
      fetch := [{ addr := 0x100000000, bytes := byteList (toBytes 16 w.toNat) ++ List.replicate 48 0, poison := List.replicate 64 false }] })

def ready (w : W128) : Dev := readyWith [] Cfg.reset w

/-- An instruction word from its opcode and the rest of its bits. -/
def word (op rest : Nat) : W128 := BitVec.ofNat 128 (op * 2 ^ 120 + rest)

/-- An entry of stream 0 over bay 0. -/
def te0 : TEntry :=
  { depart := 0, span := 2, stream := 0, early := false, maint := false, coll := false, record := false, quarter := 0, baymask := 1,
    array := 0, vector := 0, bstore := 0, capnear := 0, capfar := 0, fartile := 0, hbmshare := 0, hbmmask := 0, pathset := 0,
    mb := 0, updu := 0, ptsu := 0, tag := 0, rsvd := false }

/-- A timetable of that entry, a step every four slots. -/
def tt0 : Timetable :=
  { gen := 1, addr := 0, root := true, period := 4, base := 0, step0 := 7, steps := 0, shift0 := 0, entries := [te0], paths := [],
    notify := 0, noteBase := 0, resume := none }

def key0 : OccKey := { part := 0, gen := 1, entry := 0, k := 0 }

/-- Its first occurrence. -/
def occ0 : Occ := tt0.occ 0 0 0 te0

/-- A device with that timetable installed and some occurrences on record. -/
def withOcc (os : List Occ) (d : Dev) : Dev := d.modPart 0 (fun p => { p with installed := some tt0, occs := os })

/-- A packet of a type with a payload, the first on a new link. -/
def pkt (typ : Nat) (data : List Byte) : Packet := { packet typ false 0 0 0 0 0 with payload := data, seq := 1 }

/-! ### Ill-formed commands are refused -/

theorem test_illformed_ranges :
    Instr.wf (.updPrologue 0 241) = false ∧ Instr.wf (.memoryRead 0 4097 0 none 0 0) = false ∧
    Instr.wf (.memoryWrite 0 0 none [] [] []) = false ∧ Instr.wf (.msReservedOp 12 0 0 none) = false ∧
    Instr.wf (.linkRetrain { port := 4, num := 0 } 0) = false ∧ Instr.wf (.linkRetrain { port := 0, num := 17 } 0) = false ∧
    Instr.wf (.bar2Access Func.admin 0 1 (some []) false) = false ∧ Instr.wf (.i3cRead 0 257) = false ∧
    Instr.wf (.i3cWrite 0 []) = false ∧ Instr.wf (.i3cQuote []) = false ∧ Instr.wf (.ferase 1) = false ∧
    Instr.wf (.fprog 0 []) = false ∧ Instr.wf (.vinSample 0x10000) = false ∧ Instr.wf (.dieTempReading 256) = false ∧
    Instr.wf (.pcieCompletion 0 1024 false [0]) = false := by
  decide +kernel

theorem test_illformed_contents :
    (pkt 0x11 (List.replicate 544 0)).wf = false ∧ (pkt 0x11 (List.replicate 33 0)).wf = false ∧
    ({ pkt 0x11 (List.replicate 32 0) with poisonBits := [true] } : Packet).wf = false ∧
    ({ pkt 0x11 (List.replicate 32 0) with maskBits := [true] } : Packet).wf = false ∧
    ({ bays := [{ bay := 64, rows := [], lanes := [], banks := [], cause := 0 }], piers := [], hbms := [] } : Findings).wf = false ∧
    ({ bays := [], piers := [{ pier := 4, badCores := [], cause := 0 }], hbms := [] } : Findings).wf = false ∧
    ({ bays := [], piers := [], hbms := [{ stack := 12, lanes := [], temp := 0 }] } : Findings).wf = false ∧
    Instr.wf (.msMerge 0 0 none [0] [true, false] []) = false := by
  decide +kernel

theorem test_wellformed :
    Instr.wf (.updPrologue 0 240) = true ∧ Instr.wf (.wrPacket 0 (pkt 0x11 (List.replicate 32 0))) = true ∧
    Instr.wf (.msReservedOp 13 0 0 none) = true := by
  decide +kernel

/-! ### Witnesses: the queue and the sequencer -/

theorem witness_StepRunsTheFrontCommand :
    ({ State.reset with pending := [.slotBoundary, .lrefEdge] } : State).pending = .slotBoundary :: [.lrefEdge] ∧
    State.reset.pending = [] := by
  constructor <;> rfl

theorem witness_OnlyTimeCommandsMoveTime :
    (∃ t, exec .timeSourcePresent State.reset = .next t) ∧ onlyTime .timeSourcePresent = true ∧ movesTime (.refresh 0) = false :=
  ⟨⟨_, rfl⟩, rfl, rfl⟩

/-- The words that witnesses present: NOP, BRANCH of each mode, CFG of MODEL, COMMIT, SYNC of each operation, DEPART, END. -/
def presented (op rest : Nat) : Bool := (ready (word op rest)).presents 0 0 (word op rest) && opc (word op rest).toNat == op

theorem witness_SequencerInstructionsChangeOneStream :
    presented 0 0 = true ∧ presented 3 5 = true ∧ presented 3 (2 ^ 34) = true ∧ presented 3 (2 * 2 ^ 34 + 3 * 2 ^ 36) = true ∧
    presented 4 0 = true ∧ 0 < cfgFields 0 ∧ cfgBad 0 0 0 = false ∧ presented 5 0xFF = true := by
  decide +kernel

theorem witness_SyncChangesTokensOrWaits :
    presented 6 1 = true ∧ presented 6 (1 + 2 ^ 64) = true ∧ presented 6 (1 + 2 * 2 ^ 64) = true ∧
    presented 6 (1 + 3 * 2 ^ 64) = true ∧ presented 6 (4 * 2 ^ 64 + 2 ^ 67) = true ∧
    (dev.partOfBay 0).isSome = true ∧ dev.partOfBay 1 = dev.partOfBay 0 := by
  decide +kernel

/-- Stream 0 of bay 0 waiting for token 0, which is set and clears, at a DEPART or a SYNC, and token 3 on its way. -/
def waiting (depart : Bool) : Dev :=
  ((withOcc [{ occ0 with bound := 1, ctoken := some 5 }] dev).modStream 0 0 (fun x =>
    { x with
      state := if depart then .waitDepart else .waitToken
      wait := some { mask := 1, clear := true, occ := some key0, ctoken := 5, word := 0 } })).modBay 0 (fun y =>
    { y with tokens := 1, rsetIn := [3] })

theorem witness_WaitsEnd :
    (let d := waiting true
     let y := d.bay 0
     let wt : Wait := { mask := 1, clear := true, occ := some key0, ctoken := 5, word := 0 }
     (d.stream 0 0).state = .waitDepart ∧ (d.stream 0 0).wait = some wt ∧ d.running = true ∧ d.hold.paused = false ∧
      d.timeOut = false ∧ y.voidIn 1 = none ∧ (key0 |> d.occ) = some { occ0 with bound := 1, ctoken := some 5 } ∧ occ0.cancelled = false ∧
      y.waitOver 0 wt = true ∧
      d.depSlot occ0 ≤ (st d).time.slot ∧ d.clearBlocked TimeUnit.reset 0 0 = false ∧ 3 ∈ y.rsetIn) ∧
    (let d := waiting false
     let wt : Wait := { mask := 1, clear := true, occ := some key0, ctoken := 5, word := 0 }
     (d.stream 0 0).state = .waitToken ∧ (d.stream 0 0).wait = some wt ∧ d.running = true ∧ d.hold.paused = false ∧
      (d.bay 0).waitOver 0 wt = true ∧ d.clearBlocked TimeUnit.reset 0 0 = false) := by
  decide +kernel

theorem witness_DepartBindsAndEndIdles :
    presented 1 0 = true ∧
    (let w := word 2 (2 * 2 ^ 64)
     let d := withOcc [] (ready w)
     let d1 := d.closeOcc 0 0
     d.presents 0 0 w = true ∧ opc w.toNat = 2 ∧ d.timeOut = false ∧ d.partOfBay 0 = some 0 ∧ (d1.part 0).installed = some tt0 ∧
      tt0.entries[fld w.toNat 70 14]? = some te0 ∧ te0.stream = 0 ∧ te0.names 0 = true ∧
      d1.bindable (d1.stream 0 0) 0 tt0 (fld w.toNat 70 14) te0 = some 0 ∧
      (d1.ensureOcc 0 tt0 (fld w.toNat 70 14) 0).map (·.1) = some occ0 ∧ occ0.bound = 0) := by
  decide +kernel

/-! ### Witnesses: instructions that units take -/

/-- A place in the store of bay 0. -/
def A : Nat := 0x100001000

/-- One dense FP8 brick at a place, and a plain vector of `n` elements of `f`. -/
def brick (inner a : Nat) : W512 := descBits 3 2 1 inner a [64, 64] [1, 1]
def plain (f n a : Nat) : W512 := descBits f 1 0 0 a [n] [1]

/-- What an instruction sees as it issues on a device, with the timing operands of its command. -/
def issue (d : Dev) (w : W128) (ops : List Nat) : Issue := { d.issued 0 0 w with ops := ops }

/-- Presented and not refused; with a free scoreboard and free queues its unit takes it, whatever tiles it names. -/
def taken (d : Dev) (w : W128) (ops los : List Nat) (fault : Issue → Dev → Option FaultInfo) : Bool :=
  let j := issue d w ops
  d.presents 0 0 w && d.takes TimeUnit.reset j los (fault j d)

/-- The descriptor fields of some operands of an instruction. -/
def fields (d : Dev) (w : W128) (ops : Issue → List VOpd) : List Nat := (ops (d.issued 0 0 w)).map (·.lo)

theorem witness_DataInstructionsAreTaken :
    taken (ready (word 7 A)) (word 7 A) [] [] dloadFault = true ∧
    (let w := word 0x10 (2 ^ 9)
     taken (ready w) w [] [0, 9] moveFault = true) ∧
    (let w := word 0x20 256
     taken (readyWith [(0, brick 1 A)] Cfg.reset w) w [] [0] mloadFault = true) ∧
    (let w := word 0x21 (256 + 2 ^ 25)
     taken (readyWith [(0, brick 0 A)] Cfg.reset w) w [0, 0, 0] [0] mmulFault = true) ∧
    (let w := word 0x40 (2 ^ 9)
     taken (ready w) w [] [0, 9] turnFault = true) := by
  decide +kernel

/-- A configuration and a device with a function revision. -/
def fnCfg : Cfg := { Cfg.reset with fnrev := 1 }
def fnReady (w : W128) : Dev :=
  let d := readyWith [] fnCfg w
  { d with bond := { d.bond with fnRevs := [1] } }

theorem witness_VectorInstructionsAreTaken :
    (let w := word 0x30 (2 ^ 9 + 2 * 2 ^ 18 + 0x40 * 2 ^ 36)
     taken (ready w) w [0] (fields (ready w) w (fun j => vopOpds j j.vopShape)) vopFault = true) ∧
    (let w := word 0x31 (2 ^ 9 + 0x10 * 2 ^ 36)
     taken (fnReady w) w [0] (fields (fnReady w) w vfuncOpds) vfuncFault = true) ∧
    (let w := word 0x32 (2 ^ 9)
     taken (ready w) w [0] [0, 9] vredFault = true) ∧
    (let w := word 0x33 (2 ^ 9 + 2 * 2 ^ 27 + 3 * 2 ^ 40)
     taken (ready w) w [0] [0, 9, 27, 40] vscanFault = true) ∧
    (let w := word 0x34 (2 ^ 9 + 2 * 2 ^ 18)
     taken (ready w) w [0] [0, 9, 18] vpermFault = true) ∧
    (let w := word 0x35 (2 ^ 9)
     taken (ready w) w [0, 0] (fields (ready w) w rmsnOpds) rmsnFault = true) ∧
    (let w := word 0x36 (2 ^ 9)
     taken (fnReady w) w [0, 0] (fields (fnReady w) w smaxOpds) smaxFault = true) := by
  decide +kernel

/-- A configuration with an amax record in stack 0, and one with four experts. -/
def qCfg : Cfg := { Cfg.reset with qamax := 0x10000000000 }
def eCfg : Cfg := { Cfg.reset with experts := 4 }

/-- A path set of two members, this one of rank 0, and a stream within an occurrence of a COLL entry that names it. -/
def ps0 : PathSet :=
  { index := 0, id := 1, algo := 0, carry := 0, n := 2, rank := 0, stat := 0, accdst := false, members := [0, 9], claims := [] }
def collDev (ds : List (Nat × W512)) (w : W128) : Dev :=
  (withOcc [{ occ0 with te := { te0 with coll := true }, paths := some ps0, bound := 1, ctoken := some 5 }]
    (readyWith ds Cfg.reset w)).modStream 0 0 (fun x => { x with occ := some key0 })

/-- COLL of operation `op` from `m` elements to `n`, with a peer. -/
def collTaken (op m n peer : Nat) : Bool :=
  let w := word 0x58 (256 + 257 * 2 ^ 9 + op * 2 ^ 18 + peer * 2 ^ 31)
  taken (collDev [(0, plain 0 m A), (1, plain 0 n (A + 0x4000))] w) w [] [0, 9] collFault

/-- Eight rows of four elements at a place. -/
def rows (a : Nat) : W512 := descBits 0 2 0 0 a [4, 8] [1, 4]

/-- ROUTE of operation 1 and 2: rows of four elements, the list given. -/
def routeTaken (op : Nat) (dst src aux : W512) : Bool :=
  let w := word 0x50 (256 + 257 * 2 ^ 9 + 258 * 2 ^ 18 + op * 2 ^ 27)
  taken (readyWith [(0, dst), (1, src), (2, aux)] eCfg w) w [] [0, 9, 18] routeFault

theorem witness_OtherUnitInstructionsAreTaken :
    (let w := word 0x48 256
     taken (readyWith [(0, brick 0 A)] qCfg w) w [] [0, 9] quantFault = true) ∧
    (let w := word 0x48 (256 + 2 ^ 18)
     taken (readyWith [(0, brick 0 A)] qCfg w) w [] [0, 9] quantFault = true) ∧
    (let w := word 0x48 (2 * 2 ^ 18)
     taken (readyWith [] qCfg w) w [] [9] quantFault = true) ∧
    (let w := word 0x50 (256 + 257 * 2 ^ 9)
     taken (readyWith [(0, plain 0xD 4096 (A + 0x4000)), (1, descBits 0 2 0 0 A [4, 2] [1, 4])] eCfg w) w [] [0, 9, 18] routeFault = true) ∧
    routeTaken 1 (rows 0x100010000) (rows 0x100020000) (plain 0xD 4096 A) = true ∧
    routeTaken 2 (rows 0x100010000) (rows 0x100020000) (plain 0xD 4096 A) = true ∧
    collTaken 0 64 64 0 = true ∧ collTaken 1 128 64 0 = true ∧ collTaken 2 64 128 0 = true ∧ collTaken 3 64 64 9 = true ∧
    collTaken 4 64 64 9 = true ∧ collTaken 5 64 64 9 = true ∧
    (let w := word 0x60 (256 + 257 * 2 ^ 9)
     let d := (readyWith [(0, plain 0xD 256 (A + 0x4000)), (1, brick 0 A)] Cfg.reset w).modPier 0 (fun p => { p with ctab := 1 })
     taken d w [] [0, 9, 18] updFault = true) ∧
    (let w := word 0x68 256
     taken (readyWith [(0, brick 0 A)] Cfg.reset w) w [] [0] sealFault = true) ∧
    (let w := word 0x68 (256 + 2 ^ 9)
     taken (readyWith [(0, brick 0 A)] Cfg.reset w) w [] [0] sealFault = true) := by
  decide +kernel

/-! ### Witnesses: registers -/

/-- The administrative function. -/
def adm : Func := Func.admin

theorem witness_ClearCommandsZeroTheirCounters :
    dev.settled = true ∧ dev.lets adm (.qClr 63) = true ∧ dev.lets adm (.mxClr 0) = true ∧ dev.lets adm (.vecClr 63) = true ∧
    dev.lets adm (.ptsClr 3) = true ∧ dev.lets adm (.updClr 3) = true ∧ dev.lets adm (.wbClr 3) = true ∧
    dev.lets adm (.hbmClr 11) = true ∧ dev.lets adm (.lnkClr 31) = true ∧ dev.lets adm .pwrClr = true ∧
    dev.lets adm (.integ (blockAt 63) .eclr) = true ∧ dev.lets adm (.integ (blockAt 75) .eclr) = true ∧
    dev.lets adm (.integ (blockAt 79) .eclr) = true ∧ dev.lets adm .holeStatus = true := by
  decide +kernel

theorem witness_AcceptedWritesWaitForTheBoundary :
    (let t := TimeUnit.reset
     let d := dev
     d.settled = true ∧ d.accepts t adm .pwrCap 0x0D48 = true ∧ d.accepts t adm (.hbmReg 11 15) (256 - 15 * 16 + 2 ^ 16) = true ∧
     d.accepts t adm (.bondPart 1 0) 0x10 = true ∧ d.accepts t adm (.bondSeg 1 31 0) 0 = true ∧
     d.accepts t adm (.bondPlat 0 3) 0 = true ∧ d.accepts t adm (.bondHwin 3 63) 0 = true ∧ d.accepts t adm (.bondPort 3) 16 = true ∧
     d.accepts t adm (.updWb 3 0) 0 = true ∧ d.accepts t adm (.lnkCtl 31) (d.retrainValue t 31) = true) := by
  decide +kernel

theorem witness_RefusedWritesLeaveAConflictRecord :
    (let t := TimeUnit.reset
     let no (r : Reg) (v : Nat) : Bool := dev.lets adm r && !dev.accepts t adm r v
     dev.settled = true ∧ no .pwrCap 5000 = true ∧ no (.hbmReg 0 0) 257 = true ∧ no (.bondHwin 1 63) 1 = true ∧ no (.bondPort 0) 17 = true) := by
  decide +kernel

theorem witness_HostWritesToABay :
    (let d := dev
     let p : Dev := { d with hold := { Hold.reset with paused := true } }
     d.settled = true ∧ d.hold.paused = false ∧ p.settled = true ∧ p.hold.paused = true ∧ p.lets adm (.tokSet 63) = true ∧
     p.lets adm (.tokClr 0) = true ∧ d.lets adm (.tokSet 63) = true ∧ d.lets adm (.tokClr 0) = true ∧ d.lets adm (.vecStatus 0 2) = true ∧
     d.lets adm (.cfg 0 2 0 0) = true ∧ cfgBad 0 0 0 = false ∧ d.lets adm (.desc 0 2 255 7) = true ∧ d.lets adm (.sqCtl 0 0) = true ∧
     (d.stream 0 0).state = .idle ∧ ((d.stream 0 0).occ.bind d.occ).all (fun o => !o.open) = true ∧
     ((waiting true).stream 0 0).state = .waitDepart ∧ (waiting true).lets adm (.sqCtl 0 0) = true ∧
     (waiting true).settled = true) := by
  decide +kernel

theorem witness_SyncWritesMoveTheSource :
    dev.settled = true ∧ dev.lets adm .sync = true ∧ dev.anyTimetable = false ∧ (withOcc [] dev).settled = true ∧
    (withOcc [] dev).lets adm .sync = true ∧ (withOcc [] dev).anyTimetable = true ∧
    (let n (v : W64) : Nat := if fld v.toNat 8 4 = 0 then 16 else fld v.toNat 8 4
     let moved (v : W64) : Bool := bit v.toNat 2 != TimeUnit.reset.srcMode || fld v.toNat 3 5 != TimeUnit.reset.srcLink.toNat
     n 0xA00 = 10 ∧ n 0xF00 = 15 ∧ n 0 = 16 ∧ n 0x900 < 10 ∧ n 0xC00 = TimeUnit.reset.slotLog2 ∧ moved 0xC04 = true ∧
     moved 0xC00 = false) := by
  decide +kernel

theorem witness_GoWritesStartTheirWork :
    (let d := dev
     let e : Dev := { d with box := { d.box with idState := 0 } }
     d.settled = true ∧ d.lets adm (.integ (.stack 11) .retire) = true ∧ 65535 < (d.stack 11).c * 4096 ∧
     (d.integ 75).pages = [] ∧ (d.integ 75).pagePend = [] ∧ (d.integ 63).bankPend = [] ∧ (d.integ 63).bankCopy = [] ∧
     d.lets adm (.integ (.bay 63) .retire) = true ∧ d.bayPresent 63 = true ∧ (d.integ 63).banks.length = 0 ∧
     d.lets adm (.integ (blockAt 79) .inject) = true ∧ 0 < (d.injectTarget (blockAt 79) false).1 ∧
     d.isRetired (regionOf (d.injectTarget (blockAt 79) false).2) = false ∧
     e.lets adm .bondQuote = true ∧ e.box.quoteState ≠ 1 ∧ e.box.idState ≠ 2 ∧ e.adminPart = some 0 ∧
     (e.part 0).inside true (0x100001000 / 64 * 64) 1600 = true ∧
     d.lets adm (.updRst 3 15) = true ∧ (d.part 15).installed = none ∧ (∀ i : Fin 4, vget 0 (d.pier i).rstState 15 ≠ 1) ∧
     d.lets adm .bondRepair = true ∧ d.anyTimetable = false) := by
  decide +kernel

theorem witness_BarAccessesReachRegistersOrHoles :
    (let d := dev
     let low := regAddr .epoch
     let base := regAddr (.sqBase 63 2)
     d.portOpen 0 = true ∧ d.settled = true ∧ regAt low = some .epoch ∧ d.reaches adm .epoch = true ∧ 0x100000 ≤ low ∧ d.regPoison .epoch = false ∧
     regAt base = some (.sqBase 63 2) ∧ d.reaches adm (.sqBase 63 2) = true ∧ base < 2 ^ 32 ∧
     regAt 0xFFFFFFF8 = none ∧ 0x100000 ≤ 0xFFFFFFF8 ∧ d.portOpen 1 = true ∧ d.reaches { port := 1, num := 0 } .epoch = false) := by
  decide +kernel

theorem witness_RegisterMapIsOneToOne : regAt (regAddr (.desc 63 2 255 7)) = some (.desc 63 2 255 7) := by decide +kernel

theorem witness_BarWindowsReachMemory :
    (let d := dev
     let g : Seg := { valid := true, wr := true, base := 0x800, size := 0x200 }
     d.portOpen 0 = true ∧ d.partOf adm = some 0 ∧
     (d.part 0).bar2Map.find? (fun x => decide (x.1 ≤ 0) && decide (0 < x.1 + (x.2.stop - x.2.start))) = some (0, g) ∧
     4096 ≤ g.stop - g.start ∧ g.wr = true ∧ (d.modPart 0 (fun p => { p with segs := Vector.replicate 32 Seg.none })).partOf adm = some 0 ∧
     ((d.modPart 0 (fun p => { p with segs := Vector.replicate 32 Seg.none })).part 0).bar2Map = []) := by
  decide +kernel

theorem witness_PortResetsAndConfiguration :
    Dev.reset.box.stage ≠ 4 ∧ Dev.reset.box.stage ≠ 3 ∧ (Dev.reset.portOf 0).inReset = false ∧ dev.box.stage = 3 ∧
    (dev.portOf 0).inReset = false ∧ 0 ≤ (dev.portOf 0).vfs.toNat ∧
    (let d := dev.modPart 1 (fun p => { p with en := true, func := 16 })
     d.partOf { port := 0, num := 16 } = some 1 ∧ (d.part 1).resetPend = none) := by
  decide +kernel

/-! ### Witnesses: line time, holds, occurrences -/

/-- A line-time unit at a count, in a lock state. -/
def clock (n : Nat) (l : Lock) : TimeUnit :=
  { TimeUnit.reset with ltime := w64 n, lock := l, since := if l = .holdover then some 0 else none, good := if l = .acquiring then 16 else 0 }

theorem witness_LockStateMoves :
    (clock 0 .unlocked).lock = .unlocked ∧ (clock 0 .acquiring).lock = .acquiring ∧ 16 ≤ (clock 0 .acquiring).good ∧
    (clock 0 .locked).lock = .locked ∧ (clock 10000000 .holdover).lock = .holdover ∧ (clock 10000000 .holdover).since = some 0 ∧
    0 + 10000000 ≤ (clock 10000000 .holdover).now ∧ (withOcc [] dev).anyTimetable = true := by
  decide +kernel

theorem witness_PinModeMeasuresAndSets :
    (clock 0 .acquiring).srcMode = false ∧ (clock 0 .acquiring).lock ≠ .unlocked ∧ (clock 0 .holdover).lock = .holdover ∧
    (let t : TimeUnit := { clock 8192 .locked with newLog2 := some 13 }
     t.newLog2 = some 13 ∧ t.now % 2 ^ max 13 t.slotLog2 = 0) ∧
    (let t : TimeUnit := { clock 4096 .locked with newLog2 := some 13 }
     t.newLog2 = some 13 ∧ t.now % 2 ^ max 13 t.slotLog2 ≠ 0) := by
  decide +kernel

theorem witness_SlotBoundaryComesToTheEdge : TimeUnit.reset.nextEdge < 2 ^ 64 := by decide +kernel

theorem witness_EveryStepKeepsTheInvariant : State.reset.Inv ∧ ∃ t, step State.reset = .next t :=
  ⟨show State.reset.time.legal = true by decide +kernel, _, rfl⟩

theorem witness_StepFollowsItsSources :
    (let t := TimeUnit.reset
     let d : Dev := { dev with stepPend := [(7, 0)] }
     let r := withOcc [] dev
     let tt1 : Timetable := { tt0 with root := false }
     let n : Dev := r.modPart 0 (fun p => { p with installed := some tt1 })
     let bad : Dev := (r.modPart 0 (fun p =>
       { p with installed := some { tt1 with entries := [{ te0 with hbmmask := 1, hbmshare := 1 }] } })).modStack 0 (fun k => { k with failed := 1 })
     d.hold.paused = false ∧ t.now % t.slotLen = 0 ∧ d.stepPend.find? (fun p => p.2 = t.slot) = some (7, t.slot) ∧
     (r.part 0).installed = some tt0 ∧ r.atStep tt0 t.slot = some 0 ∧ tt0.root = true ∧ tt0.steps = 0 ∧
     r.hold.paused = false ∧ n.hold.paused = false ∧ bad.hold.paused = false ∧ (bad.part 0).installed.isSome = true ∧
     (n.part 0).installed = some tt1 ∧ n.atStep tt1 t.slot = some 0 ∧ n.recheck t 0 = none ∧ (bad.recheck t 0).isSome = true) := by
  decide +kernel

/-- A device with holds raised, its own, or outstanding. -/
def holding (h : Hold) : Dev := { dev with hold := h }

theorem witness_HoldPausesAndResumeShifts :
    (let t := clock 4096 .locked
     let live : HoldId := { init := 0, seq := 0, pause := 1, resume := some 1, cause := 2, src := 0, late := false }
     let p := holding { Hold.reset with live := [{ live with resume := none }] }
     let r := holding { Hold.reset with live := [live], paused := true }
     let own : Dev := (holding { Hold.reset with own := [(.stack 0, 3)] }).modStack 0 (fun k => { k with normalSince := some 0 })
     t.now % t.slotLen = 0 ∧ (holding { Hold.reset with raised := [.thermal] }).hold.raised = [.thermal] ∧
     p.hold.paused = false ∧ p.hold.pauseSlot = some 1 ∧ 1 ≤ t.slot ∧ r.hold.resumeSlot = some 1 ∧ r.hold.pauseSlot = some 1 ∧
     own.hold.own = [(.stack 0, 3)] ∧ own.cleared (clock 1000000 .locked) (.stack 0) = true) := by
  decide +kernel

theorem witness_OccurrencesDepartDeliverOrOverrun :
    (let t := TimeUnit.reset
     let o := { occ0 with bound := 1, ctoken := some 5 }
     let d := withOcc [o] dev
     let f := withOcc [{ o with reached := true, closed := 1 }] dev
     d.ttFor 0 0 0 = some (tt0, te0) ∧ d.occ key0 = some o ∧ d.depSlot o ≤ t.slot ∧ o.reached = false ∧ o.open = true ∧
     d.hold.paused = false ∧ d.timeOut = false ∧ tt0.resume = none ∧ d.entryStreams te0 (fun x => x.state == .faulted) = [] ∧
     d.entryStreams te0 (fun x => x.state == .idle && x.afterHalt) = [] ∧
     f.openOccIf 0 0 0 (fun o => f.workDone o && !o.te.maint) = some { o with reached := true, closed := 1 } ∧
     (d.ttFor 0 0 0).all (fun x => (d.occ { part := 0, gen := x.1.gen, entry := 0, k := 0 }).isSome) = true ∧
     d.openOccIf 0 0 0 (fun o => !o.withdrawn && !o.te.maint && decide (d.promise o < (clock 8192 .locked).slot)) = some o) := by
  decide +kernel

theorem witness_DeliverySetsTheCompletionToken :
    (let o := { occ0 with bound := 1, ctoken := some 63 }
     let d := withOcc [o] dev
     d.occ o.key = some o ∧ o.key.part < 16 ∧ o.te.quarter < 16 ∧ o.ctoken = some 63 ∧ 63 < 64 ∧ o.te.record = false ∧
     d.noteJob TimeUnit.reset o = none) := by
  decide +kernel

theorem witness_WithdrawalWritesALateRecord :
    (withOcc [occ0] dev).occ occ0.key = some occ0 ∧ occ0.open = true ∧ occ0.key.part < 16 ∧ lateReset < 256 := by
  decide +kernel

/-- A maintenance entry, its timetable and its occurrence. -/
def teM : TEntry := { te0 with maint := true }
def ttM : Timetable := { tt0 with entries := [teM] }

theorem witness_MaintenanceRunsAndEnds :
    (let t := TimeUnit.reset
     let o := ttM.occ 0 0 0 teM
     let d := dev.modPart 0 (fun p => { p with installed := some ttM, occs := [o] })
     let e := dev.modPart 0 (fun p => { p with installed := some ttM, occs := [{ o with start := some 0 }] })
     d.ttFor 0 0 0 = some (ttM, teM) ∧ teM.maint = true ∧ d.occ key0 = some o ∧ o.open = true ∧ o.start = none ∧ d.timeOut = false ∧
     d.hold.paused = false ∧ t.now % t.slotLen = 0 ∧ d.inSpan o t.slot = true ∧
     e.hold.paused = false ∧ e.openOccIf 0 0 0 (fun o => o.te.maint && o.start.isSome &&
       decide (e.promise o < (clock 8192 .locked).slot)) = some { o with start := some 0 }) := by
  decide +kernel

theorem witness_TimetablesTakeOverAndGo :
    (let d := dev.modPart 0 (fun p => { p with staged := some tt0 })
     let tt : Timetable := { tt0 with steps := 1 }
     let e := dev.modPart 0 (fun p => { p with installed := some tt, occs := [{ occ0 with delivered := true }] })
     d.hold.paused = false ∧ (d.part 0).staged = some tt0 ∧ tt0.base + d.shiftOf tt0.shift0 ≤ TimeUnit.reset.slot ∧
     e.hold.paused = false ∧ (e.part 0).installed = some tt ∧ tt.steps ≠ 0 ∧
     tt.base + tt.steps * tt.period + e.shiftOf tt.shift0 ≤ (clock 16384 .locked).slot ∧
     (clock 16384 .locked).now % (clock 16384 .locked).slotLen = 0 ∧
     e.occTotal 0 tt ≤ ((e.part 0).occs.filter (fun o => o.key.gen == tt.gen)).length ∧
     (∀ o ∈ (e.part 0).occs, o.key.gen = tt.gen → o.open = true → o.withdrawn = true)) := by
  decide +kernel

/-- A submission's entry: fields at their bit positions. -/
def entryOf (xs : List (Nat × Nat)) : W512 := BitVec.ofNat 512 (xs.map (fun x => x.1 * 2 ^ x.2)).sum

theorem witness_SubmissionsHaveTheirEffect :
    (let d := dev
     let p := d.part 0
     let i := withKind 1 (entryOf [(0x100001000, 64), (0x100002000, 128)]).toNat
     let s := withKind 3 (entryOf [(1, 64), (1, 128), (0x100001000, 192)]).toNat
     let m := withKind 4 (entryOf [(1, 64), (1, 128), (0x100000000, 192)]).toNat
     submitBad i = false ∧ p.staged = none ∧ p.install = none ∧ p.inside false (fld i 64 64) 64 = true ∧
     p.inside true (fld i 128 64) 8 = true ∧ fld i 192 64 = 0 ∧
     submitBad (withKind 2 0) = false ∧ submitBad s = false ∧ d.masksForeign 0 (fld s 64 64) = false ∧
     p.inside false (fld s 192 64) 16 = true ∧
     (∀ x ∈ maskStreams (fld s 64 64) (fld s 128 3), (d.stream x.1 x.2).state = .idle) ∧
     submitBad m = false ∧ d.masksForeign 0 (fld m 64 64) = false ∧ p.inside false (fld m 192 64) 1 = true ∧
     cfgBad 0 0 (fld m 192 64) = false ∧ submitBad (withKind 5 0) = false ∧ p.resetPend = none) := by
  decide +kernel

theorem witness_BadSubmissionsAreRefused :
    (let w := (entryOf [(1, 500)]).toNat
     submitBad (withKind 1 w) = true ∧ submitBad (withKind 2 w) = true ∧ submitBad (withKind 3 w) = true ∧
     submitBad (withKind 4 w) = true ∧ submitBad (withKind 5 w) = true ∧ fld 6 0 8 = 6 ∧ fld 0x100 0 8 = 0) := by
  decide +kernel

/-- Little-endian bytes of fields at bit positions, stored at a place. -/
def store (a n : Nat) (xs : List (Nat × Nat)) (d : Dev) : Dev :=
  { d with mem := d.mem.putAll a (byteList (toBytes n (xs.map (fun x => x.1 * 2 ^ x.2)).sum)) [] [] }

/-- The INSTALL of a timetable of one entry over bay 0, which another slot length is written into, and partition 0 with it under admission. -/
def ins0 : Install := { header := A, promises := 0x100002000, notify := 0, noteBase := 0, subid := 1, await := Await.none }
def installing (d : Dev) : Dev :=
  ((store A 64 [(0x0100, 0), (11, 16), (1, 32), (4, 64), (4, 128), (0x100003000, 320)] d) |>
    store 0x100003000 32 [(2, 32), (1, 56)]).modPart 0 (fun p => { p with install := some ins0 })

theorem witness_AdmissionInstallsStagesOrRefuses :
    (let t := TimeUnit.reset
     let d := installing dev
     let x := d.readTimetable t { d.coreReq 0 with flight := some (78, 0), await := Await.none } 0 ins0
     (d.part 0).install = some ins0 ∧ d.awaits 78 0 = false ∧ d.whole t ins0.await (Dev.admitEffect t 0 ins0 ins0.await) = true ∧
     x.2.stall = [] ∧ x.1.1.entries = 1 ∧ x.1.2.1.entries = [te0] ∧ x.1.2.2 = false ∧
     (d.part 0).installed = none ∧ ((withOcc [] d).part 0).installed = some tt0 ∧ (d.part 0).arraysInside 0x100002000 0 0 1 = true ∧
     (d.part 0).arraysInside 0 0 0 1 = false) := by
  decide +kernel

theorem witness_PartitionsResetAndComeClean :
    (let t := TimeUnit.reset
     let d := dev.modPart 0 (fun p => { p with resetPend := some 0, cleaning := 1, zeroing := [31] })
     (d.part 0).resetPend = some 0 ∧ 0 ≤ t.slot ∧ t.now % t.slotLen = 0 ∧ (d.part 0).cleaning.toNat.testBit 0 = true ∧
     (d.part 0).cleanDone.toNat.testBit 0 = false ∧ (d.part 0).zeroing.contains 31 = true) := by
  decide +kernel

/-! ### Witnesses: units, memory, links -/

/-- A flight as it stands after issue of a word on bay 0 with the given descriptors. -/
def flight (ds : List (Nat × W512)) (w : W128) (los : List Nat) : Flight :=
  (issue (readyWith ds Cfg.reset w) w []).flight Bay.reset 0 los

def bay (f : Bay → Bay) (d : Dev) : Dev := d.modBay 0 f

/-- A link that awaits bytes for the instruction 7 of bay 0. -/
def awaiting : Dev :=
  dev.modLink 0 (fun k => { k with waiting := [{ tag := 0, typ := 0x10, addr := 0, len := 32, half := false, src := 0, flight := some (0, 7) }] })

/-- A closed block of two slot rows whose MMUL names tile 2. -/
def block0 : Block := { stream := 0, rows := 2, m := 2, ncol := 63, base := 0, mode := 0x330, flight := 0, written := 0, exp := none, taken := [] }

/-- A MOVE from a descriptor to tile 0 that has issued and waits. -/
def parked : Flight := { flight [(0, plain 0 64 A)] (word 0x10 256) [0, 9] with id := 7, parked := true }

theorem witness_UnitsFinishWhatTheyTook :
    (let t := TimeUnit.reset
     let f := flight [(0, brick 0 A)] (word 0x21 (256 + 2 * 2 ^ 9 + 2 ^ 24)) [0, 9]
     let d := dev |> bay (fun y => { y with staged := [(0, Stationary.reset)], closed := [block0], flights := [f] })
     let a : Flight := { f with amax := [0, 0, 0, 0, 0, 0, 0], cfg := qCfg }
     let e := dev |> bay (fun y => { y with flights := [a] })
     let g := dev |> bay (fun y => { y with flights := [{ f with done := true }] })
     let p := dev |> bay (fun y => { y with flights := [parked] })
     let held := awaiting |> bay (fun y => { y with flights := [parked] })
     (d.bay 0).staged = [(0, Stationary.reset)] ∧ (d.bay 0).oldestClosed = some block0 ∧
     (d.bay 0).flights.find? (fun g => g.id = block0.flight) = some f ∧ d.awaitsRead 0 f.id = false ∧
     d.whole t f.await (Dev.writeRow t 0 block0 f) = true ∧ f.opd 9 = .tile 2 ∧ block0.written + 1 < block0.rows ∧ d.owed = [] ∧
     f.await.due ≤ t.now ∧ (block0.result block0.written 63).isSome = true ∧
     (e.bay 0).flights.find? (fun g => g.amax != []) = some a ∧
     e.whole t a.await (Dev.amaxUpdate t { a.req 0x05 0 with await := a.await } a.cfg.qamax.toNat a.amax a.step) = true ∧
     (g.bay 0).flights.find? (fun f => f.id = 0) = some { f with done := true } ∧ g.awaits 0 0 = false ∧ f.waits = false ∧ f.amax = [] ∧
     (p.bay 0).flights.find? (fun f => f.id = 7) = some parked ∧ parked.waits = true ∧ p.awaitsRead 0 7 = false ∧
     (held.bay 0).flights.find? (fun f => f.id = 7) = some parked ∧ held.awaitsRead 0 7 = true) := by
  decide +kernel

/-- A MOVE whose store waits stays in flight, so INSTRUCTION_COMPLETE only has its effect. -/
theorem witness_UnitsFinishWhatTheyTook_waits :
    (let f : Flight := { parked with descs := [(0, plain 0 64 0x10000000000), (9, plain 0 64 A)] }
     let d := (dev.modStack 0 (fun k => { k with filling := true })) |> bay (fun y => { y with flights := [f] })
     let d1 := d.runEffect TimeUnit.reset 0 7 f.await (fun d => (d.reissue 0 f).effect TimeUnit.reset d)
     (d.bay 0).flights.find? (fun f => f.id = 7) = some f ∧ f.waits = true ∧ d.awaitsRead 0 7 = false ∧
     (d1.bay 0).flights.all (fun g => g.id != 7 || !g.done) = true) := by
  decide +kernel

/-- An occurrence of a COLL entry, and a collective that bay 0 has issued with two vectors of 64 elements. -/
def occC : Occ := { occ0 with te := { te0 with coll := true }, paths := some ps0, bound := 1, ctoken := some 5 }
def coll0 : Coll :=
  { occ := key0, ps := ps0, seq := 0, op := 4, red := 0, peer := 9, issued := [(0, 0)], running := false, spoil := false, own := [],
    todo := [], held := [], fin := [], incl := 0, dropc := 0, dropped := false, lastSlot := 0, ending := none, await := Await.none, step := 0 }
def collWith (c : Coll) : Dev :=
  let w := word 0x58 (256 + 257 * 2 ^ 9 + 4 * 2 ^ 18 + 9 * 2 ^ 31)
  let d := (withOcc [occC] dev) |> bay (fun y => { y with flights := [flight [(0, plain 0 64 A), (1, plain 0 64 (A + 0x4000))] w [0, 9]] })
  { d with colls := [c] }

theorem witness_CollectivesBeginCompleteOrAreAbandoned :
    (let t := TimeUnit.reset
     let d := collWith coll0
     let e := coll0.issued.foldl (fun (d : Dev) x => d.modBay x.1 (·.beginFlight x.2)) d
     let r := { coll0 with running := true }
     let u := collWith r
     let c1 : Coll := { r with ending := some (1, u.fab.addr.toNat), todo := [], held := [] }
     d.colls[0]? = some coll0 ∧ d.collReady t coll0 = true ∧ d.collAwaits coll0 = false ∧
     e.whole t coll0.await (Dev.collBegin t 0 coll0) = true ∧ (collShape coll0.op (e.collBays coll0)).isSome = true ∧
     (e.collBays coll0).length = 1 ∧
     u.colls[0]? = some r ∧ r.running = true ∧ r.todo = [] ∧ u.collAwaits r = false ∧ u.whole t r.await (Dev.collFinish t 0 r) = true ∧
     u.watchdogDue (clock 8388608 .locked) r = true ∧ u.occ r.occ = some occC ∧ occC.open = true ∧ r.occ.part < 16 ∧
     u.collAwaits c1 = false ∧ u.whole (clock 8388608 .locked) r.await (Dev.collFinish (clock 8388608 .locked) 0 c1) = true) := by
  decide +kernel

/-- A shard of one brick with one parameter: its header, its two lines of zeros, and the zero coefficient table. -/
def updWord : W128 := word 0x60 (256 + 257 * 2 ^ 9)
def stDesc : W512 := plain 0xD 256 A
def gradDesc : W512 := descBits 3 2 1 0 (A + 0x4000) [1, 1] [1, 1]
def updFlight0 : Flight := { flight [(0, stDesc), (1, gradDesc)] updWord [0, 9, 18] with ctab := 0x140000000 }
def updDev : Dev :=
  ((dev |> store A 48 [(0x0100, 0), (1, 32), (A + 0x10000, 256), (A + 0x20000, 320)]) |> bay (fun y => { y with flights := [updFlight0] }))
def opdDesc (o : Opd) : Desc := match o with | .desc x => x | .tile _ => parseDesc 0 0 0

/-- What the prologue finds. -/
def updRun0 : UpdRun :=
  { bay := 0, flight := 0, phase := 0, planes := 0, blocks := 1, rows := 0, lmax := 0, mask := 0, up := A + 0x20000, down := A + 0x10000,
    flags := 0, coefs := [0, 0, 0, 0, 0, 0, 0, 0x3F800000, 0x3F800000, 0x3F800000, 0x3F800000], listed := [], recs := [], copied := [], spoil := false }

theorem witness_UpdateUnitRunsItsPhases :
    (let t := TimeUnit.reset
     let f := updFlight0
     let st := opdDesc (f.opd 0)
     let g := opdDesc (f.opd 9)
     let begin' (d : Dev) : Dev := updPrologueEffect 0 0 t f st g (d.modBay 0 (·.beginFlight f.id))
     f.opd 0 = .desc st ∧ f.opd 9 = .desc g ∧ (updDev.pier 0).upd = none ∧ (updDev.bay 0).nextUpd = some f ∧
     updDev.awaits 0 f.id = false ∧ updDev.whole t f.await begin' = true ∧
     (match ((updDev.modBay 0 (·.beginFlight f.id)).prologue t 0 0 f st g).1 with | .ok x => x.1 == updRun0 | .error _ => false) = true) := by
  decide +kernel

theorem witness_UpdateUnitRunsItsPhases_body :
    (let t := TimeUnit.reset
     let f := updFlight0
     let st := opdDesc (f.opd 0)
     let g := opdDesc (f.opd 9)
     let d := updDev.modPier 0 (fun p => { p with upd := some updRun0 })
     let o := updRun0.ops g st.slot
     let x := d.updSeals t 0 f (f.updReq 0) updRun0 o
     (d.pier 0).upd = some updRun0 ∧ d.updFlight updRun0 = some f ∧ d.awaits 0 f.id = false ∧ updRun0.phase = 0 ∧
     bit f.word.toNat 36 = false ∧ d.whole t f.await (updRunEffect 0 0 t updRun0 f st g) = true ∧
     (x.2.denseFrom t (f.updReq 0) updRun0 o f.step.toNat f.cfg.sealchk x.1 (upTo g.bricks) UpdCount.zero).1.isNone = true) := by
  decide +kernel

theorem witness_UpdateUnitRunsItsPhases_epilogue :
    (let t := TimeUnit.reset
     let f := updFlight0
     let u : UpdRun := { updRun0 with phase := 1 }
     let d := updDev.modPier 0 (fun p => { p with upd := some u })
     let header := toBytes 8 (f.step + 1).toNat ++ (if bit f.word.toNat 36 then toBytes 4 u.listed.length else [])
     let fin (d : Dev) : Dev :=
       (((d.store t (f.updReq u.bay) u.down (byteList header) (List.replicate header.length u.spoil) []).updBusy 0 40 f.occ).modPier 0
         (fun x => { x with upd := none })).finish u.bay f.id
     (d.pier 0).upd = some u ∧ d.updFlight u = some f ∧ d.awaits u.bay f.id = false ∧ u.phase = 1 ∧ d.whole t f.await fin = true) := by
  decide +kernel

/-- Stack 0 filling with poison, so that it serves no request. -/
def filling : Dev := dev.modStack 0 (fun k => { k with filling := true })

theorem witness_MemoryRequestsReachTheirControllers :
    (let t := TimeUnit.reset
     let a := 0x10000000000
     let e : Dev := { dev with nextJob := dev.nextJob + 1 }
     dev.regionAt a = .hbm 0 0 ∧ (match dev.regionAt (regAddr .epoch) with | .control _ => true | _ => false) = true ∧
     e.whole t Await.none (Dev.serve t dev.nextJob (.mem (.read a 64 0x1000 none 3)) Await.none) = true ∧
     e.whole t Await.none (Dev.serve t dev.nextJob (.mem (.atomic 3 a [1, 0, 0, 0] [] [] 0x1000 none)) Await.none) = true ∧
     dev.mustWait a 1 = false ∧ filling.owed = [] ∧ filling.mustWait a 64 = true) := by
  decide +kernel

theorem witness_HbmWritesAndOperationsChangeTheirBytesOnly :
    dev.regionAt 0x10000000000 = .hbm 0 0 ∧ dev.mustWait 0x10000000000 4 = false ∧ dev.mem.errs = [] ∧
    dev.deadGranules 0x10000000000 4 = [] ∧ dev.owed = [] ∧ (dev.stack 0).dies = [] ∧ dev.mem.wf = true := by
  decide +kernel

theorem witness_MemorySideAddIsModular :
    (0x10000000000 : Nat) % 4 = 0 ∧ Memory.reset.anyPoison 0x10000000000 4 = false ∧
    (Memory.reset.fillRange 0x10000000000 4 true).anyPoison 0x10000000000 4 = true := by
  decide +kernel

theorem witness_ControllersKeepTheirMemory :
    (let d := dev
     let t := clock (24 * 3600000000000) .locked
     let m : Dev := { d with mem := { d.mem with backs := [5] } }
     let z := d.modInteg 64 (fun g => { g with zeroing := [127] })
     let b := d.modInteg 0 (fun g => { g with bankPend := [31] })
     let c := d.modInteg 0 (fun g => { g with bankCopy := [31] })
     let i := d.modInteg 79 (fun g => { g with inject := some { addr := 0x170000000, kind := 1 } })
     m.mem.backs.contains 5 = true ∧
     (d.integ 79).scrubEn = true ∧ d.isRetired (d.regionAt (scrubAddr (blockAt 79) 0)) = false ∧
     d.isFailed (d.regionAt (scrubAddr (blockAt 79) 0)) = false ∧ d.mem.errs = [] ∧
     d.scrubSize (blockAt 79) ≠ 0 ∧ d.mustWait (scrubAddr (blockAt 79) 0) (scrubUnit (blockAt 79)) = false ∧ d.owed = [] ∧
     (∀ k : Fin 12, (d.stack k).dies = []) ∧
     (d.integ 79).scrubPos + scrubUnit (blockAt 79) < (lapRange (blockAt 79) (d.scrubSize (blockAt 79)) (d.integ 79).scrubPos).2 ∧
     (d.integ 79).lapLate = false ∧ (d.integ 79).lapStart + (d.integ 79).lapMax.toNat * 3600000000000 ≤ t.now ∧
     (z.integ 64).zeroing.contains 127 = true ∧
     (b.integ 0).bankPend.contains 31 = true ∧ TimeUnit.reset.now + 800000 ≤ (1000 + 1) * TimeUnit.reset.slotLen ∧
     (c.integ 0).bankCopy.contains 31 = true ∧
     (i.integ 79).inject = some { addr := 0x170000000, kind := 1 }) := by
  decide +kernel

/-- Stack 11 in a thermal state. -/
def therm (x : Therm) : Dev := dev.modStack 11 (fun k => { k with therm := x })

theorem witness_StackTemperatureMovesStates :
    (let x := dev.stack 11
     x.present = true ∧ x.hotC.toNat ≤ x.critC.toNat ∧ x.therm = .normal ∧ 84 < x.hotC.toNat ∧ x.hotC.toNat ≤ 85 ∧ 85 < x.critC.toNat ∧
     ((therm .hot).stack 11).therm = .hot ∧ 83 + 2 ≤ x.hotC.toNat ∧ x.hotC.toNat < 84 + 2 ∧ x.critC.toNat ≤ 95 ∧
     dev.hold.raised = [] ∧ dev.hold.own = [] ∧ ((therm .critical).stack 11).therm = .critical ∧ x.critC.toNat < 94 + 2) := by
  decide +kernel

theorem witness_ChannelsRetrainFailAndMapOut :
    (let t := TimeUnit.reset
     let day := clock 86400000000000 .locked
     let d := dev
     let x := d.stack 0
     let e := d.modStack 0 (fun k => { k with chans := vmod k.chans 15 (fun c => { c with corr := List.replicate 64 0 }) })
     let tr := d.modStack 0 (fun k => { k with training := 0x8000 })
     let em := d.modStack 0 (fun k => { k with training := 0x8000, chans := vmod k.chans 15 (fun c => { c with emergency := true }) })
     let f := d.modStack 0 (fun k => { k with failed := 1 })
     let p := d.modStack 0 (fun k => { k with filling := true })
     let cool : Dev := ({ d with hold := { Hold.reset with own := [(.stack 0, 3)] } } : Dev).modStack 0 (fun k => { k with normalSince := some 0 })
     x.inService.toNat.testBit 15 = true ∧ (vget Channel.reset x.chans 15).trainTime + 86400000000000 ≤ day.now ∧
     x.failed.toNat.testBit 15 = false ∧ x.training.toNat.testBit 15 = false ∧ x.emerg = true ∧ (e.stack 0).trigger 15 t.now ≠ 0 ∧
     (vget Channel.reset (e.stack 0).chans 15).lastEnd = none ∧
     (tr.stack 0).training.toNat.testBit 15 = true ∧ (vget Channel.reset (tr.stack 0).chans 15).emergency = false ∧
     (em.stack 0).training.toNat.testBit 15 = true ∧ (vget Channel.reset (em.stack 0).chans 15).emergency = true ∧
     (f.stack 0).failed ≠ 0 ∧ (f.stack 0).filling = false ∧ f.namesStack 0 = false ∧ t.now % t.slotLen = 0 ∧
     (p.stack 0).filling = true ∧ (p.stack 0).mapped = [] ∧
     cool.cleared (clock 1000000 .locked) (.stack 0) = true ∧ cool.hold.own = [(.stack 0, 3)]) := by
  decide +kernel

/-! ### Witnesses: links and peers -/

/-- A device with a fabric address whose link 0 is in a state, with four quads and partition 0 mapped for its PART 0. -/
def linked (x : LinkState) : Dev :=
  ({ dev with fab := { dev.fab with addr := 1, valid := true } } : Dev).modLink 0 (fun k =>
    { k with state := x, quads := 15, myQuads := if x = .training then 15 else 0, pmapEn := 1 })

/-- A packet to that device. -/
def toUs (typ : Nat) (arg : Nat) (data : List Byte) : Packet := { pkt typ data with daddr := 1, arg := w64 arg }

/-- A CAP packet of a far end with versions 0x0100 to 0x0100 and four quads. -/
def capPkt : Packet := pkt 0x01 (byteList (toBytes 32 (0x0100 + 0x0100 * 2 ^ 16 + 15 * 2 ^ 48)))

theorem witness_LinksTrainAgreeAndNarrow :
    (let d := linked .training
     let k := d.link 0
     let w := ofBytes (natBytes capPkt.payload)
     let u := (linked .up).link 0
     k.state = .training ∧ k.capSeen = false ∧ 2 ≤ popCount 4 (3 : BitVec 4).toNat ∧ popCount 4 (1 : BitVec 4).toNat < 2 ∧
     capPkt.typ = 0x01 ∧ capPkt.seq = k.recvSeq + 1 ∧ k.myQuads ≠ 0 ∧ fld w 0 16 ≤ 0x0100 ∧ 0x0100 ≤ fld w 16 16 ∧
     2 ≤ popCount 4 (k.myQuads &&& BitVec.ofNat 4 (fld w 48 4) &&& k.qmask).toNat ∧
     u.state = .up ∧ u.quads.toNat.testBit 3 = true ∧ 3 ≤ popCount 4 u.quads.toNat ∧
     popCount 4 ((linked .up).modLink 0 (fun k => { k with quads := 3 }) |>.link 0).quads.toNat ≤ 2) := by
  decide +kernel

theorem witness_LinkServiceCountsAndReplays :
    (let t := TimeUnit.reset
     let d := (linked .up).modLink 0 (fun k => { k with unacked := [pkt 0x11 []], replayed := 1000000 })
     let far := (linked .up).modLink 0 (fun k => { k with replayed := t.linkBytes / 32 })
     let near := (linked .up).modLink 0 (fun k =>
       { k with replayed := t.linkBytes, overSlots := 2, lastCaution := some 0, unc := vmod k.unc 2 (fun _ => 5) })
     let k := d.link 0
     t.linkBytes < 16 * (near.link 0).replayed ∧ 2 ≤ (near.link 0).overSlots ∧ (near.link 0).lastCaution = some 0 ∧ t.slot < 0 + 1024 ∧
     (near.link 0).worstQuad 1 = 2 ∧ bit (near.link 0).quads.toNat 3 = true ∧
     k.state = .up ∧ k.unacked.findIdx? (fun u => u.seq == 1) = some 0 ∧
     t.linkBytes < 64 * (far.link 0).replayed ∧ 16 * (far.link 0).replayed ≤ t.linkBytes ∧ (far.link 0).lastCaution = none ∧
     (linked .up).nextOn 0 (pkt 0x00 []) = true ∧ (linked .up).nextOn 0 (pkt 0x05 []) = true ∧ knownType 0x05 = false ∧
     (linked .up).nextOn 0 (pkt 0x02 (List.replicate 64 0)) = true) := by
  decide +kernel

/-- What PeerRequestsAreCheckedInOrder asks of a request that passes. -/
def passing (p : Packet) : Bool :=
  let s := linked .up
  let d := s.received 0 p
  let a := fld p.arg.toNat 0 52
  let n := if p.typ = 0x10 then rdLength p else p.payload.length
  let q := fld (d.link 0).pmap.toNat (4 * p.part.toNat) 4
  s.nextOn 0 p && p.daddr == s.fab.addr && (d.link 0).pmapEn.toNat.testBit p.part.toNat && decide (0x100000000 ≤ a) &&
    (d.part q).en && (d.part q).inside (p.typ != 0x10) a n && decide (regionOf a = .hbm 0 0)

theorem witness_PeerRequestsAreCheckedInOrder :
    passing (toUs 0x10 0x10000000000 []) = true ∧ passing (toUs 0x11 0x10000000000 (List.replicate 32 0)) = true ∧
    passing (toUs 0x12 0x10000000000 (List.replicate 32 0)) = true ∧
    (linked .up).nextOn 0 (toUs 0x10 0 []) = true ∧ passing (toUs 0x10 0 []) = false ∧
    (let d := (linked .up).received 0 (toUs 0x10 0x10000000000 [])
     ({ d with nextJob := d.nextJob + 1 } : Dev).whole TimeUnit.reset Await.none
       (Dev.servePeer TimeUnit.reset d.nextJob Await.none 0 (toUs 0x10 0x10000000000 [])) = true) := by
  decide +kernel

theorem witness_PeerResponsesAreTaken :
    (let o : Outstanding := { tag := 0, typ := 0x10, addr := 0x4000000000000, len := 32, half := false, src := 0, flight := none }
     let s := (linked .up).modLink 0 (fun k => { k with waiting := [o] })
     let p := toUs 0x18 0 (List.replicate 32 7)
     s.nextOn 0 p = true ∧ p.daddr = s.fab.addr ∧
     ((s.received 0 p).link (p.tag.toNat % 32)).waiting.find? (fun w => w.tag == p.tag.toNat && w.typ == 0x10) = some o ∧ o.len ≤ 512 ∧
     bit p.arg.toNat 0 = false ∧ fld p.arg.toNat 1 5 = 0 ∧ p.poisonBits = [] ∧ p.payload.length = o.len ∧
     s.nextOn 0 (toUs 0x19 0 []) = true) ∧
    (let o : Outstanding := { tag := 0, typ := 0x10, addr := 0x4000000000000, len := 1024, half := false, src := 0, flight := none }
     let w : Outstanding := { o with typ := 0x11, len := 32 }
     let s := (linked .up).modLink 0 (fun k => { k with waiting := [o, w] })
     let p := toUs 0x18 0 (List.replicate 512 7)
     let a := toUs 0x19 0 []
     s.nextOn 0 p = true ∧ 512 < o.len ∧
     ((s.received 0 p).link (p.tag.toNat % 32)).waiting.find? (fun w => w.tag == p.tag.toNat && w.typ == 0x10) = some o ∧
     s.nextOn 0 a = true ∧ a.daddr = s.fab.addr ∧ w.flight ≠ some (72, 0) ∧
     ((s.received 0 a).link (a.tag.toNat % 32)).waiting.find? (fun w => w.tag == a.tag.toNat && (w.typ == 0x11 || w.typ == 0x12)) = some w ∧
     (((linked .up).received 0 a).link (a.tag.toNat % 32)).waiting.find?
       (fun w => w.tag == a.tag.toNat && (w.typ == 0x11 || w.typ == 0x12)) = none) := by
  decide +kernel

/-- A NOTICE of a kind from initiator 9, sequence 4. -/
def noticePkt (kind : Nat) : Packet := toUs 0x03 0 (byteList (toBytes 32 (kind + 9 * 2 ^ 16 + 4 * 2 ^ 32)))

/-- A collective that expects one chunk of member 9, and the COLL packet that brings it. -/
def collPkt : Packet := { toUs 0x20 0 (List.replicate 32 0) with path := true, saddr := 9 }

theorem witness_NoticesAreTakenByTheirRules :
    (let s := linked .up
     let kinds := [1, 2, 3, 4, 5, 6]
     (kinds.all (fun k => s.nextOn 0 (noticePkt k) && fld (ofBytes (natBytes (noticePkt k).payload)) 0 8 == k) = true) ∧
     s.hold.seen.contains (false, 9, 4) = false ∧ s.hold.seen.contains (true, 9, 4) = false ∧
     TimeUnit.reset.srcLink.toNat = 0 ∧ ({ TimeUnit.reset with srcLink := 5 } : TimeUnit).srcLink.toNat ≠ 0 ∧
     (noticePkt 5).daddr = s.fab.addr ∧ s.nextOn 0 collPkt = true ∧ collPkt.daddr = s.fab.addr ∧
     ((s.received 0 collPkt).link 0).pmapEn.toNat.testBit collPkt.part.toNat = true ∧
     ((s.received 0 collPkt).collArrive TimeUnit.reset 0 collPkt).1 = false ∧
     ((s.received 0 collPkt).link 0).pmapEn.toNat.testBit 1 = false) := by
  decide +kernel

/-- The same COLL packet for path set 1, which a running collective awaits as the first half of what member 9 sends. -/
theorem witness_NoticesAreTakenByTheirRules_coll :
    (let e : CollRecv := { sender := 1, final := true, chunk := 0, lo := 0, hi := 64, bytes := [], incl := 0, dropc := 0 }
     let p : Packet := { collPkt with pathid := 1 }
     let s : Dev := { linked .up with colls := [{ coll0 with running := true, todo := [e] }] }
     s.nextOn 0 p = true ∧ p.daddr = s.fab.addr ∧ ((s.received 0 p).link 0).pmapEn.toNat.testBit p.part.toNat = true ∧
     ((s.received 0 p).collArrive TimeUnit.reset (fld ((s.received 0 p).link 0).pmap.toNat (4 * p.part.toNat) 4) p).1 = true) := by
  decide +kernel

/-! ### Witnesses: waybills, boot, chain, power -/

/-- A drain of the occurrence of entry 0, in a phase. -/
def drain (running : Bool) (phase : Nat) : Drain :=
  { occ := key0, te := te0, addr := 0, table := List.replicate 64 0, step := 0, psid := 0, running := running, phase := phase, lines := []
    sizes := [], digests := [], dpos := [], seeds := [], ltime := 0, await := Await.none }

/-- A device with an identity and one drain, and one with a restore of partition 0 under way. -/
def draining (x : Drain) : Dev := ({ dev with box := { dev.box with idState := 0 } } : Dev).modPier 0 (fun p => { p with drains := [x] })
def restoring (r : Restore) : Dev :=
  dev.modPier 0 (fun p => { p with rstState := vmod p.rstState 0 (fun _ => 1), restores := [r] })

/-- A restore of partition 0 with an empty order, whose slot is read here. -/
def restore0 (phase : Nat) : Restore :=
  { part := 0, phase := phase, order := List.replicate 64 0, map := [], link := none, await := Await.none }

theorem witness_DrainsRestoresAndSignaturesProceed :
    (let t := TimeUnit.reset
     let d := draining (drain false 0)
     let e := draining (drain true 0)
     let f := draining (drain true 5)
     d.draining 0 = false ∧ d.hold.paused = false ∧
     (d.pier 0).drains.find? (fun x => x.occ.part == 0 && !x.running && !x.table.isEmpty) = some (drain false 0) ∧
     (e.pier 0).drains.find? (fun x => x.running && x.occ.part == 0) = some (drain true 0) ∧ e.hold.paused = false ∧
     e.drainWaits 0 (drain true 0) = false ∧ e.whole t Await.none (fun d => d.drainStep t 0 (drain true 0)) = true ∧
     (f.pier 0).drains.find? (fun x => x.running && x.occ.part == 0) = some (drain true 5) ∧ f.hold.paused = false ∧
     f.awaits 64 0 = false ∧ f.box.idState ≠ 2 ∧ te0.bays = [0]) := by
  decide +kernel

theorem witness_DrainsRestoresAndSignaturesProceed_restores :
    (let t := TimeUnit.reset
     let r := restore0 1
     let s := restore0 2
     let d := restoring r
     let h := d.slotRead t 0 r 0 (1536 + 128 * rsShards r.order)
     let key := h.2.fetch t (r.req 0) (bytesAt r.order 32 8 % 2 ^ 52) 512
     vget 0 (d.pier 0).rstState 0 = 1 ∧ (d.pier 0).restores.find? (fun y => y.part == 0) = some r ∧ d.awaitsRead 68 0 = false ∧
     d.whole t r.await (fun d => d.restoreStep t 0 r) = true ∧ key.2.stall = [] ∧
     (headFault r h.1.1 (natBytes key.1.1)).map (·.1) = some 1 ∧
     ((restoring s).pier 0).restores.find? (fun y => y.part == 0) = some s ∧
     (restoring s).whole t s.await (fun d => d.restoreStep t 0 s) = true) := by
  decide +kernel

theorem witness_DrainsRestoresAndSignaturesProceed_signer :
    (let w (x : Option Bool) : SignJob := .waybill 0 0 0 0 [] x
     let q (a : Option Nat) (x : Option Nat) : SignJob := .quote a (some ([], [])) x
     let sign (j : SignJob) : Dev := { dev with bond := { dev.bond with signer := [j] } }
     let rep : Dev := { dev with box := { dev.box with repPending := true } }
     let wr : Dev := { dev with box := { dev.box with repWriting := some [1] } }
     (sign (w none)).bond.signer = [w none] ∧ (sign (w (some true))).bond.signer = [w (some true)] ∧
     (sign (w (some true))).awaits 72 0 = false ∧ (sign (w (some true))).signerPosts = false ∧
     (sign (q none none)).bond.signer = [q none none] ∧ (sign (q (some A) none)).bond.signer = [q (some A) none] ∧
     (sign (q (some A) (some 0))).bond.signer = [q (some A) (some 0)] ∧ (sign (q (some A) (some 0))).awaits 79 0 = false ∧
     (sign (q (some A) (some 0))).held.any (fun h => h.id == 0) = false ∧
     rep.box.stage = 3 ∧ rep.powered = true ∧ rep.box.repPending = true ∧ rep.box.repWriting = none ∧
     wr.box.repWriting = some [1]) := by
  decide +kernel

theorem witness_BootGoesThroughItsStages :
    Dev.reset.powered = true ∧ Dev.reset.box.stage = 0 ∧ ({ Dev.reset.box with stage := 1 } : Box).stage = 1 ∧
    Dev.reset.box.tested = false ∧ ({ Dev.reset.box with tested := true } : Box).tested = true := by
  decide +kernel

/-- A device with an I3C address and an identity. -/
def chained : Dev := { dev with box := { dev.box with daValid := true, idState := 0, reply := .data [1] } }

theorem witness_ChainCommandsAnswer :
    chained.settled = true ∧ chained.powered = true ∧ chained.box.daValid = true ∧ dev.powered = true ∧ dev.box.daValid = false ∧
    (0xFFFF8 : W64).toNat < 0x100000 ∧ (0xFFFF8 : W64).toNat % 8 = 0 ∧ chainReg 0x200000 = none ∧
    (chainReg (regAddr .bondBoot)).isSome = true ∧ chained.box.idState ≠ 2 ∧ (List.replicate 64 (0 : Byte)).length = 64 ∧
    chained.box.stage = 3 ∧ (0x10000 : W32).toNat % 0x10000 = 0 ∧ chained.box.reply = .data [1] ∧
    ({ chained.box with reply := .nack } : Box).reply = .nack := by
  decide +kernel

/-- A device whose power unit is changed. -/
def power (f : Power → Power) : Dev := dev.modPwr f

theorem witness_PowerComesAndGoes :
    (let off := power (fun p => { p with pwrGood := false })
     let low := power (fun p => { p with pwrEn := false })
     let rst := power (fun p => { p with resetN := false })
     dev.pwr.standby = true ∧ off.pwr.standby = true ∧ off.pwr.pwrEn = true ∧ off.pwr.pwrGood = false ∧ off.pwr.thermtripN = true ∧
     dev.pwr.pwrEn = true ∧ dev.pwr.rails = true ∧ low.pwr.pwrEn = false ∧ low.pwr.rails = true ∧ rst.pwr.resetN = false) := by
  decide +kernel

theorem witness_InputVoltageActs :
    (let near := power (fun p => { p with vinZone := 1 })
     let out := power (fun p => { p with vinZone := 2 })
     let stop := power (fun p => { p with vinZone := 4 })
     let own : Dev := { (power (fun p => { p with vinOkSince := some 0 })) with hold := { Hold.reset with own := [(.supply, 3)] } }
     let t := clock 10000001 .locked
     let low := power (fun p => { p with vinZone := 3 })
     low.pwr.vinZone = 3 ∧ out.hold.raised.contains .supply = false ∧ out.hold.own.any (fun x => x.1 = .supply) = false ∧
     near.pwr.vinZone = 1 ∧ near.pwr.zoneSince + 100000 ≤ t.now ∧ near.pwr.lastVinCaution = none ∧
     out.pwr.vinZone = 2 ∧ out.pwr.zoneSince + 10000000 < t.now ∧ out.hold.raised = [] ∧ out.hold.own = [] ∧
     own.cleared t .supply = true ∧ own.hold.own = [(.supply, 3)] ∧ stop.pwr.rails = true ∧ (stop.mustStop t = true ∨ out.mustStop t = true)) := by
  decide +kernel

theorem witness_ShaperVoltageDroopAndTemperature :
    (let own : Dev := { (power (fun p => { p with dieCoolSince := some 0 })) with hold := { Hold.reset with own := [(.thermal, 3)] } }
     let o : Outstanding := { tag := 5, typ := 3, addr := 0, len := 4, half := false, src := 0, flight := none }
     let r := dev.modPort 0 (fun k => { k with waiting := [o] })
     dev.pwr.balen = true ∧ (power (fun p => { p with balen := false })).pwr.balen = false ∧
     vget 0 dev.pwr.voltAt 8 = 0 ∧ dev.pwr.vfloor.toNat ≤ 700 ∧ dev.bayPresent (16 * 3 + 15) = true ∧
     dev.hold.raised = [] ∧ dev.hold.own = [] ∧ own.cleared (clock 1000000 .locked) .thermal = true ∧ own.hold.own = [(.thermal, 3)] ∧
     (r.portOf 0).waiting.find? (fun w => w.tag = 5) = some o ∧ (r.portOf 0).waiting.all (fun w => w.tag != 7) = true) := by
  decide +kernel

theorem witness_TurnMirrorsATile :
    (let w := word 0x40 (2 ^ 9)
     opc w.toNat = 0x40 ∧ bit w.toNat 18 = false ∧ fld w.toNat 0 9 < 256 ∧ fld w.toNat 9 9 < 256 ∧
     taken (ready w) w [] [0, 9] turnFault = true ∧ ((ready w).bay 0).flights.all (fun f => !f.parked) = true ∧ (ready w).owed = []) := by
  decide +kernel

theorem witness_IntegerVopComputesTheRegion :
    (let good (op vl : Nat) : Bool :=
       let w := word 0x30 (2 ^ 9 + 2 * 2 ^ 18 + op * 2 ^ 36)
       let d := readyWith [] { Cfg.reset with vl := BitVec.ofNat 7 vl } w
       !bit w.toNat 44 && decide (fld w.toNat 36 8 = op) && taken d w [0] (fields d w (fun j => vopOpds j j.vopShape)) vopFault &&
         (d.bay 0).flights.all (fun f => !f.parked) && d.owed.isEmpty
     [0x40, 0x41, 0x42, 0x45, 0x46, 0x47, 0x4B, 0x4C].all (fun op => good op 64 && good op 1) = true) := by
  decide +kernel

end Sys2Proof.Tests
end

section
/-! Proofs of the slot boundary, of the register writes that wait for it, and of reset (R17, R18, R44). -/

namespace Sys2Proof.Machine

/-! ### What leaves the waiting writes alone

A committed write may adopt rings, write records, send packets and withdraw occurrences; none of that makes a register write wait. -/

theorem pend_of_sansTraffic {d e : Dev} (h : d.sansTraffic = e.sansTraffic) : d.pend = e.pend := congrArg (·.pend) h

theorem pend_of_sansRings {d e : Dev} (h : d.sansRings = e.sansRings) : d.pend = e.pend := congrArg (·.pend) h

theorem foldl_pend {α : Type} {f : Dev → α → Dev} (h : ∀ d x, (f d x).pend = d.pend) (l : List α) (d : Dev) :
    (l.foldl f d).pend = d.pend := foldl_keeps (·.pend) f h l d

@[simp] theorem Dev.eventPut_pend (t : TimeUnit) (q : Nat) (r : EvRec) (d : Dev) : (d.eventPut t q r).pend = d.pend :=
  pend_of_sansTraffic (eventPut_sansTraffic t q r d)

@[simp] theorem Dev.flushOwed_pend (t : TimeUnit) (d : Dev) : (d.flushOwed t).pend = d.pend :=
  pend_of_sansRings (flushOwed_sansRings t d)

@[simp] theorem Dev.emit_pend (t : TimeUnit) (q : Option Nat) (r : EvRec) (d : Dev) : (d.emit t q r).pend = d.pend :=
  pend_of_sansRings (emit_sansRings t q r d)

@[simp] theorem Dev.conflict_pend (t : TimeUnit) (q : Req) (src count : Nat) (d : Dev) : (d.conflict t q src count).pend = d.pend :=
  pend_of_sansRings (conflict_sansRings t q src count d)

@[simp] theorem Dev.sendOn_pend (l : Nat) (p : Packet) (d : Dev) : (d.sendOn l p).pend = d.pend :=
  pend_of_sansTraffic (sendOn_sansTraffic l p d)

@[simp] theorem Dev.service_pend (l : Nat) (d : Dev) : (d.service l).pend = d.pend :=
  pend_of_sansTraffic (service_sansTraffic l d)

@[simp] theorem Dev.modOcc_pend (k : OccKey) (f : Occ → Occ) (d : Dev) : (d.modOcc k f).pend = d.pend := Dev.modPart_pend _ _ _

@[simp] theorem Dev.bondDue_pend (d : Dev) : d.bondDue.pend = d.pend := rfl

/-! ### Adopting rings (R441) -/

@[simp] theorem Dev.readMask_pend (t : TimeUnit) (q : Req) (a n : Nat) (need : Nat → Bool) (d : Dev) :
    (d.readMask t q a n need).2.pend = d.pend :=
  (Dev.flushOwed_pend _ _).trans (pend_of_sansTraffic (loadReq_sansTraffic t q a n need d))

@[simp] theorem Dev.eventPuts_pend (t : TimeUnit) (q : Nat) (rs : List EvRec) (d : Dev) :
    (rs.foldl (fun (d : Dev) r => d.eventPut t q r) d).pend = d.pend := foldl_pend (fun d r => Dev.eventPut_pend t q r d) rs d

@[simp] theorem Dev.flushHeld_pend (t : TimeUnit) (d : Dev) : (d.flushHeld t).pend = d.pend := by
  unfold Dev.flushHeld
  split
  · rfl
  · split
    · rfl
    · simp only
      split
      · rfl
      · split <;> simp

@[simp] theorem Dev.adoptRing_pend (t : TimeUnit) (c : Req) (q r : Nat) (d : Dev) : (d.adoptRing t c q r false).pend = d.pend := by
  unfold Dev.adoptRing
  simp only
  split
  · rfl
  · split
    · exact Dev.readMask_pend _ _ _ _ _ _
    · split
      · contradiction
      · split <;> simp

@[simp] theorem Dev.askRemote_pend (d d' : Dev) : (d.askRemote d').pend = d.pend := by
  have link (l : Nat) (e : Dev) : (Dev.askLink d' l e).pend = e.pend := by
    unfold Dev.askLink
    simp only
    split
    · rfl
    · rw [foldl_pend (fun e p => Dev.sendOn_pend l p e), Dev.modLink_pend]
  unfold Dev.askRemote
  rw [foldl_pend (fun e l => link l e)]

/-- A job whose effect keeps the waiting writes keeps them, whether it is done or has to wait. -/
theorem Dev.attempt_pend (t : TimeUnit) (w : Await) {effect : Await → Dev → Dev} (h : ∀ w d, (effect w d).pend = d.pend) (d : Dev) :
    (d.attempt t w effect).2.pend = d.pend := by
  unfold Dev.attempt
  simp only
  split
  · rfl
  · split
    · simp only [Dev.askRemote_pend]
    · split
      · rfl
      · simp [h]

theorem Dev.request_adopt_pend (t : TimeUnit) (q r : Nat) (d : Dev) : (d.request t (.adopt q r false)).pend = d.pend := by
  have key := Dev.attempt_pend t Await.none (effect := Dev.serve t d.nextJob (.adopt q r false))
    (fun w e => Dev.adoptRing_pend t _ q r e) { d with nextJob := d.nextJob + 1 }
  unfold Dev.request
  simp only
  split <;> simp_all

@[simp] theorem Dev.adoptRings_pend (t : TimeUnit) (q : Nat) (d : Dev) : (d.adoptRings t q).pend = d.pend :=
  (foldl_pend (fun d r => Dev.request_adopt_pend t q r d) _ _).trans (Dev.modPart_pend _ _ _)

/-! ### A link's changes (R367, R385) -/

@[simp] theorem Dev.sendRouted_pend (p : Packet) (d : Dev) : (d.sendRouted p).pend = d.pend := by
  unfold Dev.sendRouted
  split <;> simp

@[simp] theorem Dev.withdraw_pend (t : TimeUnit) (cause slot : Nat) (k : OccKey) (d : Dev) : (d.withdraw t cause slot k).pend = d.pend := by
  have late (o : Occ) (e : Dev) : (e.sendPeerLate o slot).pend = e.pend := by
    unfold Dev.sendPeerLate
    split
    · rfl
    · exact foldl_pend (fun d r => Dev.sendRouted_pend _ d) _ _
  unfold Dev.withdraw
  split
  · rfl
  · split
    · rfl
    · simp only
      split <;> simp [late]

@[simp] theorem Dev.unlink_pend (t : TimeUnit) (k : OccKey) (d : Dev) : (d.unlink t k).pend = d.pend := by
  simp [Dev.unlink]

theorem Dev.ensureOcc_pend {d e : Dev} {q : Nat} {tt : Timetable} {n k : Nat} {o : Occ} (h : d.ensureOcc q tt n k = some (o, e)) :
    e.pend = d.pend := by
  unfold Dev.ensureOcc at h
  split at h
  · contradiction
  · split at h
    · contradiction
    · split at h
      · cases h; rfl
      · cases h; simp

@[simp] theorem Dev.linkOccs_pend (t : TimeUnit) (l : Nat) (d : Dev) : (d.linkOccs t l).pend = d.pend := by
  unfold Dev.linkOccs
  refine foldl_pend (fun d x => ?_) _ _
  simp only
  split
  · rfl
  · refine foldl_pend (fun d e => ?_) _ _
    rw [apply_ite Dev.pend, ite_eq_right_iff]
    intro _
    split
    · next h => exact Dev.ensureOcc_pend h
    · rfl

@[simp] theorem Dev.reroute_pend (l : Nat) (d : Dev) : (d.reroute l).pend = d.pend := by
  unfold Dev.reroute
  simp only
  split
  · exact Dev.service_pend l d
  · rw [foldl_pend (fun d p => Dev.sendRouted_pend p d), Dev.modLink_pend]

@[simp] theorem Dev.linkChange_pend (t : TimeUnit) (l : Nat) (st : LinkState) (quads reason : Nat) (d : Dev) :
    (d.linkChange t l st quads reason).pend = d.pend := by
  unfold Dev.linkChange
  simp [foldl_pend (fun d (o : Occ) => Dev.unlink_pend t o.key d)]

@[simp] theorem Dev.narrow_pend (t : TimeUnit) (l rest reason : Nat) (d : Dev) : (d.narrow t l rest reason).pend = d.pend := by
  unfold Dev.narrow
  split <;> simp

@[simp] theorem Dev.startTraining_pend (t : TimeUnit) (l : Nat) (d : Dev) : (d.startTraining t l).pend = d.pend := by
  unfold Dev.startTraining
  simp only
  split <;> simp

/-! ### A committed write leaves the waiting writes alone (R18) -/

@[simp] theorem Dev.applyReg_pend (r : Reg) (v : Nat) (d : Dev) : (d.applyReg r v).pend = d.pend := by
  unfold Dev.applyReg
  split <;> simp [apply_ite Dev.pend]

@[simp] theorem Dev.partCommit_pend (t : TimeUnit) (q : Nat) (old : Part) (d : Dev) : (d.partCommit t q old).pend = d.pend :=
  Dev.modPart_pend _ _ _

@[simp] theorem Dev.segCommit_pend (q n v : Nat) (d : Dev) : (d.segCommit q n v).pend = d.pend := by
  unfold Dev.segCommit
  split <;> exact Dev.modPart_pend _ _ _

@[simp] theorem Dev.platCommit_pend (t : TimeUnit) (q : Nat) (old : Part) (d : Dev) : (d.platCommit t q old).pend = d.pend := by
  unfold Dev.platCommit
  simp only
  split <;> simp

@[simp] theorem Dev.linkCommit_pend (t : TimeUnit) (l v : Nat) (old : Link) (d : Dev) : (d.linkCommit t l v old).pend = d.pend := by
  unfold Dev.linkCommit
  simp [apply_ite Dev.pend]

@[simp] theorem Dev.codeCommit_pend (k : IntegBlock) (old : Integ) (d : Dev) : (d.codeCommit k old).pend = d.pend :=
  Dev.modInteg_pend _ _ _

theorem Dev.commitOne_pend (t : TimeUnit) (w : PendWrite) (d : Dev) : (d.commitOne t w).pend = d.pend := by
  unfold Dev.commitOne
  split <;> simp [apply_ite Dev.pend]

/-- Once the waiting writes have committed, none waits. -/
theorem Dev.commitWrites_pend (t : TimeUnit) (d : Dev) : (d.commitWrites t).pend = [] :=
  foldl_pend (fun d w => Dev.commitOne_pend t w d) _ _

/-! ### The next edge (R44) -/

theorem TimeUnit.nextEdge_mod (t : TimeUnit) : t.nextEdge % t.slotLen = 0 := by
  unfold TimeUnit.nextEdge
  split
  · next h => exact h.1
  · exact Nat.mul_mod_left _ _

theorem TimeUnit.now_le_nextEdge (t : TimeUnit) : t.now ≤ t.nextEdge := by
  unfold TimeUnit.nextEdge
  split
  · exact le_rfl
  · have hpos : 0 < t.slotLen := Nat.two_pow_pos _
    rw [Nat.succ_mul]
    exact (Nat.lt_div_mul_add hpos).le

/-- Line time that has come to the next edge reads that edge, as long as the count has not wrapped. -/
theorem TimeUnit.toEdge_now {t : TimeUnit} (h : t.nextEdge < 2 ^ 64) : t.toEdge.now = t.nextEdge :=
  (BitVec.toNat_ofNat _ _).trans (Nat.mod_eq_of_lt h)

/-- Settles O23: every part of a commit keeps the list of waiting writes, which commitWrites empties first, and the next edge is a
multiple of the slot length at or after line time. -/
theorem slotBoundaryComesToTheEdge : Obligations.SlotBoundaryComesToTheEdge := by
  intro s
  refine ⟨rfl, Dev.commitWrites_pend _, fun h => ?_⟩
  have hnow := TimeUnit.toEdge_now h
  exact ⟨hnow ▸ s.time.nextEdge_mod, hnow ▸ s.time.now_le_nextEdge, hnow.symm⟩

end Sys2Proof.Machine
end

section
/-! Proofs of the register writes that wait for the slot boundary and of what they do there, and of reset (R17, R18). -/

namespace Sys2Proof.Machine

/-! ### Writes that wait (R18) -/

/-- The registers whose writes wait for the slot boundary. -/
def Reg.waits : Reg → Bool
  | .updCtab _ | .updWb _ _ => true
  | .hbmRetrain _ | .hbmTherm _ | .hbmReg _ _ => true
  | .integ _ .scrub | .integ _ .code0 | .integ _ .code1 => true
  | .lnkCtl _ | .lnkPmap _ | .lnkPmapEn _ => true
  | .fabAddr | .cwd | .route _ => true
  | .bondPart _ _ | .bondSeg _ _ _ | .bondPlat _ _ | .bondPort _ | .bondHwin _ _ => true
  | .pwrCap | .pwrSlew | .pwrVfloor => true
  | _ => false

/-- A host's write of a register that waits is checked, and held or discarded. -/
theorem hostPut_waits {r : Reg} (h : r.waits = true) (q : Req) (v : Nat) (ep : Bool) (t : TimeUnit) (d : Dev) :
    d.hostPut q r v ep t = (t, d.deferWrite t q r v) := by
  unfold Reg.waits at h
  split at h
  case h_23 => contradiction
  all_goals rfl

theorem w64_toNat (v : W64) : w64 v.toNat = v := by simp [w64]

theorem deferWrite_held {t : TimeUnit} {q : Req} {r : Reg} {v : Nat} {d : Dev} (hw : writerOk q r = true) (hb : d.badWrite t r v = false) :
    d.deferWrite t q r v = { d with pend := d.pend ++ [{ reg := r, val := w64 v, req := q }] } := by
  simp [Dev.deferWrite, hw, hb]

theorem deferWrite_discarded {t : TimeUnit} {q : Req} {r : Reg} {v : Nat} {d : Dev} (h : (writerOk q r && !d.badWrite t r v) = false) :
    d.deferWrite t q r v = d.conflict t q (d.regSrc r) (if writerOk q r then d.conflictCount r v else 0) := by
  cases hw : writerOk q r
  · simp [Dev.deferWrite, hw]
  · have hb : d.badWrite t r v = true := by simpa [hw] using h
    simp [Dev.deferWrite, hw, hb]

/-- An accepted write joins the waiting writes, last. -/
theorem hostWrite_accepted {t : TimeUnit} {d : Dev} {f : Func} {r : Reg} {v : Nat} (hr : r.waits = true) (hs : d.settled = true)
    (ha : d.accepts t f r v = true) :
    hostWrite f r v t d = (t, { d with pend := d.pend ++ [{ reg := r, val := w64 v, req := d.hostReq f }] }) := by
  simp only [Dev.accepts, Bool.and_eq_true, Bool.not_eq_true'] at ha
  obtain ⟨⟨hl, hw⟩, hb⟩ := ha
  rw [hostWrite_lets v hl, hostPut_waits hr, deferWrite_held hw hb, w64_toNat]
  exact afterWrite_settled hs

/-- Restores start only where one has been asked for. -/
theorem startRestores_idle {t : TimeUnit} {d : Dev} (h : ∀ p < 4, ∀ q < 16, vget 0 (d.pier p).rstState q ≠ 1) :
    d.startRestores t = d := by
  unfold Dev.startRestores
  refine List.foldlRecOn (motive := fun e => e = d) _ _ rfl (fun e he x hx => ?_)
  obtain ⟨p, hp, hx⟩ := List.mem_flatMap.mp hx
  obtain ⟨q, hq, rfl⟩ := List.mem_map.mp hx
  rw [he, if_neg (fun h1 => h p (List.mem_range.mp hp) q (List.mem_range.mp hq) h1.1)]

theorem conflict_pier (t : TimeUnit) (q : Req) (src count : Nat) (d : Dev) (p : Nat) : (d.conflict t q src count).pier p = d.pier p :=
  congrArg (·.pier p) (conflict_sansRings t q src count d)

/-- No restore starts with the record of a discarded write. -/
theorem startRestores_conflict {t : TimeUnit} {d : Dev} (hs : d.settled = true) (q : Req) (src count : Nat) :
    (d.conflict t q src count).startRestores t = d.conflict t q src count := by
  simp only [Dev.settled, Bool.and_eq_true, List.all_eq_true, bne_iff_ne] at hs
  refine startRestores_idle (fun p hp x hx => ?_)
  rw [conflict_pier]
  exact (hs.2 p (List.mem_range.mpr hp)).2 x (List.mem_range.mpr hx)

/-- A discarded write leaves its POLICY_CONFLICT record, and what waits goes on. -/
theorem hostWrite_refused {t : TimeUnit} {d : Dev} {f : Func} {r : Reg} {v : Nat} (hr : r.waits = true) (hs : d.settled = true)
    (hl : d.lets f r = true) (ha : d.accepts t f r v = false) :
    hostWrite f r v t d = (t, (d.conflict t (d.hostReq f) (d.regSrc r)
      (if writerOk (d.hostReq f) r then d.conflictCount r (w64 v).toNat else 0)).goOn t) := by
  simp only [Dev.accepts, hl, Bool.true_and] at ha
  rw [hostWrite_lets v hl, hostPut_waits hr, deferWrite_discarded ha, afterWrite, startRestores_conflict hs]

/-- A command whose effect leaves line time alone answers the state with the effect's device. -/
theorem runBoth_of_eq {s : State} {g : TimeUnit → Dev → TimeUnit × Dev} {e : Dev} (h : g s.time s.dev = (s.time, e)) :
    s.runBoth g = .next (s.withDev e) := by
  rw [State.runBoth, h]
  rfl

theorem runBoth_accepted {s : State} {f : Func} {r : Reg} {v : W64} (hr : r.waits = true) (hs : s.dev.settled = true)
    (ha : s.dev.accepts s.time f r v.toNat = true) :
    s.runBoth (hostWrite f r v.toNat) =
      .next (s.withDev { s.dev with pend := s.dev.pend ++ [{ reg := r, val := v, req := s.dev.hostReq f }] }) := by
  have h := hostWrite_accepted hr hs ha
  rw [w64_toNat] at h
  exact runBoth_of_eq h

theorem runBoth_refused {s : State} {f : Func} {r : Reg} {v : W64} (hr : r.waits = true) (hs : s.dev.settled = true)
    (hl : s.dev.lets f r = true) (ha : s.dev.accepts s.time f r v.toNat = false) :
    s.runBoth (hostWrite f r v.toNat) = .next (s.withDev ((s.dev.conflict s.time (s.dev.hostReq f) (s.dev.regSrc r)
      (if writerOk (s.dev.hostReq f) r then s.dev.conflictCount r v.toNat else 0)).goOn s.time)) := by
  have h := hostWrite_refused hr hs hl ha
  rw [w64_toNat] at h
  exact runBoth_of_eq h

/-- Settles O12: each of these writes is a host's write of a register that waits. -/
theorem acceptedWritesWaitForTheBoundary : Obligations.AcceptedWritesWaitForTheBoundary := by
  intro s f v k q p w w4 n h l hs
  exact ⟨runBoth_accepted rfl hs, runBoth_accepted rfl hs, runBoth_accepted rfl hs,
    runBoth_accepted rfl hs, runBoth_accepted rfl hs, runBoth_accepted rfl hs,
    runBoth_accepted rfl hs, runBoth_accepted rfl hs,
    fun ha => (exec_linkRetrain s f l).trans (runBoth_of_eq (hostWrite_accepted rfl hs ha))⟩

/-- A discarded write's record: class POLICY_CONFLICT, the register's owner, the count, and the writer's partition (R12, R447). -/
theorem conflict_wrote (t : TimeUnit) (req : Req) (src count : Nat) (d : Dev) :
    ∃ r : EvRec, d.wrote (d.conflict t req src count) r ∧ r.cls = 0x0B ∧ r.source = BitVec.ofNat 16 src ∧ r.count = w64 count ∧
      r.part = BitVec.ofNat 4 (req.part.getD 0) := by
  unfold Dev.conflict
  cases hp : req.part with
  | none => exact ⟨_, emit_wrote _ _ _ _, rfl, rfl, rfl, rfl⟩
  | some p => exact ⟨_, emit_wrote _ _ _ _, rfl, rfl, rfl, rfl⟩

/-- Settles O13: each of these writes is a host's write of a register that waits, and the record is conflict's. -/
theorem refusedWritesLeaveAConflictRecord : Obligations.RefusedWritesLeaveAConflictRecord := by
  refine ⟨fun s f v k q p w w4 n h hs => ?_, fun t d req src count => ?_⟩
  · exact ⟨runBoth_refused rfl hs, runBoth_refused rfl hs, runBoth_refused rfl hs,
      runBoth_refused rfl hs, runBoth_refused rfl hs, runBoth_refused rfl hs,
      runBoth_refused rfl hs, runBoth_refused rfl hs⟩
  · obtain ⟨r, hw, hc, hsrc, hn, hp⟩ := conflict_wrote t req src count d
    exact ⟨r, hw, hc, hsrc, hn, hp, conflict_sansRings t req src count d⟩

/-! ### What a waiting write does (R18) -/

/-- A single waiting write has its effect with none waiting. -/
theorem commitWrites_single (t : TimeUnit) (w : PendWrite) (d : Dev) :
    ({ d with pend := [w] } : Dev).commitWrites t = ({ d with pend := [] } : Dev).commitOne t w := rfl

/-! What these registers' commits do, from the commit of each. -/

theorem commitOne_hbmReg (t : TimeUnit) (k q : Nat) (v : W64) (req : Req) (d : Dev) :
    d.commitOne t { reg := .hbmReg k q, val := v, req := req } =
      (d.applyReg (.hbmReg k q) v.toNat).modStack k (fun y => { y with regs := vmod y.regs q (fun g =>
        { g with level := min (g.burst.toNat * 1024 * 5) ((vget Regulator.reset (d.stack k).regs q).now t.now), time := t.now }) }) := rfl

theorem commitOne_bondHwin (t : TimeUnit) (p h : Nat) (v : W64) (req : Req) (d : Dev) :
    d.commitOne t { reg := .bondHwin p h, val := v, req := req } = d.applyReg (.bondHwin p h) v.toNat := rfl

theorem commitOne_bondPort (t : TimeUnit) (p : Nat) (v : W64) (req : Req) (d : Dev) :
    d.commitOne t { reg := .bondPort p, val := v, req := req } = (d.applyReg (.bondPort p) v.toNat).bondDue := rfl

theorem commitOne_updWb (t : TimeUnit) (p q : Nat) (v : W64) (req : Req) (d : Dev) :
    d.commitOne t { reg := .updWb p q, val := v, req := req } = d.applyReg (.updWb p q) v.toNat := rfl

theorem commitOne_bondPart (t : TimeUnit) (q w : Nat) (v : W64) (req : Req) (d : Dev) :
    d.commitOne t { reg := .bondPart q w, val := v, req := req } = (d.applyReg (.bondPart q w) v.toNat).partCommit t q (d.part q) := rfl

/-- A change of the RW fields of HBM_REGq (R314). -/
theorem applyReg_hbmReg_regs {k : Nat} (hk : k < 12) (q v : Nat) (d : Dev) :
    ((d.applyReg (.hbmReg k q) v).stack k).regs = vmod (d.stack k).regs q (fun g =>
      { g with rate := BitVec.ofNat 9 (fld v 0 9), burst := BitVec.ofNat 7 (fld v 16 7), hard := bit v 23 }) :=
  congrArg Stack.regs (Dev.stack_modStack d hk _)

/-- A committed HBM_REGq sets the regulator's fields; its bucket goes on from what it holds, at most the new BURST (R313, R314). -/
theorem commitOne_hbmReg_regulator (t : TimeUnit) {k q : Nat} (hk : k < 12) (hq : q < 16) (v : W64) (req : Req) (d : Dev) :
    vget Regulator.reset ((d.commitOne t { reg := .hbmReg k q, val := v, req := req }).stack k).regs q =
      { rate := BitVec.ofNat 9 (fld v.toNat 0 9), burst := BitVec.ofNat 7 (fld v.toNat 16 7), hard := bit v.toNat 23
        level := min ((BitVec.ofNat 7 (fld v.toNat 16 7)).toNat * 1024 * 5) ((vget Regulator.reset (d.stack k).regs q).now t.now)
        time := t.now } := by
  rw [commitOne_hbmReg, Dev.stack_modStack _ hk, vget_vmod_same _ _ hq, applyReg_hbmReg_regs hk, vget_vmod_same _ _ hq]

/-- A committed BOND_HWINv slice reads the fields written (R438). -/
theorem commitOne_bondHwin_slice (t : TimeUnit) {p : Nat} (hp : p < 4) (h : Nat) (v : W64) (req : Req) (d : Dev) :
    ((d.commitOne t { reg := .bondHwin p h, val := v, req := req }).portOf p).slice h =
      fld v.toNat 0 5 + (fld v.toNat 12 52) <<< 12 := by
  have hport : ((d.applyReg (.bondHwin p h) v.toNat).portOf p).hwin = _ := congrArg Port.hwin (Dev.portOf_modPort d hp _)
  rw [commitOne_bondHwin, Port.slice, hport, tabGet_tabSet, if_pos rfl]

/-- A committed BOND_PORTv sets the port's VFs (R450). -/
theorem commitOne_bondPort_vfs (t : TimeUnit) {p : Nat} (hp : p < 4) (v : W64) (req : Req) (d : Dev) :
    ((d.commitOne t { reg := .bondPort p, val := v, req := req }).portOf p).vfs = BitVec.ofNat 5 v.toNat := by
  rw [commitOne_bondPort]
  exact congrArg Port.vfs (Dev.portOf_modPort d hp _)

/-- A committed UPD_WBq sets the partition's waybill table, and whether it drains (R430). -/
theorem commitOne_updWb_pier (t : TimeUnit) {p : Nat} (hp : p < 4) (q : Nat) (v : W64) (req : Req) (d : Dev) :
    (d.commitOne t { reg := .updWb p q, val := v, req := req }).pier p =
      { d.pier p with
        wbTable := vmod (d.pier p).wbTable q (fun _ => BitVec.ofNat 44 (v.toNat >>> 8))
        wbEn := vmod (d.pier p).wbEn q (fun _ => bit v.toNat 52) } := by
  rw [commitOne_updWb]
  exact Dev.pier_modPier d hp _

/-- The first word of BOND_PARTq sets the partition's quarters and EN, and what follows from them at the boundary leaves both (R434). -/
theorem commitOne_bondPart_fields (t : TimeUnit) {q : Nat} (hq : q < 16) (v : W64) (req : Req) (d : Dev) :
    let p := (d.commitOne t { reg := .bondPart q 0, val := v, req := req }).part q
    p.quarters = BitVec.ofNat 16 v.toNat ∧ p.en = bit v.toNat 28 := by
  have hword : (d.applyReg (.bondPart q 0) v.toNat).part q = _ := Dev.part_modPart d hq _
  rw [commitOne_bondPart, Dev.partCommit, Dev.part_modPart _ hq, hword]
  exact ⟨rfl, rfl⟩

/-- Settles O24: with a single waiting write the boundary's commit is that write's own. -/
theorem waitingWritesTakeEffect : Obligations.WaitingWritesTakeEffect := by
  intro t d v req k q p h
  simp only [commitWrites_single]
  refine ⟨rfl, rfl, ?_, ?_, ?_, ?_, ?_, ?_, ?_, ?_, ?_, rfl, rfl, rfl, rfl⟩
  case refine_1 | refine_2 | refine_3 => rw [commitOne_hbmReg_regulator t k.isLt q.isLt]
  case refine_4 => exact commitOne_bondHwin_slice t p.isLt h v req _
  case refine_5 => exact commitOne_bondPort_vfs t p.isLt v req _
  case refine_6 | refine_7 => rw [commitOne_updWb_pier t p.isLt, vget_vmod_same _ _ q.isLt]
  case refine_8 => exact (commitOne_bondPart_fields t q.isLt v req _).1
  case refine_9 => exact (commitOne_bondPart_fields t q.isLt v req _).2

/-! ### Reset (R17) -/

@[simp] theorem vget_replicate {α : Type} (n i : Nat) (x : α) : vget x (Vector.replicate n x) i = x := by
  by_cases h : i < n
  · simp [vget_lt x _ h]
  · exact vget_beyond x _ (by omega)

theorem State.reset_dev : State.reset.dev = Dev.reset := rfl
@[simp] theorem Dev.bay_reset (b : Nat) : Dev.reset.bay b = Bay.reset := vget_replicate _ _ _
@[simp] theorem Dev.stack_reset (k : Nat) : Dev.reset.stack k = Stack.reset := vget_replicate _ _ _
@[simp] theorem Dev.integ_reset (n : Nat) : Dev.reset.integ n = Integ.reset := vget_replicate _ _ _
@[simp] theorem Dev.link_reset (l : Nat) : Dev.reset.link l = Link.reset := vget_replicate _ _ _
@[simp] theorem Dev.part_reset (q : Nat) : Dev.reset.part q = Part.reset := vget_replicate _ _ _
@[simp] theorem Dev.stream_reset (b s : Nat) : Dev.reset.stream b s = Stream.reset := by
  rw [Dev.stream, Dev.bay_reset]
  exact vget_replicate _ _ _

/-- Settles O25: each file of the device is filled with its part's reset value. -/
theorem resetValues : Obligations.ResetValues := by
  refine ⟨rfl, rfl, rfl, rfl, rfl, rfl, rfl, rfl, rfl, rfl, rfl, rfl, rfl, rfl, rfl, rfl, fun b i => ?_, fun b => ?_, fun k q => ?_,
    fun n => ?_, fun l => ?_, fun q => ?_⟩
  · rw [State.reset_dev, Dev.stream_reset]
    exact ⟨rfl, rfl, rfl⟩
  · rw [State.reset_dev, Dev.bay_reset]
    exact ⟨rfl, rfl⟩
  · have hreg : vget Regulator.reset Stack.reset.regs q = Regulator.reset := vget_replicate _ _ _
    rw [State.reset_dev, Dev.stack_reset, hreg]
    exact ⟨rfl, rfl, rfl, rfl⟩
  · rw [State.reset_dev, Dev.integ_reset]
    exact ⟨rfl, rfl, rfl⟩
  · rw [State.reset_dev, Dev.link_reset]
    exact ⟨rfl, rfl, rfl⟩
  · rw [State.reset_dev, Dev.part_reset]
    exact ⟨rfl, rfl, rfl⟩

end Sys2Proof.Machine
end

section
/-! Proofs of the clear commands and of BAR0's registers and holes (R36, R37, R433). -/

namespace Sys2Proof.Machine

/-! ### Changes after which nothing goes on by itself -/

/-- Whether a device is settled follows from its jobs, its signer and its piers' drains and restores. -/
theorem settled_of_same {d e : Dev} (hheld : e.held = d.held) (hbond : e.bond = d.bond)
    (hpier : ∀ p, (e.pier p).drains = (d.pier p).drains ∧ (e.pier p).restores = (d.pier p).restores ∧
      (e.pier p).rstState = (d.pier p).rstState) : e.settled = d.settled := by
  have hdrains p := (hpier p).1
  have hrestores p := (hpier p).2.1
  have hstate p := (hpier p).2.2
  simp only [Dev.settled, Dev.signerIdle, hheld, hbond, hdrains, hrestores, hstate]

theorem settled_of_samePiers {d e : Dev} (hheld : e.held = d.held) (hbond : e.bond = d.bond) (hpiers : e.piers = d.piers) :
    e.settled = d.settled :=
  settled_of_same hheld hbond (fun p => by simp only [Dev.pier, hpiers, and_self])

section
variable (d : Dev) (n i : Nat)

theorem settled_modBay (f : Bay → Bay) : (d.modBay n f).settled = d.settled :=
  settled_of_samePiers (by simp) (by simp) (by simp)
theorem settled_modStack (f : Stack → Stack) : (d.modStack n f).settled = d.settled :=
  settled_of_samePiers (by simp) (by simp) (by simp)
theorem settled_modInteg (f : Integ → Integ) : (d.modInteg n f).settled = d.settled :=
  settled_of_samePiers (by simp) (by simp) (by simp)
theorem settled_modLink (f : Link → Link) : (d.modLink n f).settled = d.settled :=
  settled_of_samePiers (by simp) (by simp) (by simp)
theorem settled_modBox (f : Box → Box) : (d.modBox f).settled = d.settled :=
  settled_of_samePiers (by simp) (by simp) (by simp)
theorem settled_modPwr (f : Power → Power) : (d.modPwr f).settled = d.settled :=
  settled_of_samePiers (by simp) (by simp) (by simp)
theorem settled_modStream (f : Stream → Stream) : (d.modStream n i f).settled = d.settled := settled_modBay d n _
theorem settled_countHole (q : Req) (a : Nat) : (d.countHole q a).settled = d.settled := settled_modBox d _
theorem settled_answer (kind tag : Nat) (bs : List Byte) (ps : List Bool) : (d.answer kind tag bs ps).settled = d.settled := rfl

end

/-- A change of a pier's counters starts nothing. -/
theorem settled_modPier (d : Dev) (p : Nat) {f : Pier → Pier}
    (h : ∀ y, (f y).drains = y.drains ∧ (f y).restores = y.restores ∧ (f y).rstState = y.rstState) :
    (d.modPier p f).settled = d.settled := by
  refine settled_of_same (Dev.modPier_held d p f) (Dev.modPier_bond d p f) (fun j => ?_)
  by_cases hj : j = p
  · subst hj
    by_cases h4 : j < 4
    · rw [Dev.pier_modPier d h4]
      exact h _
    · simp only [Dev.pier, Dev.modPier, vget_beyond _ _ (Nat.le_of_not_lt h4), and_self]
  · rw [Dev.pier_modPier_ne d hj]
    exact ⟨rfl, rfl, rfl⟩

/-! ### Clear commands (R37, R162, R201, R230, R273, R300, R335, R364, R402, R430, R496) -/

/-- A host's write of a register that it reaches, whose rule leaves line time alone and starts nothing, has the rule's effect. -/
theorem runBoth_hostWrite {s : State} {f : Func} {r : Reg} {v : Nat} {e : Dev} (hs : s.dev.settled = true) (hl : s.dev.lets f r = true)
    (hput : s.dev.hostPut (s.dev.hostReq f) r (w64 v).toNat false s.time = (s.time, e)) (he : e.settled = s.dev.settled) :
    s.runBoth (hostWrite f r v) = .next (s.withDev e) := by
  refine runBoth_of_eq ?_
  rw [hostWrite_lets v hl, hput, afterWrite_settled (he.trans hs)]

/-- Settles O11: each clear is a host's write of 1 to its own bit of a clear register, whose rule zeroes the counters. -/
theorem clearCommandsZeroTheirCounters : Obligations.ClearCommandsZeroTheirCounters := by
  intro s f b p k l n hs
  have pier {r : Reg} {g : Pier → Pier} (hl : s.dev.lets f r = true)
      (hput : s.dev.hostPut (s.dev.hostReq f) r (w64 1).toNat false s.time = (s.time, s.dev.modPier p g))
      (hg : ∀ y, (g y).drains = y.drains ∧ (g y).restores = y.restores ∧ (g y).rstState = y.rstState) :=
    runBoth_hostWrite hs hl hput (settled_modPier s.dev p hg)
  refine ⟨?qcnt, ?mx, ?vec, ?pts, ?upd, ?wb, ?hbm, ?lnk, ?pwr, ?ecc, ?hole⟩
  case qcnt | mx | vec => exact fun hl => runBoth_hostWrite hs hl rfl (settled_modBay _ _ _)
  case pts | upd | wb => exact fun hl => pier hl rfl (fun _ => ⟨rfl, rfl, rfl⟩)
  case hbm => exact fun hl => runBoth_hostWrite hs hl rfl (settled_modStack _ _ _)
  case lnk => exact fun hl => runBoth_hostWrite hs hl rfl (settled_modLink _ _ _)
  case pwr => exact fun hl => runBoth_hostWrite hs hl rfl (settled_modPwr _ _)
  case ecc =>
    exact fun hl => ⟨runBoth_hostWrite hs hl rfl (settled_modInteg _ _ _), runBoth_hostWrite hs hl rfl (settled_modInteg _ _ _)⟩
  case hole => exact fun hl => runBoth_hostWrite hs hl rfl (settled_modBox _ _)

/-! ### BAR0 (R36, R37, R433) -/

theorem not_pow_le_toNat_w32 (o : W32) : ¬4294967296 ≤ o.toNat := Nat.not_le.mpr o.isLt

section
variable {t : TimeUnit} {d : Dev} {f : Func} {o : W32} {r : Reg}

/-- A read of a register that the function reaches answers its word, poisoned where it is. -/
theorem bar0Access_read (hp : d.portOpen f.port = true) (hlow : 0x100000 ≤ o.toNat) (hr : regAt o.toNat = some r)
    (hreach : d.reaches f r = true) (ep : Bool) :
    bar0Access f o.toNat none ep t d =
      (t, d.answer 5 f.port (wordBytes (d.readReg t r)) (if d.regPoison r then List.replicate 8 true else [])) := by
  simp [bar0Access, hp, not_pow_le_toNat_w32, Nat.not_lt.mpr hlow, hr, hreach]

/-- A write of a register that the function reaches has the register's own effect. -/
theorem bar0Access_write (hp : d.portOpen f.port = true) (hlow : 0x100000 ≤ o.toNat) (hr : regAt o.toNat = some r)
    (hreach : d.reaches f r = true) (v : W64) (ep : Bool) :
    bar0Access f o.toNat (some v) ep t d = d.hostPut (d.hostReq f) r v.toNat ep t := by
  simp [bar0Access, hp, not_pow_le_toNat_w32, Nat.not_lt.mpr hlow, hr, hreach]

/-- A hole access is counted; a read of a hole answers zero. -/
theorem bar0Access_hole (hp : d.portOpen f.port = true) (hlow : 0x100000 ≤ o.toNat)
    (hr : regAt o.toNat = none ∨ (regAt o.toNat = some r ∧ d.reaches f r = false)) (data : Option W64) (ep : Bool) :
    bar0Access f o.toNat data ep t d =
      (t, if data.isNone then (d.countHole (d.hostReq f) o.toNat).answer 5 f.port (wordBytes 0) []
        else d.countHole (d.hostReq f) o.toNat) := by
  obtain hr | ⟨hr, hreach⟩ := hr
  · simp [bar0Access, hp, not_pow_le_toNat_w32, Nat.not_lt.mpr hlow, hr]
  · simp [bar0Access, hp, not_pow_le_toNat_w32, Nat.not_lt.mpr hlow, hr, hreach]

/-- An aligned read of the bond table answers its word. -/
theorem bar0Access_bondTable (hp : d.portOpen f.port = true) (hlow : o.toNat < 0x100000) (h8 : o.toNat % 8 = 0) (ep : Bool) :
    bar0Access f o.toNat none ep t d = (t, d.answer 5 f.port (wordBytes (d.bondWord (o.toNat / 8))) []) := by
  simp [bar0Access, hp, not_pow_le_toNat_w32, hlow, h8]

end

/-- An access through BAR0 that leaves line time alone and starts nothing has its own effect. -/
theorem runBoth_hostAccess {s : State} {f : Func} {o : Nat} {data : Option W64} {ep : Bool} {e : Dev} (hs : s.dev.settled = true)
    (h : bar0Access f o data ep s.time s.dev = (s.time, e)) (he : e.settled = s.dev.settled) :
    s.runBoth (hostAccess f o data ep) = .next (s.withDev e) := by
  refine runBoth_of_eq ?_
  rw [hostAccess, h, afterWrite_settled (he.trans hs)]

/-- A write through BAR0 of a register that the function reaches has the register's own effect, and what follows from it. -/
theorem runBoth_hostAccess_write {s : State} {f : Func} {o : W32} {r : Reg} (hp : s.dev.portOpen f.port = true)
    (hr : regAt o.toNat = some r) (hreach : s.dev.reaches f r = true) (hlow : 0x100000 ≤ o.toNat) (v : W64) (ep : Bool) :
    s.runBoth (hostAccess f o.toNat (some v) ep) =
      let x := afterWrite (s.dev.hostPut (s.dev.hostReq f) r v.toNat ep s.time)
      .next ((s.withTime x.1).withDev x.2) := by
  rw [State.runBoth, hostAccess, bar0Access_write hp hlow hr hreach]

theorem epochWrite_toNat (v : W64) (t : TimeUnit) : epochWrite v.toNat t = { t with epoch := v } := by
  rw [epochWrite, w64_toNat]

/-- Settles O17: each access takes the branch of BAR0 that its offset and the function's reach select, and nothing goes on after it
where nothing waits. -/
theorem barAccessesReachRegistersOrHoles : Obligations.BarAccessesReachRegistersOrHoles := by
  intro s f o v ep r hp hs
  refine ⟨?read, ?write, ?epoch, ?base, ?hole, ?bond⟩
  case read =>
    rintro ⟨hr, hreach, hlow⟩
    exact runBoth_hostAccess hs (bar0Access_read hp hlow hr hreach _) (settled_answer _ _ _ _ _)
  case write =>
    rintro ⟨hr, hreach, hlow⟩
    exact ⟨runBoth_hostAccess_write hp hr hreach hlow v ep, runBoth_hostAccess_write hp hr hreach hlow v false⟩
  case epoch =>
    rintro ⟨hr, hreach, hlow⟩ rfl
    have hput : s.dev.hostPut (s.dev.hostReq f) .epoch v.toNat false s.time = ({ s.time with epoch := v }, s.dev) :=
      congrArg (·, s.dev) (epochWrite_toNat v s.time)
    refine (runBoth_hostAccess_write hp hr hreach hlow v false).trans ?_
    rw [hput, afterWrite_settled hs]
    rfl
  case base =>
    rintro b i ⟨hr, hreach, hlow⟩ rfl
    exact runBoth_hostAccess hs (bar0Access_write hp hlow hr hreach v false) (settled_modStream _ _ _ _)
  case hole =>
    rintro ⟨hlow, hr⟩
    exact ⟨runBoth_hostAccess hs (bar0Access_hole hp hlow hr none _) (settled_countHole s.dev (s.dev.hostReq f) o.toNat),
      runBoth_hostAccess hs (bar0Access_hole hp hlow hr (some v) _) (settled_countHole _ _ _),
      runBoth_hostAccess hs (bar0Access_hole hp hlow hr (some v) _) (settled_countHole _ _ _)⟩
  case bond =>
    exact fun hlow h8 => runBoth_hostAccess hs (bar0Access_bondTable hp hlow h8 _) (settled_answer _ _ _ _ _)

end Sys2Proof.Machine
end

section
/-! Proofs of BAR2's windows (R36, R437). -/

namespace Sys2Proof.Machine

/-! ### The runs of an access -/

/-- The first window that holds a BAR2 offset, with the BAR2 offset at which it begins (R437). -/
def windowAt (ws : List (Nat × Seg)) (o : Nat) : Option (Nat × Seg) :=
  ws.find? (fun x => decide (x.1 ≤ o) && decide (o < x.1 + (x.2.stop - x.2.start)))

theorem bar2Runs_zero (ws : List (Nat × Seg)) (fuel o : Nat) : bar2Runs ws fuel o 0 = [] := by
  cases fuel <;> rfl

/-- An access that lies in one window is one run there. -/
theorem bar2Runs_inside {ws : List (Nat × Seg)} {o n base : Nat} {g : Seg} (hw : windowAt ws o = some (base, g)) (hn : 0 < n)
    (hfit : o + n ≤ base + (g.stop - g.start)) (fuel : Nat) :
    bar2Runs ws (fuel + 1) o n = [(some (g.start + (o - base)), n, g.wr)] := by
  have hmin : min n (base + (g.stop - g.start) - o) = n := by omega
  rw [windowAt] at hw
  simp [bar2Runs, hw, hmin, bar2Runs_zero, Nat.ne_of_gt hn]

/-- Where no window is, an access is one run that reaches no memory. -/
theorem bar2Runs_noWindow {o n : Nat} (hn : 0 < n) (fuel : Nat) : bar2Runs [] (fuel + 1) o n = [(none, n, false)] := by
  simp [bar2Runs, Nat.ne_of_gt hn]

/-! ### An access of one run -/

section
variable {t : TimeUnit} {d : Dev} {q : Req} {f : Func} {o a : Nat}

/-- A read in one window answers that read's bytes; its completion has EP set when any byte is poisoned. -/
theorem bar2Read_one {n : Nat} {wr : Bool} (h : d.bar2Runs q o n = [(some a, n, wr)]) :
    bar2Read q f o n t d = (d.read t q a n).2.answer 5 f.port (d.read t q a n).1.1
      (List.replicate (d.read t q a n).1.1.length ((d.read t q a n).1.2.any id)) := by
  simp [bar2Read, h]

/-- A write in one writable window is that write, every byte poisoned with EP set. -/
theorem bar2Write_one {bs : List Byte} (h : d.bar2Runs q o bs.length = [(some a, bs.length, true)]) (ep : Bool) :
    bar2Write q o bs ep t d = d.write t q a bs (List.replicate bs.length ep) [] := by
  simp [bar2Write, h]

/-- A write beyond the last window is one hole access at its BAR2 offset. -/
theorem bar2Write_beyond {bs : List Byte} {wr : Bool} (h : d.bar2Runs q o bs.length = [(none, bs.length, wr)]) (ep : Bool) :
    bar2Write q o bs ep t d = d.countHole q o := by
  simp [bar2Write, h]

end

/-- A job of a function has the windows of the function's partition. -/
theorem bar2Runs_jobReq {d : Dev} {f : Func} {q : Nat} (hq : d.partOf f = some q) (job : Nat) (w : Await) (o n : Nat) :
    d.bar2Runs (jobReq job w (d.hostReq f)) o n = bar2Runs (d.part q).bar2Map 34 o n := by
  simp [Dev.bar2Runs, jobReq, Dev.hostReq, hq]

/-- Settles O19: an access in one window is one run of BAR2, and one beyond the last window is one hole access. -/
theorem barWindowsReachMemory : Obligations.BarWindowsReachMemory := by
  intro s f o n data bs ep q base g hp hq
  refine ⟨?request, fun job w => ⟨?read, ?write, ?beyond⟩⟩
  case request => simp [exec_bar2Access, execBar2Access, State.run, bar2Access, hp]
  case read =>
    rintro ⟨hw, hn, hfit⟩ hmax
    have hrun := (bar2Runs_jobReq hq job w o.toNat n).trans (bar2Runs_inside hw hn hfit 33)
    simp only [Dev.serve, bar2Serve, Nat.min_eq_left hmax]
    exact bar2Read_one hrun
  case write =>
    rintro ⟨hw, hn, hfit⟩ hmax hwr
    have hrun := (bar2Runs_jobReq hq job w o.toNat bs.length).trans (bar2Runs_inside hw hn hfit 33)
    simp only [Dev.serve, bar2Serve, List.take_of_length_le hmax]
    exact bar2Write_one (hwr ▸ hrun) ep
  case beyond =>
    intro hmap hn hmax
    have hrun := (bar2Runs_jobReq hq job w o.toNat bs.length).trans (hmap ▸ bar2Runs_noWindow hn 33)
    simp only [Dev.serve, bar2Serve, List.take_of_length_le hmax]
    exact bar2Write_beyond hrun ep

end Sys2Proof.Machine
end

section
/-! Proofs of requests at the memory controllers: served at once, or waiting in arrival order (R33, R301, R302, R316, R317, R323). -/

namespace Sys2Proof.Machine

/-! ### Memory that serves no request now (R323) -/

/-- Control space never makes a request wait. -/
theorem not_control_of_mustWait {d : Dev} {a n : Nat} (h : d.mustWait a n = true) (o : Nat) : d.regionAt a ≠ .control o := by
  intro hr
  simp [Dev.mustWait, hr] at h

theorem flushOwed_nothing {t : TimeUnit} {d : Dev} (h : d.owed = []) : d.flushOwed t = d := by
  simp [Dev.flushOwed, h]

/-- A read that must wait notes that it stalls, whatever bytes it names. -/
theorem read_stalls {t : TimeUnit} {q : Req} {a n : Nat} {d : Dev} (h : d.mustWait a n = true) (ho : d.owed = []) :
    d.read t q a n = (d.answerBytes a n, d.stalls a n) := by
  simp only [Dev.read, Dev.readMask, Dev.loadReq, h, if_true]
  rw [flushOwed_nothing (d := d.stalls a n) ho]

theorem write_stalls {t : TimeUnit} {q : Req} {a : Nat} {data : List Byte} {poison mask : List Bool} {d : Dev}
    (h : d.mustWait a data.length = true) (ho : d.owed = []) : d.write t q a data poison mask = d.stalls a data.length := by
  simp only [Dev.write, Dev.saveReq, h, if_true]
  exact flushOwed_nothing ho

theorem atomic_stalls {t : TimeUnit} {q : Req} {code a : Nat} {data : List Byte} {poison mask : List Bool} {d : Dev}
    (h : d.mustWait a data.length = true) : d.atomic t q code a data poison mask = d.stalls a data.length := by
  simp only [Dev.atomic, h, if_true]

/-! ### Reads that a waiting job leaves behind (R379) -/

theorem newWaits_self (ws : List Outstanding) : newWaits ws ws = [] := by simp [newWaits]

theorem askLink_same {d d' : Dev} {l : Nat} (h : d'.link l = d.link l) : Dev.askLink d' l d = d := by
  simp [Dev.askLink, h, newWaits_self]

theorem askPort_same (ports : Vector Port 4) :
    (Vector.ofFn fun v : Fin 4 =>
      { ports[v] with
        nextTag := ports[v].nextTag
        waiting := ports[v].waiting ++ newWaits ports[v].waiting ports[v].waiting }) = ports := by
  simp [newWaits_self]

/-- A job that has run ahead to a stall, and has sent nothing but answers to its own requester, leaves nothing behind. -/
theorem askRemote_stalled (d : Dev) (stall : List (Nat × Nat)) (late : Nat) {answers : List Answer} (h : ∀ a ∈ answers, a.kind ≠ 3) :
    d.askRemote { d with stall := stall, late := late, answers := answers ++ d.answers } = d := by
  have hanswers : answers.filter (fun a => a.kind == 3) = [] := by simpa [List.filter_eq_nil_iff] using h
  simp only [Dev.askRemote, askPort_same, List.length_append, Nat.add_sub_cancel, List.take_left', hanswers, List.nil_append]
  exact List.foldl_fixed' (fun l => askLink_same rfl) _

/-! ### Jobs (R302, R323) -/

/-- A job that its effect leaves stalled waits, and only its reads through windows leave. -/
theorem attempt_stalled {t : TimeUnit} {w : Await} {effect : Await → Dev → Dev} {d d' : Dev} (hw : w.due ≤ t.now)
    (h : (effect w { d with stall := [], late := 0 }).flushOwed t = d') (hs : d'.stall ≠ []) :
    d.attempt t w effect = (some ({ w with got := w.got ++ d'.stall }, d'.stall), d.askRemote d') := by
  simp only [Dev.attempt, if_neg (Nat.not_lt.mpr hw), h, List.isEmpty_eq_false_iff.mpr hs, Bool.not_false, if_true]

/-- A job that stalls at its first request, with nothing sent, leaves the device as it was. -/
theorem attempt_waits {t : TimeUnit} {effect : Await → Dev → Dev} {d : Dev} {span : Nat × Nat} {answers : List Answer}
    (ho : d.owed = []) (hkind : ∀ a ∈ answers, a.kind ≠ 3)
    (h : effect Await.none { d with stall := [], late := 0 } =
      { d with stall := [span], late := 0, answers := answers ++ d.answers }) :
    d.attempt t Await.none effect = (some ({ Await.none with got := [span] }, [span]), d) := by
  have hflush := (congrArg (Dev.flushOwed t) h).trans (flushOwed_nothing ho)
  rw [attempt_stalled (Nat.zero_le _) hflush (List.cons_ne_nil _ _), askRemote_stalled d [span] 0 hkind]
  rfl

/-- Job `j` reaches the device and waits, last of those that wait; nothing else changes. -/
def Dev.waitsLast (t : TimeUnit) (j : Work) (d : Dev) : Prop :=
  ∃ h : Held, h.id = d.nextJob ∧ h.work = j ∧ d.request t j = { d with nextJob := d.nextJob + 1, held := d.held ++ [h] }

/-- A job that stalls at its first request, with nothing sent, waits behind those that wait. -/
theorem waitsLast_of_stall {t : TimeUnit} {d : Dev} {j : Work} {span : Nat × Nat} {answers : List Answer} (ho : d.owed = [])
    (hkind : ∀ a ∈ answers, a.kind ≠ 3)
    (hserve : Dev.serve t d.nextJob j Await.none { d with nextJob := d.nextJob + 1, stall := [], late := 0 } =
      { d with nextJob := d.nextJob + 1, stall := [span], late := 0, answers := answers ++ d.answers }) : d.waitsLast t j := by
  refine ⟨{ id := d.nextJob, work := j, await := { Await.none with got := [span] }, spans := d.workSpans j ++ [span] }, rfl, rfl, ?_⟩
  have hwait := attempt_waits (t := t) (effect := Dev.serve t d.nextJob j) (d := { d with nextJob := d.nextJob + 1 }) ho hkind hserve
  simp only [Dev.request, hwait]

/-- A job that nothing makes wait is served at once. -/
theorem request_whole {t : TimeUnit} {d : Dev} {j : Work}
    (h : ({ d with nextJob := d.nextJob + 1 } : Dev).whole t Await.none (Dev.serve t d.nextJob j Await.none) = true) :
    d.request t j = ({ d with nextJob := d.nextJob + 1 } : Dev).had t (Dev.serve t d.nextJob j Await.none) := by
  simp only [Dev.request, attempt_whole (effect := Dev.serve t d.nextJob j) h]

/-! ### What a controller does with a request (R301, R316) -/

/-- A read outside control space answers its bytes (R301). -/
theorem serveMem_read {t : TimeUnit} {id : Nat} {w : Await} {a n src tag : Nat} {part : Option Nat} {d : Dev}
    (h : ∀ o, d.regionAt a ≠ .control o) :
    d.serveMem t id w (.read a n src part tag) =
      (d.read t (jobReq id w (plainReq src part)) a n).2.answer 1 tag (d.read t (jobReq id w (plainReq src part)) a n).1.1
        (d.read t (jobReq id w (plainReq src part)) a n).1.2 := by
  cases hr : d.regionAt a with
  | control o => exact absurd hr (h o)
  | _ => simp only [Dev.serveMem, hr]

/-- A record written says what the effect that wrote it gave (R11). -/
theorem emit_wrote_fields (t : TimeUnit) (q : Option Nat) (r : EvRec) (d : Dev) :
    ∃ r' : EvRec, d.wrote (d.emit t q r) r' ∧ r'.cls = r.cls ∧ r'.addr = r.addr ∧ r'.detail = r.detail := by
  cases q with
  | none => exact ⟨_, emit_wrote t none r d, rfl, rfl, rfl⟩
  | some p => exact ⟨_, emit_wrote t (some p) r d, rfl, rfl, rfl⟩

/-- Codes from 13 up are reserved (R316). -/
theorem not_msKnown {code : Nat} (h : 13 ≤ code) : msKnown code = false := decide_eq_false (by omega)

/-- A reserved code at a stack that serves requests is discarded: all that follows is its ADMISSION_REFUSED record (R316). -/
theorem atomic_reserved {t : TimeUnit} {q : Req} {code a s o : Nat} {data : List Byte} {poison mask : List Bool} {d : Dev}
    (hr : d.regionAt a = .hbm s o) (hcode : 13 ≤ code) (hw : d.mustWait a data.length = false) :
    (d.atomic t q code a data poison mask).sansRings = d.sansRings ∧ ∃ r : EvRec, d.wrote (d.atomic t q code a data poison mask) r ∧
      r.cls = 0x10 ∧ r.addr = BitVec.ofNat 52 a ∧ r.detail = detail [(48, 1, 0x41)] := by
  have hemit : d.atomic t q code a data poison mask =
      d.emit t q.part { record 0x10 (stackSrc s) with addr := BitVec.ofNat 52 a, detail := detail [(48, 1, 0x41)] } := by
    simp [Dev.atomic, hr, hw, not_msKnown hcode, show code ≠ 0 by omega]
  rw [hemit]
  exact ⟨emit_sansRings t _ _ d, emit_wrote_fields t _ _ d⟩

/-! ### Requests at memory that serves none now (R302, R323) -/

/-- Whether memory serves requests does not depend on the job at hand. -/
theorem mustWait_job (d : Dev) (id late : Nat) (stall : List (Nat × Nat)) (a n : Nat) :
    ({ d with nextJob := id, stall := stall, late := late } : Dev).mustWait a n = d.mustWait a n := rfl

section
variable {t : TimeUnit} {d : Dev} {a src : Nat} {part : Option Nat} {data : List Byte} {poison mask : List Bool}

/-! Each kind of request joins those that wait, last. -/

theorem waitsLast_read {n tag : Nat} (ho : d.owed = []) (hw : d.mustWait a n = true) :
    d.waitsLast t (.mem (.read a n src part tag)) := by
  let bytes := d.answerBytes a n
  refine waitsLast_of_stall (span := (a, n)) (answers := [{ kind := 1, tag := tag, bytes := bytes.1, poison := bytes.2 }]) ho (by simp) ?_
  have hw' := (mustWait_job d (d.nextJob + 1) 0 [] a n).trans hw
  refine (serveMem_read (not_control_of_mustWait hw')).trans ?_
  rw [read_stalls hw' ho]
  rfl

theorem waitsLast_write (ho : d.owed = []) (hw : d.mustWait a data.length = true) :
    d.waitsLast t (.mem (.write a data poison mask src part)) :=
  waitsLast_of_stall (span := (a, data.length)) (answers := []) ho (by simp)
    (write_stalls ((mustWait_job d (d.nextJob + 1) 0 [] a data.length).trans hw) ho)

theorem waitsLast_atomic {code : Nat} (ho : d.owed = []) (hw : d.mustWait a data.length = true) :
    d.waitsLast t (.mem (.atomic code a data poison mask src part)) :=
  waitsLast_of_stall (span := (a, data.length)) (answers := []) ho (by simp)
    (atomic_stalls ((mustWait_job d (d.nextJob + 1) 0 [] a data.length).trans hw))

end

/-! ### What arrives (R301, R316) -/

/-- A write of at most 4 KiB outside control space is a request. -/
theorem memoryWrite_request {t : TimeUnit} {a src : Nat} {part : Option Nat} {bs : List Byte} {ps mask : List Bool} {d : Dev}
    (hr : ∀ o, d.regionAt a ≠ .control o) (hmax : bs.length ≤ 4096) :
    memoryWrite a src part bs ps mask t d = (t, d.request t (.mem (.write a bs ps mask src part))) := by
  cases hreg : d.regionAt a with
  | control o => exact absurd hreg (hr o)
  | _ => simp only [memoryWrite, hreg, List.take_of_length_le hmax]

/-- A write of at most 4 KiB of control space goes to registers. -/
theorem memoryWrite_control {t : TimeUnit} {a src o : Nat} {part : Option Nat} {bs : List Byte} {ps mask : List Bool} {d : Dev}
    (hr : d.regionAt a = .control o) (hmax : bs.length ≤ 4096) :
    memoryWrite a src part bs ps mask t d = d.controlPut (plainReq src part) a bs ps mask t := by
  simp only [memoryWrite, hr, List.take_of_length_le hmax]

/-- A memory-side request at a stack is a request. -/
theorem msRequest_hbm {t : TimeUnit} {code a src k o : Nat} {part : Option Nat} {data : List Byte} {poison mask : List Bool} {d : Dev}
    (hr : d.regionAt a = .hbm k o) :
    msRequest code a data poison mask src part t d = d.request t (.mem (.atomic code a (data.take 64) poison mask src part)) := by
  simp only [msRequest, hr]

/-- A reserved code at a stack is a request of one byte, which its controller discards. -/
theorem msReserved_hbm {t : TimeUnit} {code a src k o : Nat} {part : Option Nat} {d : Dev} (hr : d.regionAt a = .hbm k o)
    (hcode : 13 ≤ code) :
    msReserved code a src part t d = d.request t (.mem (.atomic code a [0] [] [] src part)) := by
  simp only [msReserved, not_msKnown hcode, Bool.false_eq_true, if_false]
  exact msRequest_hbm hr

/-- A read of 1 to 4,096 bytes, with no report to come, is a request. -/
theorem memoryRead_request {t : TimeUnit} {a n src tag : Nat} {part : Option Nat} {d : Dev} (hn : 0 < n) (hmax : n ≤ 4096) :
    memoryRead a n src tag 0 part t d = d.request t (.mem (.read a n src part tag)) := by
  unfold memoryRead
  rw [if_neg (Nat.ne_of_gt hn), Nat.min_eq_left hmax]
  cases d.regionAt a <;> rfl

/-- An effect of time and device answers the state with the effect's device. -/
theorem run_of_eq {s : State} {g : TimeUnit → Dev → Dev} {e : Dev} (h : g s.time s.dev = e) : s.run g = .next (s.withDev e) := by
  rw [State.run, h]

/-- A memory-side operation at a stack joins the requests there. -/
theorem run_msRequest {s : State} {code a src k o : Nat} {part : Option Nat} {data : List Byte} {poison mask : List Bool}
    (hr : s.dev.regionAt a = .hbm k o) :
    s.run (msRequest code a data poison mask src part) =
      .next (s.withDev (s.dev.request s.time (.mem (.atomic code a (data.take 64) poison mask src part)))) :=
  run_of_eq (msRequest_hbm hr)

/-- Settles O42: a request that stalls leaves nothing behind but itself; served, it is the controller's own read, write or memory-side
operation. -/
theorem memoryRequestsReachTheirControllers : Obligations.MemoryRequestsReachTheirControllers := by
  intro s a n tag src part data poison mask code d t own region hbm control mem ms
  have hplain : ¬control → ∀ o, region ≠ .control o := fun h o ho => h (by simp only [control, ho])
  have hcontrol : control → ∃ o, region = .control o := by
    intro h
    cases hr : d.regionAt a.toNat with
    | control o => exact ⟨o, hr⟩
    | _ => simp only [control, region, hr] at h
  have hstack : hbm → ∃ k o, region = .hbm k o := by
    intro h
    cases hr : d.regionAt a.toNat with
    | hbm k o => exact ⟨k, o, hr⟩
    | _ => simp only [hbm, region, hr] at h
  refine ⟨?read, ?write, ?memorySide, ?whole, ?waits, fun job w => ⟨?servesRead, rfl, rfl, ?reserved⟩⟩
  case read =>
    intro hn hmax
    rw [exec_memoryRead, execMemoryRead]
    exact run_of_eq (memoryRead_request hn hmax)
  case write =>
    refine fun hmax => ⟨fun hc => ?_, fun hc => ?_⟩
    · rw [exec_memoryWrite, execMemoryWrite, State.runBoth, memoryWrite_request (hplain hc) hmax]
      rfl
    · obtain ⟨o, hr⟩ := hcontrol hc
      rw [exec_memoryWrite, execMemoryWrite, State.runBoth, memoryWrite_control hr hmax]
  case memorySide =>
    intro hc
    obtain ⟨k, o, hr⟩ := hstack hc
    refine ⟨?_, ?_, ?_, ?_, ?_, ?_, ?_, ?_, ?_, ?_, ?_, ?_, ?_, fun hcode => run_of_eq (s := s) (msReserved_hbm hr hcode)⟩
    all_goals exact run_msRequest (s := s) hr
  case whole =>
    intro j e h
    exact request_whole h
  case waits =>
    rintro (⟨x, k, src', part', tag'⟩ | ⟨x, bs, ps, mask', src', part'⟩ | ⟨code', x, bs, ps, mask', src', part'⟩) ho hm
    · obtain ⟨-, -, hwait⟩ := hm
      exact waitsLast_read ho hwait
    · obtain ⟨-, -, hwait⟩ := hm
      exact waitsLast_write ho hwait
    · obtain ⟨-, -, -, -, hwait⟩ := hm
      exact waitsLast_atomic ho hwait
  case servesRead => exact fun hc => serveMem_read (hplain hc)
  case reserved =>
    intro hc hcode hw
    obtain ⟨k, o, hr⟩ := hstack hc
    obtain ⟨hsame, r, hwrote, hcls, haddr, hdetail⟩ := atomic_reserved (t := t) (q := jobReq job w (plainReq src.toNat own))
      (data := [0]) (poison := []) (mask := []) hr hcode hw
    refine ⟨hsame, r, hwrote, hcls, haddr.trans (by simp), ?_⟩
    rw [hdetail]
    decide

end Sys2Proof.Machine
end

section
/-! Proofs of the step, of which commands reach the line-time unit, and of the line-time invariant (R38, R41, R44, R71). -/

namespace Sys2Proof.Machine

/-! ### The step -/

theorem step_idle {s : State} (h : s.pending = []) : step s = .next s.idle := by
  rw [step, h]

theorem step_command {s : State} {c : Instr} {rest : List Instr} (h : s.pending = c :: rest) :
    step s = exec c { s with pending := rest } := by
  rw [step, h]

/-- Settles O1: the two branches of `step`. -/
theorem stepRunsTheFrontCommand : Obligations.StepRunsTheFrontCommand :=
  ⟨fun _ _ _ => step_command, fun _ => step_idle⟩

/-! ### Which commands reach the line-time unit (R38, R41, R43, R72) -/

/-- A command outside `movesTime` is an effect on the device alone. -/
theorem exec_keeps_time (c : Instr) (s : State) (h : movesTime c = false) : ∃ t, exec c s = .next t ∧ t.time = s.time := by
  cases c
  case slotBoundary | slotLengthChange | epochInstant | timeSourcePresent | timeLock | timeSourceLost | timeSourceRegained |
      holdoverExpiry | timePacket | linkRetrain | retireGo | injectGo | restoreGo | quoteGo | streamRun | streamHalt | tokenSet |
      tokenClear | permOorClear | hostConfigWrite | hostDescriptorWrite | qcntClear | mxCounterClear | vecCounterClear |
      ptsCounterClear | updCounterClear | hbmCounterClear | eccCounterClear | eccLogClear | lnkCounterClear | pwrCounterClear |
      wbCounterClear | holeClr | ttSyncWrite | pwrCapWrite | hbmRegWrite | bondPartWrite | bondSegWrite | bondPlatWrite |
      bondHwinWrite | bondPortWrite | updWbWrite | repairClear | registerWrite | bar0Access | i3cWrite | powerGood | resetN |
      lrefEdge | memoryWrite => cases h
  all_goals exact ⟨_, rfl, State.withDev_time _ _⟩

/-- A command of `onlyTime` is an effect on the line-time unit alone. -/
theorem exec_keeps_dev (c : Instr) (s : State) (h : onlyTime c = true) : ∃ t, exec c s = .next t ∧ t.dev = s.dev := by
  unfold onlyTime at h
  split at h
  case h_6 => contradiction
  all_goals exact ⟨_, rfl, State.withTime_dev _ _⟩

/-- Settles O3: outside `movesTime` an effect lifts from the device alone, in `onlyTime` from the line-time unit alone. -/
theorem onlyTimeCommandsMoveTime : Obligations.OnlyTimeCommandsMoveTime := by
  intro c s t ht
  constructor
  · intro h
    obtain ⟨u, hu, htime⟩ := exec_keeps_time c s h
    cases ht.symm.trans hu
    exact htime
  · intro h
    obtain ⟨u, hu, hdev⟩ := exec_keeps_dev c s h
    cases ht.symm.trans hu
    exact hdev

/-! ### The line-time unit stays legal (R41, R44) -/

/-- What follows a write of registers leaves line time alone. -/
theorem afterWrite_fst (x : TimeUnit × Dev) : (afterWrite x).1 = x.1 := by simp only [afterWrite]

theorem afterWrite_legal {x : TimeUnit × Dev} (h : x.1.legal = true) : (afterWrite x).1.legal = true := by
  rwa [afterWrite_fst]

theorem TimeUnit.legal_iff (t : TimeUnit) :
    t.legal = true ↔ (10 ≤ t.slotLog2 ∧ t.slotLog2 ≤ 16) ∧ (∀ n, t.newLog2 = some n → 10 ≤ n ∧ n ≤ 16) ∧ t.good ≤ 16 ∧
      (t.lock = .acquiring ∨ t.good = 0) ∧ (t.since.isSome = true ↔ t.lock = .holdover) := by
  have hsince : (t.since.isSome == (t.lock == .holdover)) = true ↔ (t.since.isSome = true ↔ t.lock = .holdover) := by
    rw [beq_iff_eq, Bool.eq_iff_iff, beq_iff_eq]
  cases hn : t.newLog2 <;> simp [TimeUnit.legal, hn, hsince, optAll, and_assoc]

/-- Settles O26: reset's values. -/
theorem invariantHoldsAtReset : Obligations.InvariantHoldsAtReset := by
  refine (TimeUnit.legal_iff _).mpr ⟨⟨?_, ?_⟩, ?_, ?_, ?_, ?_⟩ <;> simp [State.reset, TimeUnit.reset]

section
variable {t : TimeUnit} (h : t.legal = true)
include h

/-- A measurement counts only in ACQUIRING, and up to 16. -/
theorem measure_legal (offset : Int) : (t.measure offset).legal = true := by
  obtain ⟨hlen, hnew, hgood, hzero, hsince⟩ := t.legal_iff.mp h
  refine (TimeUnit.legal_iff _).mpr ⟨hlen, hnew, ?_, ?_, hsince⟩
  · simp only [TimeUnit.measure]
    split <;> omega
  · by_cases ha : t.lock = .acquiring
    · exact .inl ha
    · exact .inr (if_neg (fun hc => ha hc.1))

theorem lrefEdge_legal : (lrefEdge t).legal = true := by
  unfold lrefEdge
  split
  · exact h
  · exact measure_legal h _

theorem epochInstant_legal : (epochInstant t).legal = true := by
  unfold epochInstant
  split
  · exact h
  · split
    · exact measure_legal (t := { t with ltime := _, epochSeen := true, edge := _ }) h 0
    · exact measure_legal h _

theorem timeSourcePresent_legal : (timeSourcePresent t).legal = true := by
  obtain ⟨hlen, hnew, -, -, hsince⟩ := t.legal_iff.mp h
  unfold timeSourcePresent
  split
  · next hl => exact (TimeUnit.legal_iff _).mpr ⟨hlen, hnew, Nat.zero_le _, .inl rfl, by simpa [hl] using hsince⟩
  · exact h

theorem timeLock_legal (d : Dev) : (timeLock t d).1.legal = true := by
  obtain ⟨hlen, hnew, -, -, hsince⟩ := t.legal_iff.mp h
  unfold timeLock
  split
  · next hl => exact (TimeUnit.legal_iff _).mpr ⟨hlen, hnew, Nat.zero_le _, .inr rfl, by simpa [hl.1] using hsince⟩
  · exact h

theorem timeSourceLost_legal (d : Dev) : (timeSourceLost t d).1.legal = true := by
  obtain ⟨hlen, hnew, hgood, hzero, hsince⟩ := t.legal_iff.mp h
  unfold timeSourceLost
  split
  · exact (TimeUnit.legal_iff _).mpr ⟨hlen, hnew, Nat.zero_le _, .inr rfl, by simp⟩
  · next hl => exact (TimeUnit.legal_iff _).mpr ⟨hlen, hnew, hgood, by simpa [hl] using hzero, by simp⟩
  · exact h

theorem timeSourceRegained_legal (offset : Int) : (timeSourceRegained t offset).legal = true := by
  obtain ⟨hlen, hnew, hgood, hzero, -⟩ := t.legal_iff.mp h
  unfold timeSourceRegained
  split
  · next hl => exact (TimeUnit.legal_iff _).mpr ⟨hlen, hnew, hgood, by simpa [hl.1] using hzero, by simp⟩
  · exact h

theorem holdoverExpiry_legal (d : Dev) : (holdoverExpiry t d).1.legal = true := by
  obtain ⟨hlen, hnew, -, -, -⟩ := t.legal_iff.mp h
  unfold holdoverExpiry
  split
  · exact (TimeUnit.legal_iff _).mpr ⟨hlen, hnew, Nat.zero_le _, .inr rfl, by simp⟩
  · exact h

theorem slotLengthChange_legal : (slotLengthChange t).legal = true := by
  obtain ⟨-, hnew, hgood, hzero, hsince⟩ := t.legal_iff.mp h
  unfold slotLengthChange
  split
  · exact h
  · next n hn =>
    split
    · exact (TimeUnit.legal_iff _).mpr ⟨hnew n hn, by simp, hgood, hzero, hsince⟩
    · exact h

theorem timeExchange_legal (l t1 t2 t3 t4 : Nat) (d : Dev) : (timeExchange l t1 t2 t3 t4 t d).1.legal = true := by
  simp only [timeExchange]
  split
  · exact measure_legal h _
  · exact h

/-- A TIME packet measures, and sets the depth and the count. -/
theorem timePacket_legal (l : Nat) (p : Packet) (rx : Nat) (d : Dev) : (timePacket l p rx t d).1.legal = true := by
  unfold timePacket
  extract_lets
  split
  next t1 d2 hx =>
  have h1 : t1.legal = true := by
    split at hx
    · exact congrArg (fun x => TimeUnit.legal x.1) hx ▸ timeExchange_legal h _ _ _ _ _ _
    · cases hx; exact h
  split
  · dsimp only
    split
    · split
      · exact h1
      · exact h1
    · exact h1
  · exact h1

theorem syncWrite_legal (req : Req) (v : Nat) (d : Dev) : (syncWrite req v t d).1.legal = true := by
  obtain ⟨hlen, hnew, hgood, hzero, hsince⟩ := t.legal_iff.mp h
  unfold syncWrite
  extract_lets mode link n moved fab d0 d1 t1
  have hn : n ≤ 16 := by
    simp only [n]
    split
    · exact le_rfl
    · exact (Nat.mod_lt _ (by decide)).le
  have h1 : t1.legal = true := by
    cases hm : moved with
    | false => simpa [t1, hm, TimeUnit.legal] using h
    | true => exact (TimeUnit.legal_iff _).mpr ⟨hlen, hnew, by simp [t1, hm], by simp [t1, hm], by simp [t1, hm]⟩
  obtain ⟨-, -, hgood1, hzero1, hsince1⟩ := t1.legal_iff.mp h1
  split
  · exact h1
  · next hc =>
    split
    · exact h1
    · exact (TimeUnit.legal_iff _).mpr ⟨hlen, fun m hm => by cases hm; omega, hgood1, hzero1, hsince1⟩

/-- Of the registers only TT_SYNC and TT_EPOCH are the line-time unit's. -/
theorem regWrite_legal (req : Req) (r : Reg) (v : Nat) (d : Dev) : (d.regWrite req r v t).1.legal = true := by
  unfold Dev.regWrite
  split
  case h_1 => exact syncWrite_legal h req v d
  all_goals exact h

theorem hostPut_legal (req : Req) (r : Reg) (v : Nat) (ep : Bool) (d : Dev) : (d.hostPut req r v ep t).1.legal = true := by
  unfold Dev.hostPut
  split
  · exact h
  · exact regWrite_legal h _ _ _ _

theorem bar0Access_legal (f : Func) (o : Nat) (data : Option W64) (ep : Bool) (d : Dev) :
    (bar0Access f o data ep t d).1.legal = true := by
  unfold bar0Access
  split
  · exact h
  · split
    · dsimp only
      split <;> exact h
    · split
      · exact h
      · split
        · exact h
        · split
          · exact h
          · exact hostPut_legal h _ _ _ _ _

theorem hostAccess_legal (f : Func) (o : Nat) (data : Option W64) (ep : Bool) (d : Dev) :
    (hostAccess f o data ep t d).1.legal = true := by
  rw [hostAccess]
  exact afterWrite_legal (bar0Access_legal h f o data ep d)

theorem hostWrite_legal (f : Func) (r : Reg) (v : Nat) (d : Dev) : (hostWrite f r v t d).1.legal = true :=
  hostAccess_legal h f _ _ _ d

theorem controlPut_legal (q : Req) (a : Nat) (data : List Byte) (poison mask : List Bool) (d : Dev) :
    (d.controlPut q a data poison mask t).1.legal = true := by
  refine List.foldlRecOn (motive := fun x : Bool × TimeUnit × Dev => x.2.1.legal = true) _ _ h (fun x hx i _ => ?_)
  dsimp only
  split
  · exact hostPut_legal hx _ _ _ _ _
  · exact hx

theorem memoryWrite_legal (a src : Nat) (part : Option Nat) (bs : List Byte) (ps mask : List Bool) (d : Dev) :
    (memoryWrite a src part bs ps mask t d).1.legal = true := by
  unfold memoryWrite
  split
  · exact controlPut_legal h _ _ _ _ _ _
  · exact h

theorem i3cWrite_legal (a : Nat) (ws : List W64) (d : Dev) : (i3cWrite a ws t d).1.legal = true := by
  unfold i3cWrite
  split
  · exact h
  · refine afterWrite_legal (List.foldlRecOn (motive := fun x : TimeUnit × Dev => x.1.legal = true) _ _ h (fun x hx i _ => ?_))
    unfold chainPut
    split
    · exact regWrite_legal hx _ _ _ _
    · exact hx

theorem timeArrival_legal (l : Nat) (p : Packet) (rx : Nat) (d : Dev) : (timeArrival l p rx t d).1.legal = true := by
  unfold timeArrival
  dsimp only
  split
  · exact timePacket_legal h _ _ _ _
  · exact h

/-- Power and reset put the line-time unit at its reset values, or leave it. -/
theorem powerGood_legal (d : Dev) : (powerGood t d).1.legal = true := by
  unfold powerGood
  split
  · exact h
  · exact invariantHoldsAtReset

theorem resetPin_legal (low : Bool) (d : Dev) : (resetPin low t d).1.legal = true := by
  unfold resetPin
  split
  · exact invariantHoldsAtReset
  · split
    · exact h
    · exact invariantHoldsAtReset

end

/-- A command whose effect keeps the line-time unit legal keeps the invariant. -/
theorem runBoth_inv {s : State} {g : TimeUnit → Dev → TimeUnit × Dev} (h : (g s.time s.dev).1.legal = true) :
    ∃ t, s.runBoth g = .next t ∧ t.Inv := ⟨_, rfl, h⟩

theorem runTime_inv {s : State} {g : TimeUnit → TimeUnit} (h : (g s.time).legal = true) :
    ∃ t, s.runTime g = .next t ∧ t.Inv := ⟨_, rfl, h⟩

theorem hostAccess_inv {s : State} (h : s.Inv) (f : Func) (o : Nat) (data : Option W64) (ep : Bool) :
    ∃ t, s.runBoth (hostAccess f o data ep) = .next t ∧ t.Inv := runBoth_inv (hostAccess_legal h f o data ep s.dev)

theorem hostWrite_inv {s : State} (h : s.Inv) (f : Func) (r : Reg) (v : Nat) : ∃ t, s.runBoth (hostWrite f r v) = .next t ∧ t.Inv :=
  runBoth_inv (hostWrite_legal h f r v s.dev)

/-- Every command keeps the line-time unit legal: most leave it whole, and the others change it by one of the rules above. -/
theorem exec_inv (c : Instr) {s : State} (h : s.Inv) : ∃ t, exec c s = .next t ∧ t.Inv := by
  cases hm : movesTime c with
  | false =>
    obtain ⟨t, ht, htime⟩ := exec_keeps_time c s hm
    exact ⟨t, ht, by rwa [State.Inv, htime]⟩
  | true =>
    cases c
    case slotBoundary => exact runBoth_inv (g := slotBoundary) h
    case slotLengthChange => exact runTime_inv (slotLengthChange_legal h)
    case epochInstant => exact runTime_inv (epochInstant_legal h)
    case timeSourcePresent => exact runTime_inv (timeSourcePresent_legal h)
    case timeLock => exact runBoth_inv (timeLock_legal h _)
    case timeSourceLost => exact runBoth_inv (timeSourceLost_legal h _)
    case timeSourceRegained => exact runTime_inv (timeSourceRegained_legal h _)
    case holdoverExpiry => exact runBoth_inv (holdoverExpiry_legal h _)
    case lrefEdge => exact runTime_inv (lrefEdge_legal h)
    case timePacket => exact runBoth_inv (timeArrival_legal h _ _ _ _)
    case powerGood => exact runBoth_inv (powerGood_legal h _)
    case resetN => exact runBoth_inv (resetPin_legal h _ _)
    case memoryWrite =>
      rw [exec_memoryWrite, execMemoryWrite]
      refine runBoth_inv ?_
      exact afterWrite_legal (memoryWrite_legal h _ _ _ _ _ _ _)
    case i3cWrite => exact runBoth_inv (i3cWrite_legal h _ _ _)
    case linkRetrain =>
      rw [exec_linkRetrain, execLinkRetrain]
      refine runBoth_inv ?_
      exact hostWrite_legal h _ _ _ _
    case registerWrite | bar0Access => exact hostAccess_inv h _ _ _ _
    case retireGo | injectGo | restoreGo | quoteGo | streamRun | streamHalt | tokenSet | tokenClear | permOorClear |
        hostConfigWrite | hostDescriptorWrite | qcntClear | mxCounterClear | vecCounterClear | ptsCounterClear | updCounterClear |
        hbmCounterClear | eccCounterClear | eccLogClear | lnkCounterClear | pwrCounterClear | wbCounterClear | holeClr |
        ttSyncWrite | pwrCapWrite | hbmRegWrite | bondPartWrite | bondSegWrite | bondPlatWrite | bondHwinWrite | bondPortWrite |
        updWbWrite | repairClear =>
      exact hostWrite_inv h _ _ _
    all_goals contradiction

/-- Settles O27: a step is a line tick, which changes only the count, or a command. -/
theorem everyStepKeepsTheInvariant : Obligations.EveryStepKeepsTheInvariant := by
  intro s t h hstep
  cases hp : s.pending with
  | nil =>
    cases (step_idle hp).symm.trans hstep
    exact h
  | cons c rest =>
    obtain ⟨u, hu, hinv⟩ := exec_inv c (s := { s with pending := rest }) h
    cases ((step_command hp).trans hu).symm.trans hstep
    exact hinv

end Sys2Proof.Machine
end

section
/-! Proofs of occurrences and timetables: what a change of one occurrence reads as, delivery, withdrawal, departure, overrun, takeover and
removal (R47, R55 to R60, R87, R88, R498, R499). -/

namespace Sys2Proof.Machine

/-! ### The record of an occurrence -/

theorem occ_key {d : Dev} {k : OccKey} {o : Occ} (h : d.occ k = some o) : o.key = k := by
  simpa using List.find?_some h

/-- An occurrence after a change of it. -/
theorem occ_modOcc {k : OccKey} (hk : k.part < 16) {f : Occ → Occ} (hf : ∀ o, (f o).key = o.key) (d : Dev) :
    (d.modOcc k f).occ k = (d.occ k).map f := by
  have hsame : ((fun o : Occ => o.key == k) ∘ fun o => if o.key = k then f o else o) = fun o => o.key == k := by
    funext o
    by_cases ho : o.key = k <;> simp [hf, ho]
  rw [Dev.occ, Dev.modOcc, Dev.part_modPart d hk, List.find?_map, hsame, Dev.occ]
  cases ho : (d.part k.part).occs.find? (fun o => o.key == k) with
  | none => rfl
  | some o => simp [occ_key (d := d) ho]

@[simp] theorem Occ.sansTraffic_key (o : Occ) : o.sansTraffic.key = o.key := rfl

/-- A partition of a device without its traffic. -/
theorem part_sansTraffic (d : Dev) (q : Nat) : d.sansTraffic.part q = (d.part q).sansTraffic := by
  simp only [Dev.part, Dev.sansTraffic]
  by_cases hq : q < 16
  · rw [vget_lt _ _ hq, vget_lt _ _ hq, Vector.getElem_map]
  · rw [vget_beyond _ _ (Nat.le_of_not_lt hq), vget_beyond _ _ (Nat.le_of_not_lt hq)]
    rfl

/-- The occurrence of a device without its traffic. -/
theorem occ_sansTraffic (d : Dev) (k : OccKey) : d.sansTraffic.occ k = (d.occ k).map Occ.sansTraffic := by
  rw [Dev.occ, part_sansTraffic]
  exact List.find?_map

/-- What traffic leaves of an occurrence, it leaves of every occurrence that a device holds. -/
theorem occ_of_parts {d e : Dev} (h : d.sansTraffic.parts = e.sansTraffic.parts) (k : OccKey) :
    (d.occ k).map Occ.sansTraffic = (e.occ k).map Occ.sansTraffic := by
  rw [← occ_sansTraffic, ← occ_sansTraffic, Dev.occ, Dev.occ, Dev.part, Dev.part, h]

/-! ### Delivery (R55, R87) -/

theorem mem_maskBits {n m i : Nat} : i ∈ maskBits n m ↔ i < n ∧ m.testBit i = true := by
  simp [maskBits]

/-- A bay stands in an entry's list exactly when its mask names it (R46). -/
theorem TEntry.mem_bays (te : TEntry) (b : Nat) : b ∈ te.bays ↔ te.names b = true := by
  simp only [TEntry.bays, TEntry.names, List.mem_map, mem_maskBits, Bool.and_eq_true, beq_iff_eq]
  constructor
  · rintro ⟨i, ⟨hi, hbit⟩, rfl⟩
    rw [Nat.mul_add_div (by decide), Nat.mul_add_mod, Nat.div_eq_of_lt hi, Nat.mod_eq_of_lt hi]
    exact ⟨rfl, hbit⟩
  · rintro ⟨hq, hbit⟩
    exact ⟨b % 4, ⟨Nat.mod_lt _ (by decide), hbit⟩, by omega⟩

/-- A change made once or more in every bay of a list, the second time without effect. -/
theorem bay_foldl_modBay {f : Bay → Bay} (hf : ∀ y, f (f y) = f y) (l : List Nat) (d : Dev) {b : Nat} (hb : b < 64) :
    (l.foldl (fun (d : Dev) c => d.modBay c f) d).bay b = if b ∈ l then f (d.bay b) else d.bay b := by
  induction l generalizing d with
  | nil => rfl
  | cons c rest ih =>
    rw [List.foldl_cons, ih]
    by_cases hc : b = c
    · subst hc
      simp [Dev.bay_modBay d hb, hf]
    · simp [Dev.bay_modBay_ne d hc, hc]

theorem Bay.setToken_idem (c : Nat) (y : Bay) : (y.setToken c).setToken c = y.setToken c := by
  simp only [Bay.setToken, BitVec.or_assoc, BitVec.or_self]

/-- A delivery that records nothing and asks for no note marks the occurrence and sets its token. -/
theorem deliver_silent {t : TimeUnit} {d : Dev} {o : Occ} {c : Nat} (ho : d.occ o.key = some o) (hc : o.ctoken = some c)
    (hrec : o.te.record = false) (hnote : d.noteJob t o = none) :
    d.deliver t o.key =
      o.te.bays.foldl (fun (d : Dev) b => d.modBay b (·.setToken c)) (d.modOcc o.key (fun o => { o with delivered := true, meters := [] })) := by
  simp [Dev.deliver, ho, hc, hrec, hnote]

/-- Settles O31: a silent delivery changes the occurrence's own record and one token of each of its bays. -/
theorem deliverySetsTheCompletionToken : Obligations.DeliverySetsTheCompletionToken := by
  intro t d o c ho hpart _ hc _ hrec hnote d'
  let marked := d.modOcc o.key (fun o => { o with delivered := true, meters := [] })
  have hd : d' = o.te.bays.foldl (fun (d : Dev) b => d.modBay b (·.setToken c)) marked := deliver_silent ho hc hrec hnote
  have hkeep {α : Type} (g : Dev → α) (hg : ∀ e b f, g (Dev.modBay e b f) = g e) : g d' = g marked :=
    hd ▸ foldl_keeps g _ (fun e b => hg e b _) _ _
  have hbay (b : Nat) (hb : b < 64) : d'.bay b = if o.te.names b then (d.bay b).setToken c else d.bay b := by
    rw [hd, bay_foldl_modBay (Bay.setToken_idem c) _ _ hb]
    simp only [TEntry.mem_bays]
    rfl
  refine ⟨?_, ?_, ?_, fun b hb => ?_, fun b hb => ?_⟩
  · have hocc : d'.occ o.key = marked.occ o.key := hkeep (·.occ o.key) (fun e b f => by simp [Dev.occ])
    have hmark := occ_modOcc hpart (f := fun o => { o with delivered := true, meters := [] }) (fun _ => rfl) d
    rw [hocc, hmark, ho]
    rfl
  · exact hkeep (·.mem) (fun e b f => Dev.modBay_mem e b f)
  · exact hkeep (·.records) (fun e b f => Dev.modBay_records e b f)
  · rw [hbay b hb]
    split <;> rfl
  · rw [hbay b hb]
    split <;> rfl

/-! ### Withdrawal (R57, R60) -/

theorem sansTraffic_parts (d : Dev) : d.sansTraffic.parts = d.parts.map Part.sansTraffic := by simp only [Dev.sansTraffic]

theorem parts_of_sansTraffic {d e : Dev} (h : d.sansTraffic = e.sansTraffic) : d.sansTraffic.parts = e.sansTraffic.parts :=
  congrArg (·.parts) h

theorem parts_of_sansRings {d e : Dev} (h : d.sansRings = e.sansRings) : d.sansTraffic.parts = e.sansTraffic.parts := by
  have hparts (d : Dev) : d.sansRings.parts = d.sansTraffic.parts := by simp only [Dev.sansRings]
  rw [← hparts, ← hparts, h]

/-- Sending a packet along its route counts at most a packet without one. -/
theorem sendRouted_keeps (p : Packet) (d : Dev) :
    (d.sendRouted p).records = d.records ∧ (d.sendRouted p).sansTraffic.parts = d.sansTraffic.parts := by
  unfold Dev.sendRouted
  split
  · next l _ => exact ⟨records_of (sendOn_sansTraffic l p d), parts_of_sansTraffic (sendOn_sansTraffic l p d)⟩
  · simp [sansTraffic_parts]

/-- Telling collective partners leaves records and occurrences. -/
theorem sendPeerLate_keeps (o : Occ) (slot : Nat) (d : Dev) :
    (d.sendPeerLate o slot).records = d.records ∧ (d.sendPeerLate o slot).sansTraffic.parts = d.sansTraffic.parts := by
  unfold Dev.sendPeerLate
  split
  · exact ⟨rfl, rfl⟩
  · exact ⟨foldl_keeps (·.records) _ (fun d r => (sendRouted_keeps _ d).1) _ _,
      foldl_keeps (·.sansTraffic.parts) _ (fun d r => (sendRouted_keeps _ d).2) _ _⟩

/-- A field does not see what lies beyond it. -/
theorem fld_mod_two_pow {w n lo len : Nat} (h : lo + len ≤ n) : fld (w % 2 ^ n) lo len = fld w lo len := by
  refine Nat.eq_of_testBit_eq (fun i => ?_)
  simp only [fld, Nat.testBit_mod_two_pow, Nat.testBit_shiftRight]
  by_cases hi : i < len
  · simp [hi, show lo + i < n by omega]
  · simp [hi]

theorem fld_low {n len : Nat} (h : len ≤ n) (a b : Nat) : fld (a + 2 ^ n * b) 0 len = a % 2 ^ len := by
  obtain ⟨m, rfl⟩ := Nat.exists_eq_add_of_le h
  rw [fld, Nat.shiftRight_zero, Nat.pow_add, Nat.mul_assoc, Nat.add_mul_mod_self_left]

theorem fld_high {lo a : Nat} (h : a < 2 ^ lo) (len b : Nat) : fld (a + 2 ^ lo * b) lo len = b % 2 ^ len := by
  rw [fld, Nat.shiftRight_eq_div_pow, Nat.add_mul_div_left _ _ (Nat.two_pow_pos lo), Nat.div_eq_of_lt h, Nat.zero_add]

/-- Byte 48 of a record is its own, whatever stands in the later ones (R11). -/
theorem detail_cause (c : Nat) {rest : List (Nat × Nat × Nat)} (h : ∀ x ∈ rest, 49 ≤ x.1) :
    fld (detail ((48, 1, c) :: rest)).toNat 0 8 = c % 256 := by
  have hsum : ∀ n, ∃ m, rest.foldl (fun n x => n + (x.2.2 % 256 ^ x.2.1) * 256 ^ (x.1 - 48)) n = n + 2 ^ 8 * m := by
    induction rest with
    | nil => exact fun n => ⟨0, rfl⟩
    | cons x rest ih =>
      intro n
      obtain ⟨m, hm⟩ := ih (fun y hy => h y (List.mem_cons_of_mem _ hy)) (n + (x.2.2 % 256 ^ x.2.1) * 256 ^ (x.1 - 48))
      obtain ⟨k, hk⟩ := Nat.exists_eq_add_of_le (h x List.mem_cons_self)
      refine ⟨x.2.2 % 256 ^ x.2.1 * 256 ^ k + m, ?_⟩
      rw [List.foldl_cons, hm, hk, show 49 + k - 48 = k + 1 by omega, Nat.pow_succ]
      ring
  obtain ⟨m, hm⟩ := hsum (0 + c % 256 ^ 1 * 256 ^ (48 - 48))
  rw [detail, BitVec.toNat_ofNat, fld_mod_two_pow (by decide), List.foldl_cons, hm, fld_low (le_refl 8)]
  simp


/-- The expected slot of a LATE record (R60). -/
theorem late_detail_slot (cause slot tag : Nat) :
    fld (detail [(48, 1, cause), (52, 8, slot), (60, 4, tag)]).toNat 32 64 = slot % 2 ^ 64 := by
  have hsum : (0 + cause % 256 ^ 1 * 256 ^ (48 - 48) + slot % 256 ^ 8 * 256 ^ (52 - 48) + tag % 256 ^ 4 * 256 ^ (60 - 48)) =
      cause % 256 + 2 ^ 32 * (slot % 2 ^ 64 + 2 ^ 64 * (tag % 2 ^ 32)) := by
    simp only [Nat.reducePow, Nat.reduceSub]
    omega
  have hcause : cause % 256 < 2 ^ 32 := (Nat.mod_lt _ (by decide)).trans (by decide)
  have hlen : 32 + 64 ≤ 128 := by decide
  rw [detail, BitVec.toNat_ofNat, fld_mod_two_pow hlen, List.foldl_cons, List.foldl_cons, List.foldl_cons, List.foldl_nil, hsum,
    fld_high hcause, Nat.add_mul_mod_self_left, Nat.mod_mod]

/-- A withdrawal marks the occurrence and writes its LATE record; what else it does leaves both. -/
theorem withdraw_open {t : TimeUnit} {d : Dev} {o : Occ} (ho : d.occ o.key = some o) (hopen : o.open = true) (cause slot : Nat) :
    let d1 := (d.modOcc o.key (fun o => { o with withdrawn := true, expect := some slot })).emit t (some o.key.part)
      (d.lateRecord o cause slot)
    (d.withdraw t cause slot o.key).records = d1.records ∧ (d.withdraw t cause slot o.key).sansTraffic.parts = d1.sansTraffic.parts := by
  simp only [Dev.withdraw, ho, hopen, Bool.not_true, Bool.false_eq_true, if_false]
  split
  · exact sendPeerLate_keeps _ _ _
  · exact ⟨rfl, rfl⟩

/-- Settles O32: the mark is the occurrence's own, and the record is the one that the withdrawal emits. -/
theorem withdrawalWritesALateRecord : Obligations.WithdrawalWritesALateRecord := by
  intro t d o cause slot ho hopen hpart hcause d'
  let marked := d.modOcc o.key (fun o => { o with withdrawn := true, expect := some slot })
  obtain ⟨hrecords, hparts⟩ := withdraw_open (t := t) ho hopen cause slot
  constructor
  · have hmark := occ_modOcc hpart (f := fun o => { o with withdrawn := true, expect := some slot }) (fun _ => rfl) d
    have hocc : (d'.occ o.key).map Occ.sansTraffic = (marked.occ o.key).map Occ.sansTraffic :=
      occ_of_parts (hparts.trans (parts_of_sansRings (emit_sansRings t _ _ marked))) o.key
    rw [hmark, ho] at hocc
    have hfields := congrArg (Option.map (fun o : Occ => (o.withdrawn, o.expect, o.delivered))) hocc
    simp only [Option.map_map, Option.map_some] at hfields
    simp only [Occ.open, Bool.and_eq_true, Bool.not_eq_true'] at hopen
    exact hfields.trans (by simp [Occ.sansTraffic, hopen.1])
  · obtain ⟨later, hlater⟩ := emit_wrote t (some o.key.part) (d.lateRecord o cause slot) marked
    refine ⟨_, ⟨later, hrecords.trans hlater⟩, rfl, rfl, rfl, rfl, rfl, rfl, ?_, late_detail_slot cause slot o.te.tag⟩
    exact (detail_cause cause (by simp)).trans (Nat.mod_eq_of_lt hcause)

end Sys2Proof.Machine
end

section
/-! Proofs of occurrences and timetables against line time: departure, overrun, takeover, removal and maintenance spans (R47, R65, R77,
R88, R321, R367, R498, R499). -/

namespace Sys2Proof.Machine

/-! ### The occurrence that an event names -/

/-- A timetable that has an entry and a step (R47). -/
theorem ttFor_some {d : Dev} {q e k : Nat} {tt : Timetable} {te : TEntry} (h : d.ttFor q e k = some (tt, te)) :
    (d.part q).installed = some tt ∧ tt.entries[e]? = some te ∧ tt.hasStep k = true := by
  unfold Dev.ttFor at h
  split at h
  · contradiction
  · split at h
    · contradiction
    · next hte =>
      split at h
      · next hstep =>
        cases h
        exact ⟨‹_›, hte, hstep⟩
      · contradiction

/-- An occurrence that is on record is not made again. -/
theorem ensureOcc_recorded {d : Dev} {q e k : Nat} {tt : Timetable} {te : TEntry} {o : Occ} (h : d.ttFor q e k = some (tt, te))
    (ho : d.occ { part := q, gen := tt.gen, entry := e, k := k } = some o) : d.ensureOcc q tt e k = some (o, d) := by
  obtain ⟨-, hte, hstep⟩ := ttFor_some h
  simp [Dev.ensureOcc, hte, hstep, ho]

theorem stream_modOcc (d : Dev) (key : OccKey) (f : Occ → Occ) (b i : Nat) : (d.modOcc key f).stream b i = d.stream b i :=
  Dev.stream_modPart d _ _ _ _

theorem entryStreams_modOcc (d : Dev) (key : OccKey) (f : Occ → Occ) (te : TEntry) (p : Stream → Bool) :
    (d.modOcc key f).entryStreams te p = d.entryStreams te p := by
  simp only [Dev.entryStreams, stream_modOcc]

/-! ### Departure and overrun (R88, R499) -/

section
variable {t : TimeUnit} {d : Dev} {q e k : Nat} {tt : Timetable} {te : TEntry} {o : Occ}

/-- An open occurrence whose departure slot has come, with its timetable running and its streams neither FAULTED nor IDLE after a HALT,
is reached. -/
theorem departureSlot_reaches (h : d.ttFor q e k = some (tt, te)) (ho : d.occ { part := q, gen := tt.gen, entry := e, k := k } = some o)
    (hslot : d.depSlot o ≤ t.slot) (hreached : o.reached = false) (hopen : o.open = true) (hpaused : d.hold.paused = false)
    (htime : d.timeOut = false) (hresume : tt.resume = none) (hfault : d.entryStreams te (fun x => x.state == .faulted) = [])
    (hhalt : d.entryStreams te (fun x => x.state == .idle && x.afterHalt) = []) :
    departureSlot q e k t d = d.modOcc { part := q, gen := tt.gen, entry := e, k := k } (fun o => { o with reached := true }) := by
  simp only [departureSlot, h, ensureOcc_recorded h ho, hreached, hopen, hpaused, Nat.not_lt.mpr hslot, htime, hresume, occ_key ho,
    entryStreams_modOcc, hfault, hhalt]
  simp

/-- An occurrence reached at its departure slot orders its drain. -/
theorem departure_reaches (hq : q < 16) (h : d.ttFor q e k = some (tt, te))
    (ho : d.occ { part := q, gen := tt.gen, entry := e, k := k } = some o)
    (hslot : d.depSlot o ≤ t.slot) (hreached : o.reached = false) (hopen : o.open = true) (hpaused : d.hold.paused = false)
    (htime : d.timeOut = false) (hresume : tt.resume = none) (hfault : d.entryStreams te (fun x => x.state == .faulted) = [])
    (hhalt : d.entryStreams te (fun x => x.state == .idle && x.afterHalt) = []) :
    departure q e k t d = (d.modOcc { part := q, gen := tt.gen, entry := e, k := k } (fun o => { o with reached := true })).drainDepart t
      { o with reached := true } := by
  have hd := departureSlot_reaches h ho hslot hreached hopen hpaused htime hresume hfault hhalt
  have hocc := occ_modOcc (k := { part := q, gen := tt.gen, entry := e, k := k }) hq (f := fun o => { o with reached := true })
    (fun _ => rfl) d
  rw [ho] at hocc
  have hopen' : ({ o with reached := true } : Occ).open = true := hopen
  simp [departure, hd, h, ho, hocc, hreached, hopen']

theorem occurrenceDelivered_due (hpaused : d.hold.paused = false)
    (ho : d.openOccIf q e k (fun o => d.workDone o && !o.te.maint) = some o) : occurrenceDelivered q e k t d = d.deliver t o.key := by
  simp only [occurrenceDelivered, hpaused, Bool.false_eq_true, if_false, ho]

/-- An overrun looks at the occurrences on record where the timetable in force has no unrecorded one of the entry and step. -/
theorem promiseExpiry_recorded
    (h : (d.ttFor q e k).all (fun x => (d.occ { part := q, gen := x.1.gen, entry := e, k := k }).isSome) = true)
    (hpaused : d.hold.paused = false)
    (ho : d.openOccIf q e k (fun o => !o.withdrawn && !o.te.maint && decide (d.promise o < t.slot)) = some o) :
    promiseExpiry q e k t d = ({ d with free := d.free + 1 } : Dev).withdraw t lateOverrun
      (max (d.promise o + 1) (Config.freeValue d.free).toNat) o.key := by
  unfold promiseExpiry
  cases htt : d.ttFor q e k with
  | none => simp only [hpaused, ho]; rfl
  | some x =>
    obtain ⟨tt, te⟩ := x
    obtain ⟨o', ho'⟩ := Option.isSome_iff_exists.mp (by simpa [htt] using h)
    simp only [ensureOcc_recorded htt ho', hpaused, ho]
    rfl

end

/-- Settles O30: each event takes the branch of its rule that the hypotheses select. -/
theorem occurrencesDepartDeliverOrOverrun : Obligations.OccurrencesDepartDeliverOrOverrun := by
  intro s q e k tt te o d t key
  refine ⟨fun h ho hslot hreached hopen hpaused htime hresume hfault hhalt => ?depart, fun hpaused ho => ?deliver, fun h ho hpaused => ?expire⟩
  case depart =>
    rw [exec_departureSlot, execDepartureSlot]
    exact run_of_eq (departure_reaches q.isLt h ho hslot hreached hopen hpaused htime hresume hfault hhalt)
  case deliver =>
    rw [exec_occurrenceDelivered, execOccurrenceDelivered]
    exact run_of_eq (congrArg (Dev.goOn t) (occurrenceDelivered_due hpaused ho))
  case expire =>
    refine ⟨max (d.promise o + 1) (Config.freeValue d.free).toNat, le_max_left _ _, ?_⟩
    rw [exec_promiseExpiry, execPromiseExpiry]
    exact run_of_eq (promiseExpiry_recorded h hpaused ho)

/-! ### Takeover and removal (R47, R498) -/

/-- TT_PWR_NEED is no partition's, no bay's and no memory. -/
theorem part_setPowerNeed (t : TimeUnit) (d : Dev) (q : Nat) : (d.setPowerNeed t).part q = d.part q := by
  simp only [Dev.part, Dev.setPowerNeed]

theorem setPowerNeed_keeps (t : TimeUnit) (d : Dev) : (d.setPowerNeed t).bays = d.bays ∧ (d.setPowerNeed t).mem = d.mem := by
  simp only [Dev.setPowerNeed, and_self]

theorem takeover_due {t : TimeUnit} {d : Dev} {q : Nat} {st : Timetable} (hst : (d.part q).staged = some st)
    (hslot : st.base + d.shiftOf st.shift0 ≤ t.slot) (hpaused : d.hold.paused = false) :
    takeover q t d = (d.modPart q (fun p => { p with installed := some st, staged := none })).setPowerNeed t := by
  simp [takeover, hst, Nat.not_lt.mpr hslot, hpaused]

/-- At a slot boundary after its steps a timetable goes once it has no occurrence unnoted, and none undelivered and not withdrawn. -/
theorem removal_due {t : TimeUnit} {d : Dev} {q : Nat} {tt : Timetable} (hin : (d.part q).installed = some tt) (hsteps : tt.steps ≠ 0)
    (hslot : tt.base + tt.steps * tt.period + d.shiftOf tt.shift0 ≤ t.slot) (hedge : t.now % t.slotLen = 0)
    (hpaused : d.hold.paused = false) (htotal : d.occTotal q tt ≤ ((d.part q).occs.filter (fun o => o.key.gen == tt.gen)).length)
    (hdone : ((d.part q).occs.filter (fun o => o.key.gen == tt.gen)).any (fun o => o.open && !o.withdrawn) = false) :
    removal q t d = (d.modPart q (fun p => { p with installed := p.staged, staged := none })).setPowerNeed t := by
  simp only [removal, hin, hsteps, Nat.not_lt.mpr hslot, hedge, hpaused, Nat.not_lt.mpr htotal, hdone]
  rfl

/-- Settles O34: both change one partition's timetables and TT_PWR_NEED. -/
theorem timetablesTakeOverAndGo : Obligations.TimetablesTakeOverAndGo := by
  intro s q tt hpaused d t
  have hchange (f : Part → Part) : ((d.modPart q f).setPowerNeed t).part q = f (d.part q) ∧
      (∀ r, r < 16 → r ≠ q.val → ((d.modPart q f).setPowerNeed t).part r = d.part r) ∧
      ((d.modPart q f).setPowerNeed t).bays = d.bays ∧ ((d.modPart q f).setPowerNeed t).mem = d.mem := by
    obtain ⟨hbays, hmem⟩ := setPowerNeed_keeps t (d.modPart q f)
    refine ⟨?_, fun r _ hr => ?_, hbays.trans (Dev.modPart_bays _ _ _), hmem.trans (Dev.modPart_mem _ _ _)⟩
    · rw [part_setPowerNeed, Dev.part_modPart d q.isLt]
    · rw [part_setPowerNeed, Dev.part_modPart_ne d hr]
  refine ⟨fun hst hslot => ?takeover, fun hin hsteps hslot hedge htotal hdone => ?removal⟩
  case takeover =>
    obtain ⟨hq, hothers⟩ := hchange (fun p => { p with installed := some tt, staged := none })
    refine ⟨_, ?_, congrArg Part.installed hq, congrArg Part.staged hq, hothers⟩
    rw [exec_timetableTakeover, execTimetableTakeover]
    exact run_of_eq (takeover_due hst hslot hpaused)
  case removal =>
    obtain ⟨hq, hothers⟩ := hchange (fun p => { p with installed := p.staged, staged := none })
    refine ⟨_, ?_, congrArg Part.installed hq, congrArg Part.staged hq, hothers⟩
    have hany : ((d.part q).occs.filter (fun o => o.key.gen == tt.gen)).any (fun o => o.open && !o.withdrawn) = false := by
      simpa using hdone
    rw [exec_timetableRemoval, execTimetableRemoval]
    exact run_of_eq (removal_due hin hsteps hslot hedge hpaused htotal hany)

/-! ### Maintenance spans (R65, R321, R367) -/

section
variable {t : TimeUnit} {d : Dev} {q e k : Nat} {tt : Timetable} {te : TEntry} {o : Occ}

/-- The occurrence of a maintenance entry whose span has begun and which has not started. -/
theorem maintOcc_due (h : d.ttFor q e k = some (tt, te)) (hmaint : te.maint = true)
    (ho : d.occ { part := q, gen := tt.gen, entry := e, k := k } = some o) (hopen : o.open = true) (hstart : o.start = none)
    (htime : d.timeOut = false) (hpaused : d.hold.paused = false) (hedge : t.now % t.slotLen = 0) (hspan : d.inSpan o t.slot = true) :
    maintOcc q e k t d = some (o, d) := by
  simp [maintOcc, h, hmaint, ensureOcc_recorded h ho, hopen, hstart, htime, hpaused, hedge, hspan]

/-- Its start: it is marked and timed, due channels retrain, and then the links that lack a quad. -/
theorem maintenanceStart_due (h : maintOcc q e k t d = some (o, d)) :
    maintenanceStart q e k t d =
      ((upTo 32).filter (fun l => (d.link l).en && (d.link l).state != .training &&
        ((d.link l).quads &&& (d.link l).qmask != (d.link l).qmask || !(d.link l).isUp))).foldl (fun (d : Dev) l => d.startTraining t l)
        (({ (d.modOcc o.key (fun o => { o with reached := true, start := some t.now })) with
          maint := some (max (d.promise o) (d.maint.getD 0)) } : Dev).trainDue t (d.promise o)) := by
  simp only [maintenanceStart, maintStart, h, Option.isNone_some, Bool.false_eq_true, if_false]

theorem maintEnd_due (hpaused : d.hold.paused = false)
    (ho : d.openOccIf q e k (fun o => o.te.maint && o.start.isSome && decide (d.promise o < t.slot)) = some o) :
    maintEnd q e k t d = { d.deliver t o.key with maint := if d.inMaint t then d.maint else none } := by
  simp only [maintEnd, hpaused, Bool.false_eq_true, if_false, ho]

end

/-- Settles O33: the start and the end of a span are their rules' own. -/
theorem maintenanceRunsAndEnds : Obligations.MaintenanceRunsAndEnds := by
  intro s q e k tt te o d t key
  refine ⟨fun h hmaint ho hopen hstart htime hpaused hedge hspan => ?start, fun hpaused ho => ?finish⟩
  case start =>
    rw [exec_maintStart, execMaintStart]
    refine run_of_eq ?_
    rw [maintenanceStart_due (maintOcc_due h hmaint ho hopen hstart htime hpaused hedge hspan), occ_key ho]
  case finish =>
    rw [exec_maintEnd, execMaintEnd]
    exact run_of_eq (congrArg (Dev.goOn t) (maintEnd_due hpaused ho))

end Sys2Proof.Machine
end

section
/-! Proofs of STEP and HOLD: what withdrawals and notices leave alone, pauses, resumes and step boundaries (R61 to R65, R68, R69). -/

namespace Sys2Proof.Machine

/-! ### What withdrawals and notices leave alone -/

/-- A device without what withdrawing occurrences and sending on links may touch: the rings and their traffic, the links, and the
occurrences on record (R57, R385, R396). -/
def Dev.sansOccs (d : Dev) : Dev :=
  { d.sansRings with links := Dev.reset.links, parts := d.sansRings.parts.map (fun p => { p with occs := [] }) }

theorem sansOccs_of_sansRings {d e : Dev} (h : d.sansRings = e.sansRings) : d.sansOccs = e.sansOccs := by
  simp only [Dev.sansOccs, h]

theorem sansOccs_of_sansTraffic {d e : Dev} (h : d.sansTraffic = e.sansTraffic) : d.sansOccs = e.sansOccs :=
  sansOccs_of_sansRings (sansRings_of d e h)

theorem foldl_sansOccs {α : Type} {f : Dev → α → Dev} (h : ∀ d x, (f d x).sansOccs = d.sansOccs) (l : List α) (d : Dev) :
    (l.foldl f d).sansOccs = d.sansOccs := foldl_keeps _ f h l d

theorem emit_sansOccs (t : TimeUnit) (q : Option Nat) (r : EvRec) (d : Dev) : (d.emit t q r).sansOccs = d.sansOccs :=
  sansOccs_of_sansRings (emit_sansRings t q r d)

theorem links_sansOccs (d : Dev) (links : Vector Link 32) : ({ d with links := links } : Dev).sansOccs = d.sansOccs := by
  simp only [Dev.sansOccs, Dev.sansRings, Dev.sansTraffic]

theorem modLink_sansOccs (l : Nat) (f : Link → Link) (d : Dev) : (d.modLink l f).sansOccs = d.sansOccs := links_sansOccs d _

theorem flood_sansOccs (p : Packet) (skip : Nat → Bool) (d : Dev) : (d.flood p skip).sansOccs = d.sansOccs := links_sansOccs d _

theorem sendRouted_sansOccs (p : Packet) (d : Dev) : (d.sendRouted p).sansOccs = d.sansOccs := by
  unfold Dev.sendRouted
  split
  · exact sansOccs_of_sansTraffic (sendOn_sansTraffic _ p d)
  · exact modLink_sansOccs _ _ d

/-- A change of a partition's occurrences alone. -/
theorem modPart_sansOccs (q : Nat) {f : Part → Part} (hf : ∀ p, { f p with occs := [] } = { p with occs := [] }) (d : Dev) :
    (d.modPart q f).sansOccs = d.sansOccs := by
  have hmap (p : Part) : ({ (f p).sansTraffic with occs := [] } : Part) = { p.sansTraffic with occs := [] } := by
    have h := hf p
    simp only [Part.mk.injEq] at h
    simp only [Part.sansTraffic, h]
  have hparts := map_vmod d.parts q f ((fun p : Part => ({ p with occs := [] } : Part)) ∘ Part.sansTraffic) hmap
  simp only [Dev.sansOccs, Dev.sansRings, Dev.sansTraffic, Dev.modPart, Vector.map_map, hparts]

theorem mapOccs_sansOccs (f : Occ → Occ) (d : Dev) :
    ({ d with parts := d.parts.map (fun p => { p with occs := p.occs.map f }) } : Dev).sansOccs = d.sansOccs := by
  simp only [Dev.sansOccs, Dev.sansRings, Dev.sansTraffic, Vector.map_map]
  rfl

theorem modOcc_sansOccs (k : OccKey) (f : Occ → Occ) (d : Dev) : (d.modOcc k f).sansOccs = d.sansOccs := by
  refine modPart_sansOccs _ ?_ d
  exact fun _ => rfl

theorem sendPeerLate_sansOccs (o : Occ) (slot : Nat) (d : Dev) : (d.sendPeerLate o slot).sansOccs = d.sansOccs := by
  unfold Dev.sendPeerLate
  split
  · rfl
  · exact foldl_sansOccs (fun d r => sendRouted_sansOccs _ d) _ _

theorem withdraw_sansOccs (t : TimeUnit) (cause slot : Nat) (k : OccKey) (d : Dev) :
    (d.withdraw t cause slot k).sansOccs = d.sansOccs := by
  unfold Dev.withdraw
  split
  · rfl
  · split
    · rfl
    · dsimp only
      split
      · rw [sendPeerLate_sansOccs, emit_sansOccs, modOcc_sansOccs]
      · rw [emit_sansOccs, modOcc_sansOccs]

theorem cancel_sansOccs (k : OccKey) (d : Dev) : (d.cancel k).sansOccs = d.sansOccs := modOcc_sansOccs k _ d

theorem withdrawCancel_sansOccs (t : TimeUnit) (cause : Nat) (k : OccKey) (d : Dev) :
    (d.withdrawCancel t cause k).sansOccs = d.sansOccs := by
  rw [Dev.withdrawCancel, cancel_sansOccs, withdraw_sansOccs]

theorem ensureOcc_sansOccs {d e : Dev} {q n k : Nat} {tt : Timetable} {o : Occ} (h : d.ensureOcc q tt n k = some (o, e)) :
    e.sansOccs = d.sansOccs := by
  unfold Dev.ensureOcc at h
  split at h
  · contradiction
  · split at h
    · contradiction
    · split at h
      · cases h; rfl
      · cases h
        refine modPart_sansOccs q ?_ d
        exact fun _ => rfl

theorem makeOccs_sansOccs (lo hi : Nat) (want : TEntry → Bool) (d : Dev) : (d.makeOccs lo hi want).sansOccs = d.sansOccs := by
  unfold Dev.makeOccs
  dsimp only
  split
  · rfl
  · refine foldl_sansOccs (fun d x => foldl_sansOccs (fun d y => ?_) _ _) _ _
    split
    · rfl
    · refine foldl_sansOccs (fun d i => ?_) _ _
      split
      · split
        · next h => exact ensureOcc_sansOccs h
        · rfl
      · rfl

theorem retrainResume_sansOccs (t : TimeUnit) (d : Dev) : (d.retrainResume t).sansOccs = d.sansOccs := by
  refine foldl_sansOccs (fun d s => ?_) _ _
  unfold Dev.retrainWithdraw
  split
  · rfl
  · dsimp only
    rw [foldl_sansOccs (fun d o => withdraw_sansOccs t _ _ _ d), makeOccs_sansOccs]

theorem sendSteps_sansOccs (lo hi : Nat) (d : Dev) : (d.sendSteps lo hi).sansOccs = d.sansOccs := by
  refine foldl_sansOccs (fun d j => foldl_sansOccs (fun d x => ?_) _ _) _ _
  dsimp only
  split
  · rfl
  · rw [apply_ite Dev.sansOccs, flood_sansOccs, ite_self]

theorem service_sansOccs (l : Nat) (d : Dev) : (d.service l).sansOccs = d.sansOccs :=
  sansOccs_of_sansTraffic (service_sansTraffic l d)

/-- What the fields of line time, HOLD and the streams read as is the same for devices that differ in what `sansOccs` leaves out. -/
theorem hold_of_sansOccs {d e : Dev} (h : d.sansOccs = e.sansOccs) : d.hold = e.hold := congrArg (·.hold) h
theorem step_of_sansOccs {d e : Dev} (h : d.sansOccs = e.sansOccs) : d.step = e.step := congrArg (·.step) h
theorem stepPend_of_sansOccs {d e : Dev} (h : d.sansOccs = e.sansOccs) : d.stepPend = e.stepPend := congrArg (·.stepPend) h
theorem shift_of_sansOccs {d e : Dev} (h : d.sansOccs = e.sansOccs) : d.shift = e.shift := congrArg (·.shift) h
theorem bays_of_sansOccs {d e : Dev} (h : d.sansOccs = e.sansOccs) : d.bays = e.bays := congrArg (·.bays) h

/-! ### HOLD (R61 to R64) -/

/-- The hold of a notice sent here: live, in the next sequence number (R61). -/
theorem sendHold_hold (t : TimeUnit) (c : HoldCause) (d : Dev) :
    (d.sendHold t c).hold =
      ({ d.hold with
        live := d.hold.live ++ [{ init := d.fab.addr.toNat, seq := d.hold.seq.toNat, pause := t.slot + 1 + t.lead, resume := none
                                  cause := c.code, src := c.src, late := false }]
        seq := d.hold.seq + 1, own := d.hold.own ++ [(c, d.hold.seq.toNat)] } : Hold).remember false d.fab.addr.toNat d.hold.seq.toNat := by
  unfold Dev.sendHold Dev.holdWithdraw
  rw [hold_of_sansOccs (emit_sansOccs _ _ _ _)]
  simp only [Dev.flood]

/-- A pause at a slot boundary at or after the earliest pause slot. -/
theorem pauseSlot_due {t : TimeUnit} {d : Dev} {p : Nat} (hedge : t.now % t.slotLen = 0) (hpaused : d.hold.paused = false)
    (hp : d.hold.pauseSlot = some p) (hslot : p ≤ t.slot) :
    pauseSlot t d = ({ d with hold := { d.hold with paused := true } } : Dev).mapStreams Stream.pause := by
  simp [pauseSlot, hedge, hpaused, hp, Nat.not_lt.mpr hslot]

/-- The device that goes on from a HOLD, before its links and its root's notices go on (R63, R69). -/
def Dev.resumed (r p : Nat) (d : Dev) : Dev :=
  let d0 := d.noteDepartures p
  ({ d0 with
    hold := { d0.hold with live := [], paused := false, late := false }
    shift := d0.shift + w64 (r - p)
    stepPend := d0.stepPend.map (fun x => if p ≤ x.2 then (x.1, x.2 + (r - p)) else x)
    bays := d0.bays.map Bay.tokensGoOn } : Dev).mapStreams Stream.unpause

/-- What else follows a resume is the occurrences', the records' and the links'. -/
theorem resumeSlot_sansOccs {t : TimeUnit} {d : Dev} {r p : Nat} (hr : d.hold.resumeSlot = some r) (hp : d.hold.pauseSlot = some p)
    (hslot : r ≤ t.slot) (hedge : t.now % t.slotLen = 0) : (resumeSlot t d).sansOccs = (d.resumed r p).sansOccs := by
  have hlate : ¬(t.slot < r ∨ t.now % t.slotLen ≠ 0) := by omega
  simp only [resumeSlot, hr, hp, if_neg hlate]
  rw [sendSteps_sansOccs, foldl_sansOccs (fun d l => service_sansOccs l d), retrainResume_sansOccs]
  exact mapOccs_sansOccs _ _

theorem Bay.tokensGoOn_streams (y : Bay) : y.tokensGoOn.streams = y.streams := by
  refine foldl_keeps Bay.streams _ (fun y x => ?_) _ _
  unfold Bay.hostTokens
  split <;> rfl

/-- At a resume every stream goes on, whatever tokens changed in its bay. -/
theorem stream_resumed (r p : Nat) (d : Dev) {b i : Nat} (hb : b < 64) (hi : i < 3) :
    (d.resumed r p).stream b i = (d.stream b i).unpause := by
  have hbay : (d.resumed r p).bay b = { (d.bay b).tokensGoOn with streams := (d.bay b).tokensGoOn.streams.map Stream.unpause } := by
    simp only [Dev.bay, Dev.resumed, Dev.mapStreams, Dev.noteDepartures, vget_lt _ _ hb, Vector.getElem_map]
  rw [Dev.stream, hbay, Bay.tokensGoOn_streams, Dev.stream, Bay.stream, Bay.stream, vget_lt _ _ hi, vget_lt _ _ hi, Vector.getElem_map]

theorem holdSend_one {t : TimeUnit} {d : Dev} {c : HoldCause} (hedge : t.now % t.slotLen = 0) (h : d.hold.raised = [c]) :
    holdSend t d = ({ d with hold := { d.hold with raised := [] } } : Dev).sendHold t c := by
  simp [holdSend, hedge, h]

/-- RESUME for the only hold of this device whose cause has cleared. -/
theorem resumeSend_one {t : TimeUnit} {d : Dev} {c : HoldCause} {seq : Nat} (hown : d.hold.own = [(c, seq)])
    (hclear : d.cleared t c = true) : resumeSend t d = d.sendResume t c := by
  simp [resumeSend, hown, hclear]

/-- The hold once its RESUME has been sent: no longer this device's own, with a resume slot not below R63's bound. -/
theorem sendResume_hold {t : TimeUnit} {d : Dev} {c c' : HoldCause} {seq : Nat}
    (h : d.hold.own.find? (fun x => x.1 = c) = some (c', seq)) :
    ∃ slot, t.slot + t.lead + 1 ≤ slot ∧ (d.sendResume t c).hold = ({ d.hold with
      own := d.hold.own.filter (fun x => x.1 != c)
      live := d.hold.live.map (fun h => if h.init = d.fab.addr.toNat ∧ h.seq = seq then { h with resume := some slot } else h) } :
        Hold).remember true d.fab.addr.toNat seq := by
  refine ⟨max (t.slot + t.lead + 1) (Config.freeValue d.free).toNat, le_max_left _ _, ?_⟩
  simp only [Dev.sendResume, h, Dev.takeFree]
  split
  · rw [hold_of_sansOccs (emit_sansOccs _ _ _ _)]
    rfl
  · rfl

/-- Settles O29: each event takes the branch of its rule that the hypotheses select, and what follows it leaves the hold alone. -/
theorem holdPausesAndResumeShifts : Obligations.HoldPausesAndResumeShifts := by
  intro s c p r d t edge
  refine ⟨fun hedge hraised => ?send, fun hedge hpaused hp hslot => ?pause, fun hedge hr hp hslot => ?resume,
    fun seq hown hclear => ?resumeSend⟩
  case send =>
    have hhold := sendHold_hold t c { d with hold := { d.hold with raised := [] } }
    refine ⟨holdSend t d, run_of_eq rfl, ?_⟩
    rw [holdSend_one hedge hraised, hhold]
    exact ⟨rfl, rfl, rfl, rfl⟩
  case pause =>
    rw [exec_pauseSlot, execPauseSlot]
    exact run_of_eq (pauseSlot_due hedge hpaused hp hslot)
  case resume =>
    have hs : (resumeSlot t d).sansOccs = (d.resumed r p).sansOccs := resumeSlot_sansOccs hr hp hslot hedge
    refine ⟨?_, (shift_of_sansOccs hs).trans rfl, ?_, ?_, (stepPend_of_sansOccs hs).trans rfl, fun b i hb hi => ?_⟩
    · rw [exec_resumeSlot, execResumeSlot]
      exact run_of_eq rfl
    · rw [hold_of_sansOccs hs]
      rfl
    · rw [hold_of_sansOccs hs]
      rfl
    · rw [← stream_resumed r p d hb hi, Dev.stream, Dev.bay, bays_of_sansOccs hs]
      rfl
  case resumeSend =>
    obtain ⟨slot, hslot, hhold⟩ := sendResume_hold (t := t) (d := d) (c := c) (c' := c) (seq := seq) (by simp [hown])
    refine ⟨resumeSend t d, slot, run_of_eq rfl, ?_⟩
    rw [resumeSend_one hown hclear, hhold]
    exact ⟨by simp [Hold.remember, hown], hslot, rfl⟩

end Sys2Proof.Machine
end

section
/-! Proofs of STEP's sources at slot boundaries and step boundaries (R65, R68, R69). -/

namespace Sys2Proof.Machine

/-! ### STEP (R65, R68, R69) -/

theorem stepApply_due {t : TimeUnit} {d : Dev} {v slot : Nat} (hpaused : d.hold.paused = false) (hedge : t.now % t.slotLen = 0)
    (h : d.stepPend.find? (fun p => p.2 = t.slot) = some (v, slot)) :
    stepApply t d = { d with step := w64 v, stepPend := d.stepPend.filter (fun x => x.2 != t.slot) } := by
  simp [stepApply, hpaused, hedge, h]

theorem parts_sansOccs (d : Dev) : d.sansOccs.parts = d.parts.map (fun p => { p.sansTraffic with occs := [] }) := by
  simp only [Dev.sansOccs, Dev.sansRings, Dev.sansTraffic, Vector.map_map]
  rfl

/-- A partition's timetables read the same in devices that differ in what `sansOccs` leaves out. -/
theorem staged_of_sansOccs {d e : Dev} (h : d.sansOccs = e.sansOccs) {q : Nat} (hq : q < 16) : (d.part q).staged = (e.part q).staged := by
  have hparts : d.sansOccs.parts = e.sansOccs.parts := congrArg (·.parts) h
  rw [parts_sansOccs, parts_sansOccs] at hparts
  have hpart := congrArg (fun v => Part.staged (vget Part.reset v q)) hparts
  simpa only [vget_lt _ _ hq, Vector.getElem_map, Dev.part, Part.sansTraffic] using hpart

/-- Dropping a partition's installed timetable leaves STEP and the staged one (R65). -/
theorem dropInstalled_keeps {t : TimeUnit} {d : Dev} {q cause : Nat} {tt : Timetable} (hq : q < 16) (h : (d.part q).installed = some tt) :
    ((d.dropInstalled t q cause).part q).installed = none ∧ (d.dropInstalled t q cause).step = d.step ∧
      ((d.dropInstalled t q cause).part q).staged = (d.part q).staged := by
  have hfold := foldl_sansOccs (fun (d : Dev) (o : Occ) => withdrawCancel_sansOccs t cause o.key d)
    ((d.part q).occs.filter (fun o => o.open && o.key.gen == tt.gen)) d
  have hpower (e : Dev) : (e.setPowerNeed t).step = e.step := by simp only [Dev.setPowerNeed]
  simp only [Dev.dropInstalled, h, part_setPowerNeed, Dev.part_modPart _ hq, hpower, Dev.modPart_step]
  exact ⟨trivial, step_of_sansOccs hfold, staged_of_sansOccs hfold hq⟩

/-- STEP as the root sets it at a step boundary of its timetable (R68). -/
def Dev.rootStep (tt : Timetable) (k : Nat) (d : Dev) : Dev :=
  if tt.root ∧ (tt.steps = 0 ∨ k < tt.steps) then { d with step := w64 (tt.step0 + k) } else d

theorem rootStep_root {tt : Timetable} {k : Nat} (hroot : tt.root = true) (hk : tt.steps = 0 ∨ k < tt.steps) (d : Dev) :
    d.rootStep tt k = { d with step := w64 (tt.step0 + k) } := if_pos ⟨hroot, hk⟩

theorem rootStep_other {tt : Timetable} (hroot : tt.root = false) (k : Nat) (d : Dev) : d.rootStep tt k = d :=
  if_neg (by simp [hroot])

theorem part_rootStep (tt : Timetable) (k : Nat) (d : Dev) (q : Nat) : (d.rootStep tt k).part q = d.part q := by
  unfold Dev.rootStep
  split <;> rfl

section
variable {t : TimeUnit} {d : Dev} {q k : Nat} {tt : Timetable}
variable (hin : (d.part q).installed = some tt) (hk : d.atStep tt t.slot = some k) (hedge : t.now % t.slotLen = 0)
variable (hpaused : d.hold.paused = false)
include hin hk hedge hpaused

/-- A step boundary in its slot, outside a HOLD, of a timetable that fits. -/
theorem stepBoundary_fits (hcheck : (d.rootStep tt k).recheck t q = none) : stepBoundary q t d = d.rootStep tt k := by
  have hnow : ¬(t.now % t.slotLen ≠ 0 ∨ d.hold.paused = true) := by simp [hedge, hpaused]
  rw [Dev.rootStep] at hcheck ⊢
  simp only [stepBoundary, hin, hk, if_neg hnow, hcheck]

/-- One of a timetable that no longer fits: its record, and its removal. -/
theorem stepBoundary_refused {r : Refuse} (hcheck : (d.rootStep tt k).recheck t q = some r) :
    stepBoundary q t d = ((d.rootStep tt k).emit t (some q) ((d.rootStep tt k).refusedRecord q tt.addr tt.base
      { r with slot := r.slot - (d.rootStep tt k).shiftOf tt.shift0 })).dropInstalled t q lateReset := by
  have hnow : ¬(t.now % t.slotLen ≠ 0 ∨ d.hold.paused = true) := by simp [hedge, hpaused]
  rw [Dev.rootStep] at hcheck ⊢
  simp only [stepBoundary, hin, hk, if_neg hnow, hcheck]

end

/-- The record of a refused timetable is its partition's, and byte 48 holds the cause (R60). -/
theorem refusedRecord_wrote (t : TimeUnit) (q addr base : Nat) (r : Refuse) (d e : Dev) :
    ∃ x : EvRec, d.wrote (d.emit t (some q) (e.refusedRecord q addr base r)) x ∧ x.cls = 0x10 ∧ x.part = BitVec.ofNat 4 q ∧
      fld x.detail.toNat 0 8 = r.cause % 256 :=
  ⟨_, emit_wrote t _ _ d, rfl, rfl, detail_cause r.cause (by simp)⟩

/-- A partition's timetables, and the INSTALL under admission. -/
def Part.tables (p : Part) : Option Timetable × Option Timetable × Option Install := (p.installed, p.staged, p.install)

theorem tables_of_parts {d e : Dev} (h : d.sansTraffic.parts = e.sansTraffic.parts) (q : Nat) : (d.part q).tables = (e.part q).tables := by
  have hpart (d : Dev) : (d.part q).tables = (vget Part.reset d.sansTraffic.parts q).tables := by
    rw [show vget Part.reset d.sansTraffic.parts q = (d.part q).sansTraffic from part_sansTraffic d q]
    rfl
  rw [hpart, hpart, h]

/-- A record leaves them. -/
theorem tables_emit (t : TimeUnit) (p : Option Nat) (x : EvRec) (d : Dev) (q : Nat) : ((d.emit t p x).part q).tables = (d.part q).tables :=
  tables_of_parts (parts_of_sansRings (emit_sansRings t p x d)) q

theorem installed_emit (t : TimeUnit) (p : Option Nat) (x : EvRec) (d : Dev) (q : Nat) :
    ((d.emit t p x).part q).installed = (d.part q).installed := congrArg Prod.fst (tables_emit t p x d q)

theorem staged_emit (t : TimeUnit) (p : Option Nat) (x : EvRec) (d : Dev) (q : Nat) :
    ((d.emit t p x).part q).staged = (d.part q).staged := congrArg (·.2.1) (tables_emit t p x d q)

/-- Settles O28: the rules' branches, and what a removal leaves of STEP and of the staged timetable. -/
theorem stepFollowsItsSources : Obligations.StepFollowsItsSources := by
  intro s q v slot k tt hpaused hedge d
  refine ⟨fun hfind => ?apply, fun hin hk => ⟨fun hroot hsteps => ?root, fun hroot hcheck => ?fits, fun r hroot hcheck => ?refused⟩⟩
  case apply =>
    rw [exec_stepApply, execStepApply]
    exact run_of_eq (stepApply_due hpaused hedge hfind)
  case root =>
    refine ⟨_, run_of_eq rfl, ?_⟩
    have hstep : (d.rootStep tt k).step = w64 (tt.step0 + k) := congrArg Dev.step (rootStep_root hroot hsteps d)
    cases hcheck : (d.rootStep tt k).recheck s.time q with
    | none => rw [stepBoundary_fits hin hk hedge hpaused hcheck, hstep]
    | some r =>
      rw [stepBoundary_refused hin hk hedge hpaused hcheck]
      refine (dropInstalled_keeps q.isLt (tt := tt) ?_).2.1.trans ((step_of_sansOccs (emit_sansOccs _ _ _ _)).trans hstep)
      rw [installed_emit, part_rootStep, hin]
  case fits =>
    have hd := rootStep_other hroot k d
    rw [exec_stepBoundary, execStepBoundary]
    exact run_of_eq ((stepBoundary_fits hin hk hedge hpaused (hd.symm ▸ hcheck)).trans hd)
  case refused =>
    intro refused d'
    have hd := rootStep_other hroot k d
    have hstep := stepBoundary_refused hin hk hedge hpaused (hd.symm ▸ hcheck)
    rw [hd] at hstep
    obtain ⟨hnone, hsame, hstaged⟩ := dropInstalled_keeps (t := s.time) (d := refused) (cause := lateReset) q.isLt
      ((installed_emit _ _ _ d q).trans hin)
    refine ⟨run_of_eq hstep, hnone, hsame.trans (step_of_sansOccs (emit_sansOccs _ _ _ _)), hstaged.trans (staged_emit _ _ _ d q), ?_⟩
    exact refusedRecord_wrote s.time q tt.addr tt.base _ d d

end Sys2Proof.Machine
end

section
/-! Proofs of the lock states and of pin mode of the line-time unit (R40, R41, R44, R57, R58). -/

namespace Sys2Proof.Machine

/-! ### Lock states (R41, R57, R58) -/

theorem runTime_of_eq {s : State} {g : TimeUnit → TimeUnit} {t : TimeUnit} (h : g s.time = t) : s.runTime g = .next (s.withTime t) := by
  rw [State.runTime, h]

/-- A command whose effect leaves the device alone answers the state with the effect's line-time unit. -/
theorem runBoth_of_time {s : State} {g : TimeUnit → Dev → TimeUnit × Dev} {t : TimeUnit} (h : g s.time s.dev = (t, s.dev)) :
    s.runBoth g = .next (s.withTime t) := by
  rw [State.runBoth, h]
  rfl

theorem runBoth_of_pair {s : State} {g : TimeUnit → Dev → TimeUnit × Dev} {t : TimeUnit} {d : Dev} (h : g s.time s.dev = (t, d)) :
    s.runBoth g = .next ((s.withTime t).withDev d) := by
  rw [State.runBoth, h]

theorem relock_timeOut (t : TimeUnit) (d : Dev) : (d.relock t).timeOut = false := by
  unfold Dev.relock
  split
  · rfl
  · next h => simpa using h

theorem timeWithdraw_timeOut {d : Dev} (h : d.anyTimetable = true) (t : TimeUnit) : (d.timeWithdraw t).timeOut = true := by
  simp only [Dev.timeWithdraw, h, if_true]

/-- The CAUTION record of HOLDOVER, field by field (R60). -/
theorem holdoverCaution_emit (t : TimeUnit) (d : Dev) :
    holdoverCaution t d = d.emit t none { record 0x06 0x3100 with detail := 0x04 } := by
  have hdetail : detail [(48, 1, 0x04)] = 0x04 := by decide
  rw [holdoverCaution, hdetail]
  rfl

/-- Settles O21: each event takes the branch of its rule that the lock state selects. -/
theorem lockStateMoves : Obligations.LockStateMoves := by
  intro s offset t held
  refine ⟨fun hl => ?present, fun hl hgood => ?lock, fun hl => ?lostAcquiring, fun hl => ?lostLocked, fun hl hlo hhi => ?regained,
    fun u hl hu hdue => ?expiry⟩
  case present =>
    rw [exec_timeSourcePresent, execTimeSourcePresent]
    exact runTime_of_eq (if_pos hl)
  case lock =>
    refine ⟨?_, relock_timeOut _ _⟩
    rw [exec_timeLock, execTimeLock]
    exact runBoth_of_pair (if_pos ⟨hl, hgood⟩)
  case lostAcquiring =>
    have hl' : s.time.lock = .acquiring := hl
    rw [exec_timeSourceLost, execTimeSourceLost]
    exact runBoth_of_time (by simp only [timeSourceLost, hl']; rfl)
  case lostLocked =>
    have hl' : s.time.lock = .locked := hl
    intro d'
    refine ⟨?_, emit_sansRings _ _ _ _, _, emit_wrote _ _ _ _, rfl, rfl, rfl⟩
    rw [exec_timeSourceLost, execTimeSourceLost]
    exact runBoth_of_pair (by simp only [timeSourceLost, hl', holdoverCaution_emit]; rfl)
  case regained =>
    rw [exec_timeSourceRegained, execTimeSourceRegained]
    exact runTime_of_eq (if_pos ⟨hl, hlo, hhi⟩)
  case expiry =>
    refine ⟨?_, fun h => timeWithdraw_timeOut h t⟩
    have hdue' : optAll t.since (fun u => decide (u + 10000000 ≤ t.now)) = true := by simpa [hu, optAll] using hdue
    rw [exec_holdoverExpiry, execHoldoverExpiry]
    exact runBoth_of_pair (if_pos ⟨hl, hdue'⟩)

/-! ### Pin mode (R40, R44) -/

/-- The least multiple of `m` that is not below `a`. -/
theorem ceilDiv_mul_bounds (a : Nat) {m : Nat} (hm : 0 < m) : a ≤ ceilDiv a m * m ∧ ceilDiv a m * m < a + m := by
  unfold ceilDiv
  have h := Nat.div_add_mod (a + m - 1) m
  have hlt := Nat.mod_lt (a + m - 1) hm
  rw [Nat.mul_comm] at h
  omega

/-- The count as an epoch instant sets it while ACQUIRING (R40). -/
theorem epochInstant_acquiring {t : TimeUnit} (hm : t.srcMode = false) (hl : t.lock = .acquiring) :
    let next := if t.epochSeen then ceilDiv t.now 1000000000 * 1000000000 else t.epoch.toNat
    epochInstant t = { t with
      ltime := w64 next, epochSeen := true, edge := next / t.slotLen * t.slotLen, good := min 16 (t.good + 1), offset := 0 } := by
  simp [epochInstant, hm, hl, TimeUnit.measure, unsx]

/-- The first epoch instant while ACQUIRING sets the count from TT_EPOCH. -/
theorem epochInstant_first {t : TimeUnit} (hm : t.srcMode = false) (hl : t.lock = .acquiring) (hs : t.epochSeen = false) :
    (epochInstant t).ltime = t.epoch := by
  simp only [epochInstant_acquiring hm hl, hs, Bool.false_eq_true, if_false, w64_toNat]

/-- Each later one sets it to the next multiple of 1,000,000,000 lt. -/
theorem epochInstant_later {t : TimeUnit} (hm : t.srcMode = false) (hl : t.lock = .acquiring) (hs : t.epochSeen = true)
    (hfit : t.now + 1000000000 ≤ 2 ^ 64) :
    (epochInstant t).now % 1000000000 = 0 ∧ t.now ≤ (epochInstant t).now ∧ (epochInstant t).now < t.now + 1000000000 := by
  obtain ⟨hlo, hhi⟩ := ceilDiv_mul_bounds t.now (show 0 < 1000000000 by decide)
  have hnow : (epochInstant t).now = ceilDiv t.now 1000000000 * 1000000000 := by
    have hset := epochInstant_acquiring hm hl
    rw [hs] at hset
    rw [hset]
    exact (BitVec.toNat_ofNat _ _).trans (Nat.mod_eq_of_lt (hhi.trans_le hfit))
  rw [hnow]
  exact ⟨Nat.mul_mod_left _ _, hlo, hhi⟩

/-- An epoch instant in LOCKED and HOLDOVER only measures. -/
theorem epochInstant_measures {t : TimeUnit} (hm : t.srcMode = false) (hl : t.lock = .locked ∨ t.lock = .holdover) :
    epochInstant t = { t with good := 0, offset := BitVec.ofNat 16 (unsx 16 (t.phase 1000000000)) } := by
  obtain hl | hl := hl <;> simp [epochInstant, hm, hl, TimeUnit.measure]

/-- Settles O22: each event takes the branch of its rule that the mode and the lock state select. -/
theorem pinModeMeasuresAndSets : Obligations.PinModeMeasuresAndSets := by
  intro s n t near offset billion
  refine ⟨fun hm hl => ?edge, fun hm hl => ?sets, fun hm hl => ?measures, fun hn hedge => ?changes, fun hn hedge => ?waits⟩
  case edge =>
    rw [exec_lrefEdge, execLrefEdge]
    exact runTime_of_eq (if_neg (by simp [hm, hl, t]))
  case sets =>
    refine ⟨epochInstant t, rfl, epochInstant_first hm hl, epochInstant_later hm hl, ?_⟩
    rw [epochInstant_acquiring hm hl]
    exact ⟨rfl, hl, rfl, rfl⟩
  case measures =>
    rw [exec_epochInstant, execEpochInstant]
    exact runTime_of_eq (epochInstant_measures hm hl)
  case changes =>
    have hn' : s.time.newLog2 = some n := hn
    rw [exec_slotLengthChange, execSlotLengthChange]
    exact runTime_of_eq (by simp only [slotLengthChange, hn']; exact if_pos hedge)
  case waits =>
    have hn' : s.time.newLog2 = some n := hn
    rw [exec_slotLengthChange, execSlotLengthChange]
    exact runTime_of_eq (t := s.time) (by simp only [slotLengthChange, hn']; exact if_neg hedge)

end Sys2Proof.Machine
end

section
/-! Proofs of admission: the reading of a timetable, and what its answer leaves in the partition (R47, R49, R50, R443). -/

namespace Sys2Proof.Machine

/-! ### Replies and posted writes leave a partition's timetables (R441, R442) -/

theorem tables_of_sansTraffic {d e : Dev} (h : d.sansTraffic = e.sansTraffic) (q : Nat) : (d.part q).tables = (e.part q).tables :=
  tables_of_parts (parts_of_sansTraffic h) q

theorem tables_of_sansRings {d e : Dev} (h : d.sansRings = e.sansRings) (q : Nat) : (d.part q).tables = (e.part q).tables :=
  tables_of_parts (parts_of_sansRings h) q

theorem tables_modPart {f : Part → Part} (hf : ∀ p, (f p).tables = p.tables) (d : Dev) (r q : Nat) :
    ((d.modPart r f).part q).tables = (d.part q).tables := by
  by_cases hq : q = r
  · subst hq
    by_cases h16 : q < 16
    · rw [Dev.part_modPart d h16, hf]
    · simp only [Dev.part, Dev.modPart, vget_beyond _ _ (Nat.le_of_not_lt h16)]
  · rw [Dev.part_modPart_ne d hq]

theorem flushList_keeps (t : TimeUnit) (r : Nat) (xs : List (Nat × List Nat)) (d : Dev) (q : Nat) :
    ((d.flushList t r xs).part q).tables = (d.part q).tables ∧ (d.flushList t r xs).records = d.records := by
  have hput (rest : List (Nat × List Nat)) (d : Dev) : ((d.modPart r (fun p => { p with replies := rest })).part q).tables =
      (d.part q).tables := tables_modPart (f := fun p => { p with replies := rest }) (fun _ => rfl) d r q
  induction xs generalizing d with
  | nil => exact ⟨hput [] d, Dev.modPart_records d r _⟩
  | cons x rest ih =>
    obtain ⟨due, bs⟩ := x
    have hcons : (if (d.part r).compFree = 0 then d.readCons t r 1 else d).sansTraffic = d.sansTraffic := by
      split
      · exact readCons_sansTraffic t r 1 d
      · rfl
    simp only [Dev.flushList]
    generalize (if (d.part r).compFree = 0 then d.readCons t r 1 else d) = d1 at hcons ⊢
    split
    · exact ⟨(hput ((due, bs) :: rest) d1).trans (tables_of_sansTraffic hcons q),
        (Dev.modPart_records d1 r _).trans (records_of hcons)⟩
    · have hring := (ringPut_sansTraffic t r 1 1 bs [] d1).trans hcons
      exact ⟨(ih _).1.trans (tables_of_sansTraffic hring q), (ih _).2.trans (records_of hring)⟩

/-- Replies leave timetables, and what they write may give rise to records. -/
theorem flushReplies_keeps (t : TimeUnit) (r : Nat) (d : Dev) (q : Nat) :
    ((d.flushReplies t r).part q).tables = (d.part q).tables ∧ ∃ later, (d.flushReplies t r).records = later ++ d.records := by
  obtain ⟨htables, hrecords⟩ := flushList_keeps t r (d.part r).replies d q
  obtain ⟨later, hlater⟩ := flushOwed_records t (d.flushList t r (d.part r).replies)
  exact ⟨(tables_of_sansRings (flushOwed_sansRings t _) q).trans htables, later, hrecords ▸ hlater⟩

theorem reply_keeps (r due : Nat) (bs : List Nat) (d : Dev) (q : Nat) :
    ((d.reply r due bs).part q).tables = (d.part q).tables ∧ (d.reply r due bs).records = d.records :=
  ⟨tables_modPart (f := fun p => { p with replies := p.replies ++ [(due, bs)] }) (fun _ => rfl) d r q, Dev.modPart_records d r _⟩

/-- So does an answer: a reply, put in the ring with those that wait. -/
theorem answer_keeps (t : TimeUnit) (q due : Nat) (bs : List Nat) (d : Dev) :
    (((d.reply q due bs).flushReplies t q).part q).tables = (d.part q).tables ∧
      ∃ later, ((d.reply q due bs).flushReplies t q).records = later ++ d.records := by
  obtain ⟨htables, later, hlater⟩ := flushReplies_keeps t q (d.reply q due bs) q
  obtain ⟨hreply, hrecords⟩ := reply_keeps q due bs d q
  exact ⟨htables.trans hreply, later, by rw [hlater, hrecords]⟩

theorem part_flood (p : Packet) (skip : Nat → Bool) (d : Dev) (q : Nat) : (d.flood p skip).part q = d.part q := by
  simp only [Dev.part, Dev.flood]

theorem part_sendSteps (lo hi : Nat) (d : Dev) (q : Nat) : (d.sendSteps lo hi).part q = d.part q := by
  refine foldl_keeps (fun d : Dev => d.part q) _ (fun d j => foldl_keeps (fun d : Dev => d.part q) _ (fun d x => ?_) _ _) _ _
  dsimp only
  split
  · rfl
  · rw [apply_ite (fun d : Dev => d.part q), part_flood, ite_self]

/-! ### The answer (R47, R50, R443) -/

section
variable {t : TimeUnit} {q : Nat} {ins : Install} {h : THeader} {tt : Timetable} {bad : Bool} {d : Dev}

/-- Arrays outside the windows, of a header that can be believed, are refused with a reply alone. -/
theorem admitPlan_outside (hbad : bad = false) (hlo : 1 ≤ h.entries) (hhi : h.entries ≤ 16384)
    (harrays : (d.part q).arraysInside ins.promises ins.notify ins.noteBase h.entries = false) :
    d.admitPlan t q ins h tt bad = ((d.modPart q (fun p => { p with install := none })).reply q t.slot
      (refusedBytes ins.subid t.slot 0 (refuseAt platScope 0))).flushReplies t q := by
  simp only [Dev.admitPlan, hbad, hlo, hhi, harrays, Bool.not_false, and_self, if_true]

/-- The INSTALL under admission is over with its answer. -/
theorem part_dropInstall (hq : q < 16) (d : Dev) : ((d.modPart q (fun p => { p with install := none })).part q).tables =
    ((d.part q).installed, (d.part q).staged, none) := by
  rw [Dev.part_modPart d hq]
  rfl

/-- The partition's timetables after one is accepted: installed at once, or staged while another is installed (R47). -/
def Part.accept (tt : Timetable) (p : Part) : Part :=
  match p.installed with
  | none => { p with install := none, installed := some tt, nextGen := p.nextGen + 1 }
  | some _ => { p with install := none, staged := some tt, nextGen := p.nextGen + 1 }

variable (hread : bad = true ∨ h.entries = 0 ∨ 16384 < h.entries ∨
  (d.part q).arraysInside ins.promises ins.notify ins.noteBase h.entries = true)
include hread

theorem believed : ¬((!bad) = true ∧ 1 ≤ h.entries ∧ h.entries ≤ 16384 ∧
    (!(d.part q).arraysInside ins.promises ins.notify ins.noteBase h.entries) = true) := by
  rintro ⟨hbad, hlo, hhi, harrays⟩
  simp only [Bool.not_eq_true'] at hbad harrays
  rcases hread with h1 | h1 | h1 | h1
  · simp [hbad] at h1
  · omega
  · omega
  · simp [harrays] at h1

/-- A timetable that a check refuses leaves its record, then the reply. -/
theorem admitPlan_refused {r : Refuse} (hr : admission t (d.modPart q (fun p => { p with install := none })) q h tt bad = some r) :
    d.admitPlan t q ins h tt bad = (((d.modPart q (fun p => { p with install := none })).emit t (some q)
      ((d.modPart q (fun p => { p with install := none })).refusedRecord q ins.header h.base r)).reply q t.slot
      (refusedBytes ins.subid t.slot h.base r)).flushReplies t q := by
  simp only [Dev.admitPlan, if_neg (believed hread), hr]

theorem wrote_refused {r : Refuse} (hr : admission t (d.modPart q (fun p => { p with install := none })) q h tt bad = some r) :
    ∃ e : EvRec, (d.modPart q (fun p => { p with install := none })).wrote (d.admitPlan t q ins h tt bad) e ∧ e.cls = 0x10 ∧
      e.part = BitVec.ofNat 4 q ∧ fld e.detail.toNat 0 8 = r.cause % 256 := by
  generalize hd2 : d.modPart q (fun p => { p with install := none }) = d2 at hr ⊢
  obtain ⟨e, ⟨later, hlater⟩, hcls, hpart, hcause⟩ := refusedRecord_wrote t q ins.header h.base r d2 d2
  obtain ⟨-, more, hmore⟩ := answer_keeps t q t.slot (refusedBytes ins.subid t.slot h.base r)
    (d2.emit t (some q) (d2.refusedRecord q ins.header h.base r))
  rw [admitPlan_refused hread (hd2 ▸ hr), hd2]
  exact ⟨e, ⟨more ++ later, by rw [hmore, hlater, List.append_assoc]⟩, hcls, hpart, hcause⟩

/-- An accepted one: the promise array and the reply leave the timetables as acceptance makes them. -/
theorem tables_accepted (hq : q < 16) (hr : admission t (d.modPart q (fun p => { p with install := none })) q h tt bad = none) :
    ((d.admitPlan t q ins h tt bad).part q).tables = ((d.part q).accept tt).tables := by
  have hnone := part_dropInstall hq d
  have hpost := foldl_sansTraffic (fun d (x : TEntry × Nat) =>
    Dev.post t q (ins.promises + 8 * x.2) (toBytes 8 (h.base + x.1.depart + x.1.span - 1)) [] d)
    (fun d x => post_sansTraffic t q _ _ [] d) tt.entries.zipIdx (d.modPart q (fun p => { p with install := none }))
  have htables := tables_of_sansTraffic hpost q
  simp only [Dev.admitPlan, if_neg (believed hread), hr, part_sendSteps, (answer_keeps ..).1, part_setPowerNeed,
    Dev.part_modPart _ hq]
  rw [hnone] at htables
  generalize List.foldl _ _ _ = d3 at htables ⊢
  obtain ⟨hin, hstaged, hinst⟩ : (d3.part q).installed = (d.part q).installed ∧ (d3.part q).staged = (d.part q).staged ∧
    (d3.part q).install = none := by simpa [Part.tables] using htables
  cases hold : (d.part q).installed <;> simp only [Part.accept, Part.tables, hin, hold, hstaged, hinst]

end

/-- An INSTALL that nothing makes wait is answered by one attempt at its effect (R34, R35). -/
theorem admissionComplete_whole {t : TimeUnit} {q : Nat} {ins : Install} {d : Dev} (hins : (d.part q).install = some ins)
    (hawait : d.awaits 78 q = false) (hwhole : d.whole t ins.await (Dev.admitEffect t q ins ins.await) = true) :
    admissionComplete q t d = d.had t (Dev.admitEffect t q ins ins.await) := by
  have hattempt := attempt_whole (effect := fun w => Dev.admitEffect t q ins w) hwhole
  simp only [admissionComplete, hins, hawait, Bool.false_eq_true, if_false, hattempt]

/-- Settles O37: a wait that is whole is one attempt, and each answer's effect on the timetables. -/
theorem admissionInstallsStagesOrRefuses : Obligations.AdmissionInstallsStagesOrRefuses := by
  refine ⟨fun s q ins => ?complete, fun t q ins w d => ?effect, fun t q ins h tt bad d => ?answer⟩
  case complete =>
    intro d t hins hawait hwhole
    exact run_of_eq (admissionComplete_whole hins hawait hwhole)
  case effect =>
    intro x hstall
    exact if_neg (by simp [x, hstall])
  case answer =>
    intro p d2 d' arrays
    have hdrop : (d2.part q).tables = (p.installed, p.staged, none) := part_dropInstall q.isLt d
    by_cases hout : bad = false ∧ 1 ≤ h.entries ∧ h.entries ≤ 16384 ∧ arrays = false
    · obtain ⟨hbad, hlo, hhi, harrays⟩ := hout
      have htables : (d'.part q).tables = (p.installed, p.staged, none) := by
        rw [show d' = _ from admitPlan_outside hbad hlo hhi harrays, (answer_keeps ..).1, hdrop]
      simp only [Part.tables, Prod.mk.injEq] at htables
      obtain ⟨hin, hstaged, hnone⟩ := htables
      refine ⟨hnone, fun _ _ _ _ => ⟨hin, hstaged⟩, fun hread => absurd hread ?_⟩
      simp only [hbad, harrays, Bool.false_eq_true, false_or, or_false]
      omega
    · have hread : bad = true ∨ h.entries = 0 ∨ 16384 < h.entries ∨ arrays = true := by
        by_contra hno
        simp only [not_or, Bool.not_eq_true] at hno
        obtain ⟨hbad, hzero, hmany, harrays⟩ := hno
        exact hout ⟨hbad, by omega, by omega, harrays⟩
      have hshut (hbad : bad = false) (hlo : 1 ≤ h.entries) (hhi : h.entries ≤ 16384) (harrays : arrays = false) :
          (d'.part q).installed = p.installed ∧ (d'.part q).staged = p.staged := absurd ⟨hbad, hlo, hhi, harrays⟩ hout
      cases hadm : admission t d2 q h tt bad with
      | none =>
        have htables : (d'.part q).tables = (p.accept tt).tables := tables_accepted hread q.isLt hadm
        cases hold : p.installed with
        | none =>
          simp only [Part.tables, Part.accept, hold, Prod.mk.injEq] at htables
          obtain ⟨hin, hstaged, hnone⟩ := htables
          exact ⟨hnone, hold ▸ hshut, fun _ => ⟨hin, hstaged⟩⟩
        | some old =>
          simp only [Part.tables, Part.accept, hold, Prod.mk.injEq] at htables
          obtain ⟨hin, hstaged, hnone⟩ := htables
          exact ⟨hnone, hold ▸ hshut, fun _ => ⟨hin, hstaged⟩⟩
      | some r =>
        have htables : (d'.part q).tables = (p.installed, p.staged, none) := by
          rw [show d' = _ from admitPlan_refused hread hadm, (answer_keeps ..).1, tables_emit, hdrop]
        simp only [Part.tables, Prod.mk.injEq] at htables
        obtain ⟨hin, hstaged, hnone⟩ := htables
        exact ⟨hnone, hshut, fun _ => ⟨hin, hstaged, wrote_refused hread hadm⟩⟩

end Sys2Proof.Machine
end

section
/-! Refutation of the claim about notices (a device without a valid fabric address takes no PEERLATE, R376, R377, R398). -/

namespace Sys2Proof.Machine

/-- A device without a valid fabric address withholds the notices that are routed (R376, R377). -/
theorem consume_unaddressed {d : Dev} (h : d.fab.valid = false) (l : Nat) (p : Packet) (act : Dev → Dev) : d.consume l p act = d := by
  simp [Dev.consume, h]

/-- An undelivered occurrence of an entry with TE_COLL, of path set 4. -/
def collOcc : Occ where
  key := { part := 0, gen := 1, entry := 0, k := 0 }
  te := { depart := 0, span := 2, stream := 0, early := false, maint := false, coll := true, record := false, quarter := 0, baymask := 1,
          array := 0, vector := 0, bstore := 0, capnear := 0, capfar := 0, fartile := 0, hbmshare := 0, hbmmask := 0, pathset := 0,
          mb := 0, updu := 0, ptsu := 0, tag := 0, rsvd := false }
  base := 0
  period := 4
  shift0 := 0
  paths := some { index := 0, id := 4, algo := 0, carry := 0, n := 2, rank := 0, stat := 0, accdst := false, members := [0, 9]
                  claims := [] }
  ctoken := none
  bound := 0
  closed := 0
  reached := false
  delivered := false
  cancelled := false
  withdrawn := false
  expect := none
  start := none
  depAt := none
  unlinked := false
  heard := none
  meters := []
  emptied := 0

/-- A device with no valid fabric address, link 0 UP and that occurrence on record. -/
def unaddressed : Dev :=
  (Dev.reset.modLink 0 (fun k => { k with state := .up })).modPart 0 (fun p => { p with occs := [collOcc] })

/-- PEERLATE for path set 4, the first packet of a link. -/
def peerLate4 : Packet :=
  { packet 0x03 false 0 0 0 0 0 with seq := 1, payload := byteList (toBytes 32 (5 + 4 * 2 ^ 32)) }

/-- Whether the first occurrence of partition 0 has been withdrawn. -/
def Dev.lateThere (d : Dev) : Bool := (d.part 0).occs.any (·.withdrawn)

/-- As the next packet of its link it is accepted, and nothing more comes of it. -/
theorem peerLate_unaddressed (t : TimeUnit) : peerLatePacket 0 peerLate4 t unaddressed = unaddressed.received 0 peerLate4 := by
  have hkind : fld (ofBytes (natBytes peerLate4.payload)) 0 8 = 5 := by decide +kernel
  have hinvalid : (unaddressed.received 0 peerLate4).fab.valid = false := by decide +kernel
  simp only [peerLatePacket, Dev.onNotice, hkind, ne_eq, not_true_eq_false, if_false]
  exact (arrive_next (by decide +kernel) (by decide +kernel)).trans (consume_unaddressed hinvalid 0 peerLate4 _)

/-- Refutes O52: a PEERLATE that comes to a device without a valid fabric address withdraws nothing, where the claim has it withdraw
the occurrences of its path set. -/
theorem not_noticesAreTakenByTheirRules : ¬ Obligations.NoticesAreTakenByTheirRules := by
  intro h
  let s : State := { State.reset with dev := unaddressed }
  obtain ⟨-, -, -, -, hlate, -⟩ := h s 0 peerLate4 (by decide +kernel)
  have hexec := hlate ⟨by decide, by decide +kernel⟩ (by decide +kernel)
  rw [show exec (.peerLate 0 peerLate4) s = .next (s.withDev (peerLatePacket 0 peerLate4 s.time unaddressed)) from rfl,
    peerLate_unaddressed, show fld (ofBytes (natBytes peerLate4.payload)) 32 16 = 4 by decide +kernel,
    show fld (ofBytes (natBytes peerLate4.payload)) 64 64 = 0 by decide +kernel, Host.Outcome.next.injEq] at hexec
  have hsame : (unaddressed.received 0 peerLate4).lateThere =
      (peerLate 4 0 TimeUnit.reset (unaddressed.received 0 peerLate4)).lateThere := congrArg (fun s : State => s.dev.lateThere) hexec
  exact absurd hsame (by decide +kernel)

end Sys2Proof.Machine
end

section
/-! Proofs of link service: NAK and replay, the replay thresholds, IDLE and unassigned packets, TIME packets (R43, R371, R373, R374). -/

namespace Sys2Proof.Machine

/-! ### Packets without credits (R371, R372) -/

/-- A packet that takes no credits is sent at once. -/
theorem sendOn_free {p : Packet} (hp : pktCredited p = false) (l : Nat) (d : Dev) : d.sendOn l p = d.modLink l (·.transmit p) := by
  rw [Dev.sendOn, hp, if_neg (by decide)]

theorem link_sendOn {l : Nat} (hl : l < 32) {p : Packet} (hp : pktCredited p = false) (d : Dev) :
    (d.sendOn l p).link l = (d.link l).transmit p := by
  rw [sendOn_free hp, Dev.link_modLink d hl]

/-- A record leaves a link but for the traffic of the ring writes. -/
theorem link_of_sansRings {d e : Dev} (h : d.sansRings = e.sansRings) (l : Nat) : (d.link l).sansTraffic = (e.link l).sansTraffic := by
  have hlinks : d.links.map Link.sansTraffic = e.links.map Link.sansTraffic := by
    simpa only [Dev.sansRings, Dev.sansTraffic] using congrArg (·.links) h
  have hlink := congrArg (fun v => vget Link.reset v l) hlinks
  simp only [Dev.link]
  by_cases hl : l < 32
  · simpa only [vget_lt _ _ hl, Vector.getElem_map] using hlink
  · rw [vget_beyond _ _ (Nat.le_of_not_lt hl), vget_beyond _ _ (Nat.le_of_not_lt hl)]

section
variable {l : Nat} {d : Dev} (hl : l < 32) (hup : (d.link l).state = .up)
include hl hup

theorem link_packetNak (unc : Vector Nat 4) : (packetNak l unc d).link l =
    Link.transmit { d.link l with cnt := vmod (d.link l).cnt 0 (fun c => c.addHi unc.sum),
                                  unc := Vector.zipWith (· + ·) (d.link l).unc unc }
      { packet 0x00 false 0 0 d.fab.addr.toNat 0 0 with nak := true } := by
  have hopen : ¬(!(d.link l).isUp) = true := by simp [Link.isUp, hup]
  rw [packetNak, if_neg hopen, link_sendOn hl rfl, Dev.link_modLink d hl]

theorem link_packetReplay {ack : BitVec 16} {i : Nat} (hi : (d.link l).unacked.findIdx? (fun u => u.seq == ack) = some i) :
    (packetReplay l ack d).link l =
      Link.replay { d.link l with unacked := (d.link l).unacked.drop (i + 1) } ((d.link l).unacked.drop (i + 1)) := by
  have hopen : ¬(!(d.link l).isUp) = true := by simp [Link.isUp, hup]
  rw [packetReplay, if_neg hopen, Dev.link_modLink d hl]
  simp only [hi]

end

theorem toBytes_length (n v : Nat) : (toBytes n v).length = n := by
  induction n generalizing v with
  | zero => rfl
  | succ n ih => rw [toBytes, List.length_cons, ih]

/-- The TIME packet that a device sends on link `l` (R395). -/
def Dev.timePkt (t : TimeUnit) (l frac : Nat) (d : Dev) : Packet :=
  { packet 0x02 false 0 0 d.fab.addr.toNat 0 0 with
    payload := byteList (toBytes 8 (16 * t.now + frac) ++ toBytes 8 (d.link l).lastRx.toNat ++ toBytes 8 (d.stepNews t).1 ++
      toBytes 8 (d.stepNews t).2 ++
      [t.depth.toNat + 16 * (if d.fab.srcLock = 3 then 3 else t.lock.code) + 64 * b2n t.root, 0] ++
      toBytes 2 (if t.root then d.fab.addr.toNat else d.fab.rootAddr.toNat) ++ List.replicate 28 0) }

theorem timePkt_length (t : TimeUnit) (l frac : Nat) (d : Dev) : (d.timePkt t l frac).payload.length = 64 := by
  simp [Dev.timePkt, byteList, toBytes_length]

theorem link_timeSend {t : TimeUnit} {l : Nat} {d : Dev} (hl : l < 32) (hup : (d.link l).state = .up) (frac : Nat) :
    (timeSend l frac t d).link l =
      Link.transmit { d.link l with lastTx := w64 (16 * t.now + frac) } (d.timePkt t l frac) := by
  have hopen : ¬(!(d.link l).isUp) = true := by simp [Link.isUp, hup]
  have hsend : timeSend l frac t d =
      (d.modLink l (fun k => { k with lastTx := w64 (16 * t.now + frac) })).sendOn l (d.timePkt t l frac) := by
    rw [timeSend, if_neg hopen]
    rfl
  rw [hsend, link_sendOn hl rfl, Dev.link_modLink d hl]

/-! ### Thresholds (R374) -/

/-- One more quad looked at for the one with the most uncorrectable codewords. -/
def Link.worse (k : Link) (m : Option Nat) (q : Nat) : Option Nat :=
  if optAll m (fun b => decide (vget 0 k.unc b < vget 0 k.unc q)) then some q else m

theorem worse_most (k : Link) (m : Option Nat) (q : Nat) :
    ∃ b, k.worse m q = some b ∧ vget 0 k.unc q ≤ vget 0 k.unc b ∧ ∀ a, m = some a → vget 0 k.unc a ≤ vget 0 k.unc b := by
  cases m with
  | none => exact ⟨q, rfl, le_refl _, fun _ ha => nomatch ha⟩
  | some a =>
    by_cases hlt : vget 0 k.unc a < vget 0 k.unc q
    · exact ⟨q, by simp [Link.worse, optAll, hlt], le_refl _, fun c hc => by cases hc; exact Nat.le_of_lt hlt⟩
    · exact ⟨a, by simp [Link.worse, optAll, hlt], Nat.le_of_not_lt hlt, fun c hc => by cases hc; exact le_refl _⟩

theorem foldl_worse_most (k : Link) (l : List Nat) (m : Option Nat) {q : Nat} (hq : q ∈ l ∨ m = some q) :
    ∃ b, l.foldl k.worse m = some b ∧ vget 0 k.unc q ≤ vget 0 k.unc b := by
  induction l generalizing m q with
  | nil =>
    rcases hq with hq | hq
    · cases hq
    · exact ⟨q, hq, le_refl _⟩
  | cons x xs ih =>
    obtain ⟨b, hb, hx, hm⟩ := worse_most k m x
    rw [List.foldl_cons]
    rcases hq with hq | hq
    · rcases List.mem_cons.mp hq with rfl | hq
      · obtain ⟨c, hc, hle⟩ := ih (k.worse m q) (Or.inr hb)
        exact ⟨c, hc, hx.trans hle⟩
      · exact ih (k.worse m x) (Or.inl hq)
    · obtain ⟨c, hc, hle⟩ := ih (k.worse m x) (Or.inr hb)
      exact ⟨c, hc, (hm q hq).trans hle⟩

/-- No quad in service has more uncorrectable codewords than the one that leaves it. -/
theorem worstQuad_most (k : Link) (quad : Nat) {q : Nat} (hq : q < 4) (hin : bit k.quads.toNat q = true) :
    vget 0 k.unc q ≤ vget 0 k.unc (k.worstQuad quad) := by
  have hmem : q ∈ upTo 4 := by simpa [upTo] using hq
  unfold Link.worstQuad
  split
  · next h =>
    rw [Bool.and_eq_true, List.all_eq_true] at h
    simpa [hin] using h.2 q hmem
  · obtain ⟨b, hb, hle⟩ := foldl_worse_most k ((upTo 4).filter (fun q => bit k.quads.toNat q)) none
      (Or.inl (List.mem_filter.mpr ⟨hmem, hin⟩))
    have hb' : ((upTo 4).filter (fun q => bit k.quads.toNat q)).foldl (fun (m : Option Nat) q =>
        if optAll m (fun b => decide (vget 0 k.unc b < vget 0 k.unc q)) then some q else m) none = some b := hb
    rw [hb']
    exact hle

/-- A link after a CAUTION of `slot`, whose notice went out if the link is up (R374, R396). -/
def Dev.cautionSent (l : Nat) (p : Packet) (slot : Nat) (up : Bool) (d : Dev) : Dev :=
  if up then (d.modLink l (fun k => { k with lastCaution := some slot })).sendOn l p
  else d.modLink l (fun k => { k with lastCaution := some slot })

theorem cautionSent_keeps {l : Nat} (hl : l < 32) (p : Packet) (hp : pktCredited p = false) (slot : Nat) (up : Bool) (d : Dev) :
    (d.cautionSent l p slot up).records = d.records ∧ ((d.cautionSent l p slot up).link l).lastCaution = some slot ∧
      ((d.cautionSent l p slot up).link l).state = (d.link l).state := by
  have hlink := Dev.link_modLink d hl (fun k => { k with lastCaution := some slot })
  cases up with
  | false => exact ⟨Dev.modLink_records d l _, congrArg Link.lastCaution hlink, (congrArg Link.state hlink :)⟩
  | true =>
    have hsent := (link_sendOn hl hp (d.modLink l (fun k => { k with lastCaution := some slot }))).trans
      (congrArg (Link.transmit · p) hlink)
    refine ⟨?_, congrArg Link.lastCaution hsent, (congrArg Link.state hsent :)⟩
    rw [Dev.cautionSent, if_pos rfl, sendOn_free hp, Dev.modLink_records, Dev.modLink_records]

theorem state_of_sansRings {d e : Dev} (h : d.sansRings = e.sansRings) (l : Nat) : (d.link l).state = (e.link l).state :=
  congrArg (·.state) (link_of_sansRings h l)

/-- The record of replays above the first threshold (R374). -/
def Dev.replayRecord (l : Nat) (d : Dev) : EvRec :=
  { record 0x06 (plainSrc 0x20 l) with count := w64 (d.link l).replayed, detail := detail [(48, 1, 0x05)] }

section
variable {t : TimeUnit} {l : Nat} {d : Dev}

/-- Replays above the first threshold alone (R374, R396). -/
theorem replayThreshold_caution (hmany : t.linkBytes < 64 * (d.link l).replayed)
    (hfew : 16 * (d.link l).replayed ≤ t.linkBytes) (hnone : (d.link l).lastCaution = none) (quad : Nat) :
    replayThreshold l quad t d = (d.emit t none (d.replayRecord l)).cautionSent l (notice (d.emit t none (d.replayRecord l)) 3 0x05
      (d.emit t none (d.replayRecord l)).fab.addr.toNat 0 0 (d.link l).replayed 0) t.slot (d.link l).isUp := by
  have hone : t.linkBytes < 64 * (d.link l).replayed ∧
      optAll (d.link l).lastCaution (fun s => decide (s + 1024 ≤ t.slot)) = true := ⟨hmany, by rw [hnone]; rfl⟩
  have htwo : ¬(t.linkBytes < 16 * (d.link l).replayed ∧ 2 ≤ (d.link l).overSlots) := by omega
  rw [replayThreshold, if_neg htwo, if_pos hone]
  simp only [Dev.cautionSent, Dev.replayRecord]

/-- Above the second one in a third slot, with a CAUTION in the last 1,024 slots, a quad leaves service (R374). -/
theorem replayThreshold_quad {u : Nat} (hmany : t.linkBytes < 16 * (d.link l).replayed) (hslots : 2 ≤ (d.link l).overSlots)
    (hlast : (d.link l).lastCaution = some u) (hu : t.slot < u + 1024) (quad : Nat) :
    replayThreshold l quad t d = d.loseQuad t l ((d.link l).worstQuad quad) 1 := by
  have hone : ¬(t.linkBytes < 64 * (d.link l).replayed ∧
      optAll (d.link l).lastCaution (fun s => decide (s + 1024 ≤ t.slot)) = true) := by
    simp [hlast, optAll, hu]
  rw [replayThreshold, if_neg hone, if_pos ⟨hmany, hslots⟩]

end

/-! ### TIME packets (R43, R395) -/

theorem lastRx_timeExchange (l t1 t2 t3 t4 : Nat) (t : TimeUnit) (d : Dev) (hl : l < 32) :
    ((timeExchange l t1 t2 t3 t4 t d).2.link l).lastRx = (d.link l).lastRx := by
  simp only [timeExchange]
  split <;> simp only [Dev.link_modLink d hl]

theorem link_noteStep (value slot : Nat) (d : Dev) (l : Nat) : (d.noteStep value slot).link l = d.link l := by
  simp only [Dev.noteStep]
  split <;> simp only [Dev.link]

theorem lastRx_of_sansRings {d e : Dev} (h : d.sansRings = e.sansRings) (l : Nat) : (d.link l).lastRx = (e.link l).lastRx :=
  congrArg (·.lastRx) (link_of_sansRings h l)

theorem lastRx_holdoverCaution (t : TimeUnit) (d : Dev) (l : Nat) : ((holdoverCaution t d).link l).lastRx = (d.link l).lastRx := by
  rw [holdoverCaution_emit]
  exact lastRx_of_sansRings (emit_sansRings t none _ d) l

/-- A TIME packet's arrival time is kept, whatever else it brings. -/
theorem lastRx_timePacket {l : Nat} (hl : l < 32) (p : Packet) (rx : Nat) (t : TimeUnit) (d : Dev) :
    ((timePacket l p rx t d).2.link l).lastRx = w64 rx := by
  unfold timePacket
  extract_lets w tx back sync k mine d1
  have hd1 : (d1.link l).lastRx = w64 rx := congrArg Link.lastRx (Dev.link_modLink d hl _)
  clear_value d1
  split
  next t1 d2 hx =>
  have hd2 : (d2.link l).lastRx = w64 rx := by
    refine (congrArg (fun x : TimeUnit × Dev => (x.2.link l).lastRx) hx).symm.trans ?_
    split
    · exact (lastRx_timeExchange _ _ _ _ _ t d1 hl).trans hd1
    · exact hd1
  split
  · extract_lets t0 t2 d3 fab d4
    have hd3 : (d3.link l).lastRx = w64 rx := by
      simp only [d3]
      split
      · exact (lastRx_holdoverCaution t2 d2 l).trans hd2
      · exact hd2
    clear_value d3
    have hd4 : (d4.link l).lastRx = w64 rx := hd3
    clear_value d4
    dsimp only
    split
    · exact (congrArg Link.lastRx (link_noteStep _ _ d4 l)).trans hd4
    · exact hd4
  · exact hd2

theorem runDev_of_eq {s : State} {g : Dev → Dev} {e : Dev} (h : g s.dev = e) : s.runDev g = .next (s.withDev e) := by
  rw [State.runDev, h]

theorem runBoth_answers {s : State} {g : TimeUnit → Dev → TimeUnit × Dev} {x : TimeUnit × Dev} (h : g s.time s.dev = x) :
    s.runBoth g = .next ((s.withTime x.1).withDev x.2) := runBoth_of_pair h

theorem nextOn_link {d : Dev} {l : Nat} {p : Packet} (h : d.nextOn l p = true) :
    (d.link l).isUp = true ∧ p.seq = (d.link l).recvSeq + 1 := by
  simp only [Dev.nextOn, Bool.and_eq_true, beq_iff_eq] at h
  exact h.1

section
variable {d : Dev} {l : Nat} {p : Packet} (hnext : d.nextOn l p = true)
include hnext

theorem idlePacket_accepted (htyp : p.typ = 0x00) : idlePacket l p d = d.received l p := by
  rw [idlePacket, arrive_next hnext (by rw [htyp]; rfl), id]

theorem unknownPacket_accepted (htyp : knownType p.typ.toNat = false) : unknownPacket l p d =
    (d.received l p).modLink l (fun k => { k with cnt := vmod k.cnt 2 (fun c => c.addHi 1) }) := by
  rw [unknownPacket, arrive_next hnext (by rw [htyp]; rfl)]

theorem timeArrival_accepted (htyp : p.typ = 0x02) (rx : Nat) (t : TimeUnit) :
    timeArrival l p rx t d = timePacket l p rx t (d.received l p) := by
  obtain ⟨hup, hseq⟩ := nextOn_link hnext
  rw [timeArrival, arrive_next hnext (by rw [htyp]; rfl), if_pos ⟨htyp, hup, hseq⟩, id]

end

/-- Settles O49: each packet's and each threshold's rule, and what it leaves of the link. -/
theorem linkServiceCountsAndReplays : Obligations.LinkServiceCountsAndReplays := by
  intro s l quad p unc ack frac rx i d k t
  refine ⟨fun hup => ⟨?nak, fun hi => ?replay, ?time⟩, fun hmany hfew hnone => ?caution, fun u hmany hslots hlast hu => ?quad,
    fun hnext htyp => ?idle, fun hnext htyp => ?unknown, fun hnext htyp => ?timePacket⟩
  case nak =>
    have hlink := link_packetNak l.isLt hup unc
    exact ⟨_, rfl, congrArg Link.cnt hlink, congrArg Link.unc hlink, _, congrArg Link.sent hlink, rfl, rfl⟩
  case replay =>
    have hlink := link_packetReplay l.isLt hup hi
    exact ⟨_, rfl, congrArg Link.unacked hlink, congrArg Link.sent hlink, congrArg Link.cnt hlink⟩
  case time =>
    have hlink := link_timeSend (t := t) l.isLt hup frac
    exact ⟨_, rfl, congrArg Link.lastTx hlink, _, congrArg Link.sent hlink, rfl, rfl, timePkt_length t l frac d⟩
  case caution =>
    obtain ⟨hrecords, hlast, hstate⟩ := cautionSent_keeps l.isLt (notice (d.emit t none (d.replayRecord l)) 3 0x05
      (d.emit t none (d.replayRecord l)).fab.addr.toNat 0 0 k.replayed 0) rfl t.slot k.isUp (d.emit t none (d.replayRecord l))
    obtain ⟨later, hlater⟩ := emit_wrote t none (d.replayRecord l) d
    refine ⟨_, _, run_of_eq (replayThreshold_caution hmany hfew hnone quad), ⟨later, hrecords.trans hlater⟩, rfl, rfl, rfl,
      detail_cause 5 (rest := []) (by simp), hlast, hstate.trans (state_of_sansRings (emit_sansRings t none _ d) l)⟩
  case quad =>
    exact ⟨run_of_eq (replayThreshold_quad hmany hslots hlast hu quad), fun q hq hin => worstQuad_most k quad hq hin⟩
  case idle => exact runDev_of_eq (idlePacket_accepted hnext htyp)
  case unknown => exact runDev_of_eq (unknownPacket_accepted hnext htyp)
  case timePacket =>
    have hrx : w64 rx.toNat = rx := by rw [w64, BitVec.ofNat_toNat, BitVec.setWidth_eq]
    exact ⟨runBoth_answers (timeArrival_accepted hnext htyp rx.toNat t), (lastRx_timePacket l.isLt p rx.toNat t _).trans hrx⟩

end Sys2Proof.Machine
end

section
/-! Proofs of host writes to a bay: tokens, VEC_STATUS, host shadows, RUN and HALT (R62, R76, R77, R86, R94, R95). -/

namespace Sys2Proof.Machine

/-! ### Tokens (R62, R76, R86) -/

section
variable {d : Dev} (b : Nat) (mask : W64)

theorem tokenSet_running (h : d.hold.paused = false) :
    d.tokenSet b (w64 mask.toNat).toNat = d.modBay b (fun y => { y with tokens := y.tokens ||| mask }) := by
  simp only [w64_toNat, Dev.tokenSet, Bay.hostWrites, Bay.hostTokens, h, Bool.false_eq_true, if_false, if_true]

theorem tokenSet_paused (h : d.hold.paused = true) :
    d.tokenSet b (w64 mask.toNat).toNat = d.modBay b (fun y => { y with tokWait := y.tokWait ++ [(true, mask)] }) := by
  simp only [w64_toNat, Dev.tokenSet, Bay.hostWrites, h, if_true]

theorem tokenClear_running (h : d.hold.paused = false) :
    d.tokenClear b (w64 mask.toNat).toNat = d.modBay b (fun y =>
    { y with tokens := y.tokens &&& ~~~mask, void := y.void &&& ~~~mask, met := y.nowMet
             voidClass := tabDrop y.voidClass (fun c => mask.toNat.testBit c) }) := by
  simp only [w64_toNat, Dev.tokenClear, Bay.hostWrites, Bay.hostTokens, Bay.clearTokens, h, Bool.false_eq_true, if_false, if_true]

theorem tokenClear_paused (h : d.hold.paused = true) :
    d.tokenClear b (w64 mask.toNat).toNat = d.modBay b (fun y => { y with tokWait := y.tokWait ++ [(false, mask)] }) := by
  simp only [w64_toNat, Dev.tokenClear, Bay.hostWrites, h, if_true]

end

/-! ### RUN and HALT (R77) -/

/-- A word of TT_SQ_CTL with START_IPTR and the bits `k`. -/
theorem sqCtl_word (start : W32) {k : Nat} (hk : k < 4) : (w64 (k + start.toNat <<< 32)).toNat = 2 ^ 32 * start.toNat + k := by
  have hlt := start.isLt
  rw [w64, BitVec.toNat_ofNat, Nat.shiftLeft_eq, Nat.mod_eq_of_lt (by omega)]
  omega

theorem sqCtl_start (start : W32) {k : Nat} (hk : k < 4) : w32 (fld (2 ^ 32 * start.toNat + k) 32 32) = start := by
  rw [Nat.add_comm, fld_high (by omega), Nat.mod_eq_of_lt start.isLt, w32, BitVec.ofNat_toNat, BitVec.setWidth_eq]

theorem sqCtl_bit (start : W32) {k j : Nat} (hk : k < 4) (hj : j < 32) : bit (2 ^ 32 * start.toNat + k) j = k.testBit j := by
  rw [bit, Nat.testBit_two_pow_mul_add _ (by omega), if_pos hj]

theorem vmod_vmod {α : Type} {n : Nat} (v : Vector α n) (i : Nat) (f g : α → α) :
    vmod (vmod v i f) i g = vmod v i (fun x => g (f x)) := by
  ext j hj
  simp only [vmod, Vector.getElem_ofFn, Fin.getElem_fin]
  split <;> rfl

theorem modStream_modStream (d : Dev) (b i : Nat) (f g : Stream → Stream) :
    (d.modStream b i f).modStream b i g = d.modStream b i (fun x => g (f x)) := by
  simp only [Dev.modStream, Dev.modBay, vmod_vmod]

section
variable {t : TimeUnit} {req : Req} {d : Dev} {b i : Nat} (hb : b < 64) (hi : i < 3) (start : W32)
include hb hi

theorem sqCtlWrite_run (h : (d.stream b i).state = .idle ∨ (d.stream b i).state = .faulted) :
    d.sqCtlWrite t req b i (2 ^ 32 * start.toNat + 1) =
      d.modStream b i (fun y => { y with startIptr := start, runPend := true }) := by
  have hrun : bit (2 ^ 32 * start.toNat + 1) 0 = true := sqCtl_bit start (by decide) (by decide)
  have hhalt : bit (2 ^ 32 * start.toNat + 1) 1 = false := sqCtl_bit start (by decide) (by decide)
  simp only [Dev.sqCtlWrite, hrun, hhalt, sqCtl_start start (k := 1) (by decide), Dev.stream_modStream d hb hi, h, Bool.not_true,
    Bool.not_false, Bool.false_eq_true, if_true, if_false, modStream_modStream]

/-- A RUN of a stream that is not at rest is ignored, but for its START_IPTR. -/
theorem sqCtlWrite_ignored (hidle : (d.stream b i).state ≠ .idle) (hfaulted : (d.stream b i).state ≠ .faulted) :
    d.sqCtlWrite t req b i (2 ^ 32 * start.toNat + 1) =
      (d.modStream b i (fun y => { y with startIptr := start })).conflict t req (baySrc 0x01 b) 0 := by
  have hrun : bit (2 ^ 32 * start.toNat + 1) 0 = true := sqCtl_bit start (by decide) (by decide)
  have hhalt : bit (2 ^ 32 * start.toNat + 1) 1 = false := sqCtl_bit start (by decide) (by decide)
  simp only [Dev.sqCtlWrite, hrun, hhalt, sqCtl_start start (k := 1) (by decide), Dev.stream_modStream d hb hi, hidle, hfaulted,
    or_self, Bool.not_true, Bool.not_false, Bool.false_eq_true, if_true, if_false]

/-- A HALT of a stream whose occurrence, if it has one, is over. -/
theorem sqCtlWrite_halt (h : ((d.stream b i).occ.bind d.occ).all (fun o => !o.open) = true) :
    d.sqCtlWrite t req b i (2 ^ 32 * start.toNat + 2) =
      d.modStream b i (fun y => { y with startIptr := start, haltPend := true }) := by
  have hrun : bit (2 ^ 32 * start.toNat + 2) 0 = false := sqCtl_bit start (by decide) (by decide)
  have hhalt : bit (2 ^ 32 * start.toNat + 2) 1 = true := sqCtl_bit start (by decide) (by decide)
  have hocc (f : Stream → Stream) (k : OccKey) : (d.modStream b i f).occ k = d.occ k := by
    simp only [Dev.occ, Dev.part, Dev.modStream_parts]
  simp only [Dev.sqCtlWrite, hrun, hhalt, sqCtl_start start (k := 2) (by decide), Dev.stream_modStream d hb hi, hocc, Bool.not_true,
    Bool.not_false, Bool.false_eq_true, if_true, if_false, modStream_modStream]
  cases hk : (d.stream b i).occ with
  | none => rfl
  | some k =>
    cases ho : d.occ k with
    | none => simp only [ho, Bool.false_eq_true, if_false]
    | some o =>
      have hover : o.open = false := by simpa [hk, ho] using h
      simp only [ho, hover, Bool.false_eq_true, if_false]

end

theorem stream_conflict (t : TimeUnit) (q : Req) (src count : Nat) (d : Dev) (b i : Nat) :
    (d.conflict t q src count).stream b i = d.stream b i := congrArg (·.stream b i) (conflict_sansRings t q src count d)

/-- Settles O14: each write is a host's write of a register of the bay, whose rule is given above. -/
theorem hostWritesToABay : Obligations.HostWritesToABay := by
  intro s f b i mask v start g fi slot wi hs d x
  have put {r : Reg} {v : Nat} {e : Dev} (hl : d.lets f r = true)
      (hput : d.hostPut (d.hostReq f) r (w64 v).toNat false s.time = (s.time, e)) (he : e.settled = d.settled) :
      s.runBoth (hostWrite f r v) = .next (s.withDev e) := runBoth_hostWrite hs hl hput he
  refine ⟨fun hl => ⟨fun hp => ?set, fun hp => ?setWaits⟩, fun hl => ⟨fun hp => ?clear, fun hp => ?clearWaits⟩, fun hl => ?oor,
    fun hl hbad => ?cfg, fun hl => ?desc, fun hl => ⟨fun hst => ?run, fun hocc => ?halt, fun hidle hfaulted => ?ignored⟩⟩
  case set => exact put hl (congrArg (s.time, ·) (tokenSet_running b mask hp)) (settled_modBay _ _ _)
  case setWaits => exact put hl (congrArg (s.time, ·) (tokenSet_paused b mask hp)) (settled_modBay _ _ _)
  case clear => exact put hl (congrArg (s.time, ·) (tokenClear_running b mask hp)) (settled_modBay _ _ _)
  case clearWaits => exact put hl (congrArg (s.time, ·) (tokenClear_paused b mask hp)) (settled_modBay _ _ _)
  case oor =>
    have hone : bit (w64 1).toNat 0 = true := by decide
    refine put hl (congrArg (s.time, ·) ?_) (settled_modStream _ _ _ _)
    simp only [Dev.permOorClear, hone, Bool.not_true, Bool.and_false]
  case cfg =>
    refine put hl (congrArg (s.time, ·) ?_) (settled_modStream _ _ _ _)
    simp only [w64_toNat, Dev.cfgWrite, hbad, Bool.false_eq_true, if_false]
  case desc =>
    refine put hl (congrArg (s.time, ·) ?_) (settled_modStream _ _ _ _)
    simp only [Dev.descWrite, w64_toNat]
  case run =>
    refine put hl (congrArg (s.time, ·) ?_) (settled_modStream _ _ _ _)
    rw [sqCtl_word start (by decide)]
    exact sqCtlWrite_run b.isLt i.isLt start hst
  case halt =>
    refine put hl (congrArg (s.time, ·) ?_) (settled_modStream _ _ _ _)
    rw [sqCtl_word start (by decide)]
    exact sqCtlWrite_halt b.isLt i.isLt start hocc
  case ignored =>
    intro e
    have hstart : (d.modStream b i (fun y => { y with startIptr := start })).settled = true := (settled_modStream _ _ _ _).trans hs
    have hput : d.hostPut (d.hostReq f) (.sqCtl b i) (w64 (1 + start.toNat <<< 32)).toNat false s.time = (s.time, e) := by
      rw [sqCtl_word start (by decide)]
      exact congrArg (s.time, ·) (sqCtlWrite_ignored b.isLt i.isLt start hidle hfaulted)
    obtain ⟨r, hwrote, hcls, -, -⟩ := conflict_wrote s.time (d.hostReq f) (baySrc 0x01 b) 0
      (d.modStream b i (fun y => { y with startIptr := start }))
    refine ⟨runBoth_of_eq ?_, ?_, r, ?_, hcls⟩
    · rw [hostWrite_lets _ hl, hput, afterWrite, startRestores_conflict hstart]
    · exact (stream_conflict _ _ _ _ _ _ _).trans (Dev.stream_modStream d b.isLt i.isLt _)
    · obtain ⟨later, hlater⟩ := hwrote
      exact ⟨later, by rw [hlater, Dev.modStream_records]⟩

end Sys2Proof.Machine
end

section
/-! Proofs of the sequencer's own instructions: NOP, BRANCH, CFG, COMMIT and SYNC (R74, R84, R85, R92, R93, R98, R99). -/

namespace Sys2Proof.Machine

/-! ### A presented instruction is issued (R74, R78, R96) -/

/-- What a command does that stands for an instruction which its stream presents. -/
theorem run_issue {s : State} {b i : Nat} {word : W128} (h : s.dev.presents b i word = true) {mine : Nat → Bool}
    (hm : mine word.toNat = true) (body : TimeUnit → Issue → Dev → Dev) :
    s.run (fun t d => d.issue t b i mine (body t)) = .next (s.withDev (body s.time (s.dev.issued b i word) s.dev)) :=
  run_of_eq (issue_presents h hm)

theorem run_issue_of_eq {s : State} {b i : Nat} {word : W128} (h : s.dev.presents b i word = true) {mine : Nat → Bool}
    (hm : mine word.toNat = true) {body : TimeUnit → Issue → Dev → Dev} {e : Dev}
    (hbody : body s.time (s.dev.issued b i word) s.dev = e) :
    s.run (fun t d => d.issue t b i mine (body t)) = .next (s.withDev e) := hbody ▸ run_issue h hm body

/-- A stream that presents an instruction is in RUN or WAIT_UNIT (R75, R78). -/
theorem state_of_presents {d : Dev} {b i : Nat} {word : W128} (h : d.presents b i word = true) :
    (d.stream b i).state = .run ∨ (d.stream b i).state = .waitUnit := by
  simp only [Dev.presents, Dev.canIssue, Dev.active, Bool.and_eq_true, Bool.or_eq_true, beq_iff_eq] at h
  exact h.1.1.1.1.1.1.1.2

/-! ### What a step of one stream changes -/

/-- A bay with other streams and another order of issue. -/
def Bay.issues (v : Vector Stream 3) (l : Nat) (y : Bay) : Bay := { y with streams := v, lastIssued := l }

theorem withBays_modBay (d e : Dev) (n : Nat) (f : Bay → Bay) :
    ({ e.modBay n f with bays := d.bays } : Dev) = { e with bays := d.bays } := by simp only [Dev.modBay]

theorem bay_modBay_beyond (d : Dev) (n : Nat) (f : Bay → Bay) {b : Nat} (h : 64 ≤ b) : (d.modBay n f).bay b = d.bay b := by
  rw [Dev.bay, Dev.bay, vget_beyond _ _ h, vget_beyond _ _ h]

/-- What a change of a bay leaves of any bay, where it leaves that of the bay itself. -/
theorem bay_modBay_keeps {α : Type} (p : Bay → α) (d : Dev) (n : Nat) (f : Bay → Bay) (hf : ∀ y, p (f y) = p y) (b : Nat) :
    p ((d.modBay n f).bay b) = p (d.bay b) := by
  by_cases h : b = n
  · subst h
    by_cases hb : b < 64
    · rw [Dev.bay_modBay d hb, hf]
    · rw [bay_modBay_beyond d b f (by omega)]
  · rw [Dev.bay_modBay_ne d h]

theorem bay_modStream_keeps {α : Type} (p : Bay → α) (hp : ∀ (y : Bay) (v : Vector Stream 3), p { y with streams := v } = p y) (d : Dev)
    (n i : Nat) (f : Stream → Stream) (b : Nat) : p ((d.modStream n i f).bay b) = p (d.bay b) := by
  rw [Dev.modStream]
  exact bay_modBay_keeps p d n _ (fun y => hp y _) b

section

variable {d e : Dev} {b i : Nat} {x : Stream} {g : Nat → Bay → Bay}

/-- An instruction has issued where only its stream, the order of issue, and what `g` says of the bays has changed. -/
theorem stepsTo_of (hrest : ({ e with bays := d.bays } : Dev) = d) (hx : e.stream b i = x) (hlast : (e.bay b).lastIssued = i)
    (hothers : ∀ c j, c ≠ b ∨ j ≠ i → e.stream c j = d.stream c j)
    (hbays : ∀ c, c < 64 → (e.bay c).issues (d.bay c).streams (d.bay c).lastIssued = g c (d.bay c)) : d.stepsTo e b i x g :=
  ⟨hrest, hx, hlast, hothers, hbays⟩

theorem bay_advance (d : Dev) (hb : b < 64) :
    (d.advance b i).bay b = (d.bay b).issues (vmod (d.bay b).streams i (fun x => { x with state := .run, iptr := x.iptr + 1 })) i := by
  rw [Dev.advance, Dev.bay_modBay _ hb, Dev.modStream, Dev.bay_modBay _ hb, Bay.issues]

theorem bay_advance_ne (d : Dev) {c : Nat} (h : c ≠ b) : (d.advance b i).bay c = d.bay c := by
  rw [Dev.advance, Dev.bay_modBay_ne _ h, Dev.modStream, Dev.bay_modBay_ne _ h]

theorem stepsTo_advance (d : Dev) (hb : b < 64) (hi : i < 3) :
    d.stepsTo (d.advance b i) b i { d.stream b i with state := .run, iptr := (d.stream b i).iptr + 1 } (fun _ z => z) := by
  refine stepsTo_of ?_ (stream_advance d hb hi) ?_ (fun c j h => stream_advance_ne d h) (fun c hc => ?_)
  · rw [Dev.advance, withBays_modBay, Dev.modStream, withBays_modBay]
  · rw [bay_advance d hb, Bay.issues]
  · by_cases h : c = b
    · subst h
      rw [bay_advance d hc]
      rfl
    · rw [bay_advance_ne d h]
      rfl

/-- The issuing stream changes once more. -/
theorem stepsTo_modStream (h : d.stepsTo e b i x g) (hb : b < 64) (hi : i < 3) (f : Stream → Stream) :
    d.stepsTo (e.modStream b i f) b i (f x) g := by
  obtain ⟨hrest, hx, hlast, hothers, hbays⟩ := h
  refine stepsTo_of ?_ ?_ ?_ (fun c j hne => ?_) (fun c hc => ?_)
  · rw [Dev.modStream, withBays_modBay, hrest]
  · rw [Dev.stream_modStream e hb hi, hx]
  · rw [bay_modStream_keeps Bay.lastIssued (fun _ _ => rfl), hlast]
  · rw [Dev.stream_modStream_ne e hne, hothers c j hne]
  · rw [bay_modStream_keeps (Bay.issues (d.bay c).streams (d.bay c).lastIssued) (fun _ _ => rfl)]
    exact hbays c hc

/-- A bay changes too, in what is neither its streams nor the order of issue. -/
theorem stepsTo_modBay (h : d.stepsTo e b i x g) (n : Nat) {f : Bay → Bay} (hf : ∀ v l y, f (Bay.issues v l y) = (f y).issues v l) :
    d.stepsTo (e.modBay n f) b i x (fun c z => if c = n then f (g c z) else g c z) := by
  have hstreams (y : Bay) : (f y).streams = y.streams := by
    have h := congrArg Bay.streams (hf y.streams y.lastIssued y)
    exact h
  have hlasts (y : Bay) : (f y).lastIssued = y.lastIssued := by
    have h := congrArg Bay.lastIssued (hf y.streams y.lastIssued y)
    exact h
  obtain ⟨hrest, hx, hlast, hothers, hbays⟩ := h
  refine stepsTo_of ?_ ?_ ?_ (fun c j hne => ?_) (fun c hc => ?_)
  · rw [withBays_modBay, hrest]
  · rw [Dev.stream_modBay e b i f hstreams, hx]
  · rw [bay_modBay_keeps Bay.lastIssued e n f hlasts, hlast]
  · rw [Dev.stream_modBay e c j f hstreams, hothers c j hne]
  · have hc' : (e.bay c).issues (d.bay c).streams (d.bay c).lastIssued = g c (d.bay c) := hbays c hc
    by_cases hcn : c = n
    · subst hcn
      rw [Dev.bay_modBay e hc, if_pos rfl, ← hc', hf]
    · rw [Dev.bay_modBay_ne e hcn, if_neg hcn, hc']

theorem stepsTo_congr {g' : Nat → Bay → Bay} (h : d.stepsTo e b i x g) (hg : ∀ c, g c (d.bay c) = g' c (d.bay c)) :
    d.stepsTo e b i x g' := by
  obtain ⟨hrest, hx, hlast, hothers, hbays⟩ := h
  exact stepsTo_of hrest hx hlast hothers (fun c hc => (hbays c hc).trans (hg c))

end

/-! ### BRANCH (R74, R99) -/

theorem stepsTo_jump (d : Dev) {b i : Nat} (hb : b < 64) (hi : i < 3) (word : W128) :
    d.stepsTo (d.jump (d.issued b i word)) b i
      { d.stream b i with state := .run, iptr := w32 (fld word.toNat 0 32), stall := !(d.stream b i).buffered (fld word.toNat 0 32) }
      (fun _ z => z) :=
  stepsTo_modStream (stepsTo_advance d hb hi) hb hi _

/-! ### CFG (R93, R100) -/

theorem cfgBody_good {t : TimeUnit} {j : Issue} {d : Dev} (hfield : fld j.w 64 3 < cfgFields (fld j.w 67 3))
    (hgood : cfgBad (fld j.w 67 3) (fld j.w 64 3) (fld j.w 0 64) = false) :
    cfgBody t j d = (d.advance j.b j.s).modStream j.b j.s
      (fun x => { x with shadow := cfgSet x.shadow (fld j.w 67 3) (fld j.w 64 3) (fld j.w 0 64) }) := by
  simp only [cfgBody, Nat.not_le.mpr hfield, hgood, Bool.false_eq_true, if_false]

/-- Settles O4: each of these issues, IPTR advances, and the issuing stream alone changes once more. -/
theorem sequencerInstructionsChangeOneStream : Obligations.SequencerInstructionsChangeOneStream := by
  intro s b i word h w x y jump
  have advanced := stepsTo_advance s.dev b.isLt i.isLt
  have jumped := stepsTo_jump s.dev b.isLt i.isLt word
  refine ⟨fun hop => ?nop, fun hop hmode => ?jump, fun hop hmode => ?loop, fun hop hmode => ?count, fun hop hfield hgood => ?cfg,
    fun hop => ?commit⟩
  case nop => exact ⟨_, run_issue h (by simp [hop, w]) (fun _ => nopBody), advanced⟩
  case jump => exact ⟨_, run_issue h (by simpa [hop, w] using hmode) (fun _ => jumpBody), jumped⟩
  case loop =>
    refine ⟨_, run_issue h (by simp [hop, hmode, w]) (fun _ => loopBody), ?_⟩
    by_cases hlc : vget 0 x.lc (fld w 32 2) = 0
    · rw [if_pos hlc, show loopBody (s.dev.issued b i word) s.dev = s.dev.advance b i from if_pos hlc]
      exact advanced
    · rw [if_neg hlc, show loopBody (s.dev.issued b i word) s.dev = _ from if_neg hlc]
      exact stepsTo_modStream jumped b.isLt i.isLt _
  case count =>
    exact ⟨_, run_issue h (by simp [hop, hmode, w]) (fun _ => setCountBody), stepsTo_modStream advanced b.isLt i.isLt _⟩
  case cfg =>
    refine ⟨_, run_issue h (by simp [hop, w]) cfgBody, ?_⟩
    rw [cfgBody_good (j := s.dev.issued b i word) hfield hgood]
    exact stepsTo_modStream advanced b.isLt i.isLt _
  case commit => exact ⟨_, run_issue h (by simp [hop, w]) (fun _ => commitBody), stepsTo_modStream advanced b.isLt i.isLt _⟩

/-! ### SYNC (R84, R85) -/

/-- Issue does not change whether a wait for tokens is met: the stream that issues waits for none. -/
theorem tokensMet_advance {d : Dev} {b i : Nat} (hb : b < 64) (hi : i < 3)
    (hstate : (d.stream b i).state = .run ∨ (d.stream b i).state = .waitUnit) {j : Nat} (hj : j < 3) :
    ((d.advance b i).bay b).tokensMet j = (d.bay b).tokensMet j := by
  have htokens : ((d.advance b i).bay b).tokens = (d.bay b).tokens := by rw [bay_advance d hb, Bay.issues]
  have hvoid : ((d.advance b i).bay b).void = (d.bay b).void := by rw [bay_advance d hb, Bay.issues]
  by_cases hji : j = i
  · subst hji
    have hx : ((d.advance b j).bay b).stream j = _ := stream_advance d hb hj
    have hold : (d.bay b).stream j = d.stream b j := rfl
    simp only [Bay.tokensMet, hx, hold, htokens, hvoid]
    rcases hstate with hs | hs
    · rw [hs]
    · rw [hs]
      rfl
  · have hx : ((d.advance b i).bay b).stream j = (d.bay b).stream j := stream_advance_ne d (Or.inr hji)
    simp only [Bay.tokensMet, hx, htokens, hvoid]

theorem nowMet_advance {d : Dev} {b i : Nat} {word : W128} (hb : b < 64) (hi : i < 3) (h : d.presents b i word = true) :
    ((d.advance b i).bay b).nowMet = (d.bay b).nowMet := by
  have hmet : ((d.advance b i).bay b).met = (d.bay b).met := by rw [bay_advance d hb, Bay.issues]
  unfold Bay.nowMet
  refine List.filter_congr (fun j hj => ?_)
  rw [hmet, tokensMet_advance hb hi (state_of_presents h) (List.mem_range.mp hj)]

theorem modBay_congr (d : Dev) {b : Nat} (hb : b < 64) {f g : Bay → Bay} (h : f (d.bay b) = g (d.bay b)) : d.modBay b f = d.modBay b g := by
  have hb' : vmod d.bays b f = vmod d.bays b g := by
    ext1 j hj
    simp only [vmod, Vector.getElem_ofFn]
    split
    · next he => subst he; rwa [Dev.bay, vget_lt _ _ hj] at h
    · rfl
  simp only [Dev.modBay, hb']

/-- SYNC CLEAR notes which waits were met before the tokens go (R84, R85). -/
theorem syncClearBody_presents {d : Dev} {b i : Nat} {word : W128} (hb : b < 64) (hi : i < 3) (h : d.presents b i word = true) :
    syncClearBody (d.issued b i word) d = (d.advance b i).modBay b (fun z =>
      { z with tokens := z.tokens &&& ~~~BitVec.ofNat 64 word.toNat, met := (d.bay b).nowMet }) := by
  have hmet := nowMet_advance hb hi h
  exact modBay_congr _ hb (congrArg (fun met => { (d.advance b i).bay b with
    tokens := ((d.advance b i).bay b).tokens &&& ~~~BitVec.ofNat 64 word.toNat, met := met }) hmet)

/-- SYNC RSET to a bay of the same partition sends the set (R84, R110). -/
theorem syncRsetBody_inside {t : TimeUnit} {j : Issue} {d : Dev} (hpart : j.part.isSome) (hsame : d.partOfBay (fld j.w 67 6) = j.part) :
    syncRsetBody t j d = (d.advance j.b j.s).modBay (fld j.w 67 6) (fun y => { y with rsetIn := y.rsetIn ++ [fld j.w 73 6] }) := by
  have hin : ¬(j.part.isNone = true ∨ d.partOfBay (fld j.w 67 6) ≠ j.part) := by simp [hsame, Option.isSome_iff_ne_none.mp hpart]
  exact if_neg hin

/-- Settles O5: each SYNC issues, and changes its bay's tokens, another bay's arriving sets, or its stream's wait. -/
theorem syncChangesTokensOrWaits : Obligations.SyncChangesTokensOrWaits := by
  intro s b i word h hop w x y mask waits unmet
  have advanced := stepsTo_advance s.dev b.isLt i.isLt
  have waiting {clear : Bool} (hclear : (fld w 64 3 == 3) = clear) :
      s.dev.stepsTo (syncWaitBody (s.dev.issued b i word) s.dev) b i (waits clear) unmet := by
    rw [← hclear]
    exact stepsTo_modStream (stepsTo_modBay advanced b (fun _ _ _ => rfl)) b.isLt i.isLt _
  refine ⟨fun hsel => ?set, fun hsel => ?clear, fun hsel => ?wait, fun hsel => ?waitClr, fun hsel hpart hsame => ?rset⟩
  case set =>
    exact ⟨_, run_issue h (by simp [hop, hsel, w]) (fun _ => syncSetBody), stepsTo_modBay advanced b (fun _ _ _ => rfl)⟩
  case clear =>
    refine ⟨_, run_issue h (by simp [hop, hsel, w]) (fun _ => syncClearBody), ?_⟩
    rw [syncClearBody_presents b.isLt i.isLt h]
    refine stepsTo_congr (stepsTo_modBay advanced b (fun _ _ _ => rfl)) (fun c => ?_)
    by_cases hc : c = b
    · subst hc; rfl
    · simp only [hc, if_false]
  case wait => exact ⟨_, run_issue h (by simp [hop, hsel, w]) (fun _ => syncWaitBody), waiting (by rw [hsel]; rfl)⟩
  case waitClr => exact ⟨_, run_issue h (by simp [hop, hsel, w]) (fun _ => syncWaitClrBody), waiting (by rw [hsel]; rfl)⟩
  case rset =>
    refine ⟨_, run_issue h (by simp [hop, hsel, w]) syncRsetBody, ?_⟩
    rw [syncRsetBody_inside (j := s.dev.issued b i word) hpart hsame]
    exact stepsTo_modBay advanced (fld w 67 6) (fun _ _ _ => rfl)

end Sys2Proof.Machine
end

section
/-! Proofs of the ends of waits and stalls, of remote sets that arrive, and of DEPART and END (R74, R79, R84, R85, R87 to R90, R188). -/

namespace Sys2Proof.Machine

/-! ### Waits end (R74, R84, R85, R89) -/

section

variable {t : TimeUnit} {d : Dev} {b i : Nat} {wt : Wait}

/-- The tokens that the end of a wait leaves (R84, R85). -/
def Wait.leaves (wt : Wait) (tokens : W64) : W64 := if wt.clear then tokens &&& ~~~wt.mask else tokens

/-- The end of a wait in its bay: a clearing wait clears its tokens (R84, R85, R89). -/
def Dev.endWait (b : Nat) (wt : Wait) (d : Dev) : Dev := if wt.clear then d.modBay b (fun y => y.clearTokens wt.mask false) else d

theorem endWait_mem (b : Nat) (wt : Wait) (d : Dev) : (d.endWait b wt).mem = d.mem := by
  unfold Dev.endWait
  split
  · exact Dev.modBay_mem _ _ _
  · rfl

theorem endWait_parts (b : Nat) (wt : Wait) (d : Dev) : (d.endWait b wt).parts = d.parts := by
  unfold Dev.endWait
  split
  · exact Dev.modBay_parts _ _ _
  · rfl

theorem stream_endWait (b : Nat) (wt : Wait) (d : Dev) (c j : Nat) : (d.endWait b wt).stream c j = d.stream c j := by
  unfold Dev.endWait
  split
  · exact Dev.stream_modBay d c j _ (fun _ => rfl)
  · rfl

theorem tokens_endWait (hb : b < 64) (wt : Wait) (d : Dev) : ((d.endWait b wt).bay b).tokens = wt.leaves (d.bay b).tokens := by
  unfold Dev.endWait Wait.leaves
  split
  · rw [Dev.bay_modBay d hb]; rfl
  · rfl

theorem tokens_modStream (d : Dev) (b i c : Nat) (f : Stream → Stream) : ((d.modStream b i f).bay c).tokens = (d.bay c).tokens :=
  bay_modStream_keeps Bay.tokens (fun _ _ => rfl) d b i f c

/-- A DEPART's occurrence is the one that it bound, where that is not cancelled (R89). -/
theorem departOcc_bound {o : Occ} (ho : wt.occ.bind d.occ = some o) (hc : o.cancelled = false) : departOcc b i t wt d = (some o, d) := by
  have hkept : (wt.occ.bind d.occ).filter (fun o => !o.cancelled) = some o := by rw [ho, Option.filter_some, hc]; rfl
  simp only [departOcc, hkept]

/-- A departing stream's wait ends, its station clock starts, and its occurrence alone changes too (R59, R70, R89, R91). -/
theorem departGo_form (b i : Nat) (t : TimeUnit) (wt : Wait) (o : Occ) (d : Dev) :
    ∃ g : Occ → Occ, departGo b i t wt o d =
      ((d.endWait b wt).modOcc o.key g).modStream b i (fun x => { x with state := .run, wait := none, clock := some t.now }) :=
  ⟨_, rfl⟩

theorem departGo_keeps (hb : b < 64) (hi : i < 3) (o : Occ) :
    (departGo b i t wt o d).stream b i = { d.stream b i with state := .run, wait := none, clock := some t.now } ∧
      ((departGo b i t wt o d).bay b).tokens = wt.leaves (d.bay b).tokens ∧ (departGo b i t wt o d).mem = d.mem := by
  obtain ⟨g, hform⟩ := departGo_form b i t wt o d
  rw [hform]
  refine ⟨?_, ?_, ?_⟩
  · rw [Dev.stream_modStream _ hb hi, Dev.modOcc, Dev.stream_modPart, stream_endWait]
  · rw [tokens_modStream, Dev.modOcc, Dev.bay_modPart, tokens_endWait hb]
  · rw [Dev.modStream_mem, Dev.modOcc, Dev.modPart_mem, endWait_mem]

section

variable (hrun : d.running = true) (hpaused : d.hold.paused = false) (hover : (d.bay b).waitOver i wt = true)
  (hclear : wt.clear = false ∨ d.clearBlocked t b i = false) (hwait : (d.stream b i).wait = some wt)
include hrun hpaused hover hclear hwait

/-- A DEPART whose conditions hold departs (R85, R89, R113). -/
theorem departRelease_due {o : Occ} (hstate : (d.stream b i).state = .waitDepart) (htime : d.timeOut = false)
    (hvoid : (d.bay b).voidIn wt.mask = none ∨ (wt.clear = false ∧ i ∈ (d.bay b).met)) (ho : wt.occ.bind d.occ = some o)
    (hcancelled : o.cancelled = false) (hslot : o.te.early = true ∨ d.depSlot o ≤ t.slot) :
    departRelease b i t d = departGo b i t wt o d := by
  have hmark : (if ((d.bay b).met.contains i && !wt.clear) = true then none else (d.bay b).voidIn wt.mask) = none := by
    rcases hvoid with hv | ⟨hc, hm⟩
    · rw [hv, ite_self]
    · rw [if_pos (by simp [hc, hm])]
  have hearly : ¬((!o.te.early) = true ∧ t.slot < d.depSlot o) := by
    rintro ⟨he, hs⟩
    rcases hslot with h | h
    · simp [h] at he
    · omega
  have hblocked : ¬(wt.clear = true ∧ d.clearBlocked t b i = true) := by
    rintro ⟨hc, hk⟩
    rcases hclear with h | h
    · simp [h] at hc
    · simp [h] at hk
  unfold departRelease
  simp only [hstate, hwait, hrun, hpaused, hmark, htime, departOcc_bound ho hcancelled, hover, Bool.not_true, Bool.or_self,
    Bool.false_eq_true, if_false, hearly, hblocked]

/-- A SYNC wait whose conditions hold ends (R84, R85). -/
theorem syncWaitEnd_due (hstate : (d.stream b i).state = .waitToken) :
    syncWaitEnd b i t d = (d.endWait b wt).modStream b i (fun x => { x with state := .run, wait := none }) := by
  have hgo : ¬(d.hold.paused = true ∨ (!d.running) = true ∨ (!(d.bay b).waitOver i wt) = true ∨
      (wt.clear = true ∧ d.clearBlocked t b i = true)) := by
    rintro (h | h | h | ⟨hc, hk⟩)
    · simp [hpaused] at h
    · simp [hrun] at h
    · simp [hover] at h
    · rcases hclear with h | h
      · simp [h] at hc
      · simp [h] at hk
  unfold syncWaitEnd
  simp only [hstate, hwait]
  rw [if_neg hgo]
  rfl

end

/-- A remote set that is on its way arrives outside a HOLD (R62, R84). -/
theorem rsetArrival_due {c : Nat} (hin : c ∈ (d.bay b).rsetIn) (hpaused : d.hold.paused = false) :
    rsetArrival b c d = d.modBay b (fun y => { (y.setToken c) with rsetIn := y.rsetIn.erase c }) := by
  simp [rsetArrival, hpaused, hin]

end

/-- Settles O6: each of these ends or arrives when its conditions hold. -/
theorem waitsEnd : Obligations.WaitsEnd := by
  intro s b i token x y
  refine ⟨fun wt o hstate hwait hrun hpaused htime hvoid ho hcancelled hover hslot hclear => ?depart,
    fun wt hstate hwait hrun hpaused hover hclear => ?sync, ?stall, fun hin hpaused => ?arrival⟩
  case depart =>
    exact ⟨_, run_of_eq (departRelease_due hrun hpaused hover hclear hwait hstate htime hvoid ho hcancelled hslot),
      departGo_keeps b.isLt i.isLt o⟩
  case sync =>
    refine ⟨_, run_of_eq (syncWaitEnd_due hrun hpaused hover hclear hwait hstate), ?_, ?_, ?_, ?_⟩
    · rw [Dev.stream_modStream _ b.isLt i.isLt, stream_endWait]
    · rw [tokens_modStream]
      exact tokens_endWait b.isLt wt s.dev
    · rw [Dev.modStream_mem, endWait_mem]
    · rw [Dev.modStream_parts, endWait_parts]
  case stall =>
    exact ⟨_, runDev_of_eq (g := branchStallEnd b i) rfl, Dev.stream_modStream s.dev b.isLt i.isLt _, Dev.modStream_mem _ _ _ _,
      Dev.modStream_parts _ _ _ _⟩
  case arrival =>
    exact ⟨_, runDev_of_eq (rsetArrival_due hin hpaused), Dev.bay_modBay s.dev b.isLt _, Dev.modBay_mem _ _ _, Dev.modBay_parts _ _ _⟩

/-! ### DEPART and END (R87 to R90, R188) -/

theorem closeOcc_mem (b i : Nat) (d : Dev) : (d.closeOcc b i).mem = d.mem := by
  unfold Dev.closeOcc
  split
  · rfl
  · rw [Dev.modStream_mem, Dev.modOcc, Dev.modPart_mem]

theorem closeOcc_timeOut (b i : Nat) (d : Dev) : (d.closeOcc b i).timeOut = d.timeOut := by
  unfold Dev.closeOcc
  split
  · rfl
  · rw [Dev.modStream_timeOut, Dev.modOcc, Dev.modPart_timeOut]

theorem stream_closeOcc (d : Dev) {b i : Nat} (hb : b < 64) (hi : i < 3) :
    (d.closeOcc b i).stream b i = { d.stream b i with occ := none } := by
  unfold Dev.closeOcc
  split
  · next h => rw [← h]
  · rw [Dev.stream_modStream _ hb hi, Dev.modOcc, Dev.stream_modPart]

/-- A new record of an occurrence joins its partition's, and changes nothing else. -/
theorem ensureOcc_keeps {d e : Dev} {q n k : Nat} {tt : Timetable} {o : Occ} (h : d.ensureOcc q tt n k = some (o, e)) (b i : Nat) :
    e.stream b i = d.stream b i ∧ e.mem = d.mem := by
  unfold Dev.ensureOcc at h
  split at h
  · contradiction
  · split at h
    · contradiction
    · split at h
      · obtain ⟨-, rfl⟩ := h
        exact ⟨rfl, rfl⟩
      · obtain ⟨-, rfl⟩ := h
        exact ⟨Dev.stream_modPart _ _ _ _ _, Dev.modPart_mem _ _ _⟩

section

variable {t : TimeUnit} {d : Dev} {j : Issue} {q k : Nat} {tt : Timetable} {te : TEntry} {o : Occ} {d2 : Dev}

/-- The device once stream `j.s` of bay `j.b` has bound an occurrence (R88, R89). -/
def Dev.bound (j : Issue) (o : Occ) (d : Dev) : Dev :=
  (d.modOcc o.key (fun o => { o with bound := setBit o.bound (j.b % 4), ctoken := some (o.ctoken.getD (fld j.w 64 6)) })).modStream
    j.b j.s (fun x => { (x.setFirstK o.key) with occ := some o.key })

/-- DEPART binds the earliest bindable occurrence of its entry (R87 to R89). -/
theorem departBind_binds (hentry : d.departEntry j.b j.s (fld j.w 70 14) j.part = some (q, tt, te))
    (hstep : d.bindable (d.stream j.b j.s) q tt (fld j.w 70 14) te = some k)
    (hocc : d.ensureOcc q tt (fld j.w 70 14) k = some (o, d2)) (htoken : o.bound = 0 ∨ o.ctoken = some (fld j.w 64 6)) :
    departBind t j d = (some o.key, d2.bound j o) := by
  have hfree : ¬(o.bound ≠ 0 ∧ o.ctoken ≠ some (fld j.w 64 6)) := by
    rintro ⟨h0, hc⟩
    exact htoken.elim h0 hc
  simp only [departBind, hentry, hstep, hocc]
  rw [if_neg hfree]
  rfl

/-- A DEPART that binds waits for its tokens and its occurrence (R89). -/
theorem departBody_binds (htime : (d.closeOcc j.b j.s).timeOut = false)
    (hbind : departBind t j (d.closeOcc j.b j.s) = (some o.key, d2)) :
    departBody t j d = departWait j (some o.key) (d2.advance j.b j.s) := by
  simp only [departBody, htime, Bool.false_eq_true, if_false, hbind]

/-- The stream of a DEPART that has bound an occurrence (R76, R88, R89). -/
theorem stream_departs (hb : j.b < 64) (hi : j.s < 3) (o : Occ) (d : Dev) :
    (departWait j (some o.key) ((d.bound j o).advance j.b j.s)).stream j.b j.s = { (d.stream j.b j.s).setFirstK o.key with
      occ := some o.key, state := .waitDepart, iptr := (d.stream j.b j.s).iptr + 1
      wait := some { mask := BitVec.ofNat 64 j.w, clear := bit j.w 84, occ := some o.key, ctoken := fld j.w 64 6, word := j.word } } := by
  have hbound : (d.bound j o).stream j.b j.s = { (d.stream j.b j.s).setFirstK o.key with occ := some o.key } := by
    rw [Dev.bound, Dev.stream_modStream _ hb hi, Dev.modOcc, Dev.stream_modPart]
  rw [departWait, Dev.stream_modStream _ hb hi, Dev.stream_modBay, stream_advance _ hb hi, hbound]
  · rfl
  · exact fun _ => rfl

theorem mem_departs (o : Occ) (d : Dev) : (departWait j (some o.key) ((d.bound j o).advance j.b j.s)).mem = d.mem := by
  rw [departWait, Dev.modStream_mem, Dev.modBay_mem, advance_mem, Dev.bound, Dev.modStream_mem, Dev.modOcc, Dev.modPart_mem]

end

/-- END leaves its stream IDLE, without an occurrence and without an open drain block (R90, R188). -/
theorem endBody_idles (d : Dev) {b i : Nat} (hb : b < 64) (hi : i < 3) (word : W128) :
    let e := endBody (d.issued b i word) d
    e.stream b i = { d.stream b i with
      occ := none, state := .idle, iptr := (d.stream b i).iptr + 1, wait := none, clock := none, stall := false } ∧
    vget none (e.bay b).openBlocks i = none ∧ e.parts = (d.closeOcc b i).parts ∧ e.mem = d.mem := by
  intro e
  have hform : e = ((((d.closeOcc b i).advance b i).modStream b i
      (fun x => { x with state := .idle, wait := none, clock := none, stall := false })).modBay b (·.discardOpen i)) := rfl
  rw [hform]
  refine ⟨?_, ?_, ?_, ?_⟩
  · rw [Dev.stream_modBay, Dev.stream_modStream _ hb hi, stream_advance _ hb hi, stream_closeOcc d hb hi]
    exact fun _ => rfl
  · rw [Dev.bay_modBay _ hb, Bay.discardOpen, vget_vmod_same _ _ hi]
  · rw [Dev.modBay_parts, Dev.modStream_parts, advance_parts]
  · rw [Dev.modBay_mem, Dev.modStream_mem, advance_mem, closeOcc_mem]

/-- Settles O7: DEPART binds and waits, END closes and idles. -/
theorem departBindsAndEndIdles : Obligations.DepartBindsAndEndIdles := by
  intro s b i word h w d1
  refine ⟨fun hop q k tt te o d2 htime hq htt hte hstream hnames hstep hocc htoken => ?depart, fun hop => ?idle⟩
  case depart =>
    let j := s.dev.issued b i word
    have hentry : d1.departEntry b i (fld w 70 14) (s.dev.partOfBay b) = some (q, tt, te) := by
      simp only [Dev.departEntry, hq, htt, hte, hstream, hnames, and_self, if_true]
    have hbody : departBody s.time j s.dev = departWait j (some o.key) ((d2.bound j o).advance j.b j.s) :=
      departBody_binds ((closeOcc_timeOut b i s.dev).trans htime) (departBind_binds hentry hstep hocc htoken)
    obtain ⟨hkept, hmem⟩ := ensureOcc_keeps hocc b i
    have hiptr : (d2.stream b i).iptr = (s.dev.stream b i).iptr := by rw [hkept, stream_closeOcc s.dev b.isLt i.isLt]
    have hx := stream_departs (j := j) b.isLt i.isLt o d2
    refine ⟨_, run_issue_of_eq h (by simp [hop, w]) hbody,
      congrArg (·.state) hx, congrArg (·.occ) hx, ?_, congrArg (·.wait) hx, ?_⟩
    · exact (congrArg (·.iptr) hx).trans (congrArg (· + 1) hiptr)
    · rw [mem_departs, hmem, closeOcc_mem]
  case idle =>
    obtain ⟨hx, hblock, hparts, hmem⟩ := endBody_idles s.dev b.isLt i.isLt word
    exact ⟨_, run_issue h (by simp [hop, w]) (fun _ => endBody), congrArg (·.state) hx, congrArg (·.occ) hx,
      congrArg (·.iptr) hx, hblock, hparts, hmem⟩

end Sys2Proof.Machine
end

section
/-! Proofs of the instructions that units take (R76, R80, R82, R83, R101, R103, R105, R107). -/

namespace Sys2Proof.Machine

/-! ### A unit takes what a stream presents (R78, R80) -/

/-- What a command does whose instruction a unit takes. -/
theorem run_taken {s : State} {b i : Nat} {word : W128} (h : s.dev.presents b i word = true) {mine : Nat → Bool}
    (hm : mine word.toNat = true) (body : TimeUnit → Issue → Dev → Dev) {j : Issue} {los : List Nat} {fault : Option FaultInfo}
    {start effect : Flight → Dev → Dev}
    (hbody : body s.time (s.dev.issued b i word) s.dev = s.dev.unitStart s.time j los fault start effect)
    (ht : s.dev.takes s.time j los fault = true) :
    s.run (fun t d => d.issue t b i mine (body t)) = .next (s.withDev (s.dev.taken s.time j los start effect)) :=
  run_issue_of_eq h hm (hbody.trans (unitStart_takes ht))

/-- Settles O8: each is issued, and its unit takes it. -/
theorem dataInstructionsAreTaken : Obligations.DataInstructionsAreTaken := by
  intro s b i word dry full wait h w d t j jm ml turnBook
  refine ⟨fun hop ht => run_taken h ?_ dloadBody rfl ht, fun hop ht => run_taken h ?_ moveBody rfl ht,
    fun hop ht => run_taken h ?_ mloadBody rfl ht, fun hop ht => run_taken h ?_ (mmulBody dry full wait) rfl ht,
    fun hop ht => run_taken h ?_ turnBody rfl ht⟩
  all_goals exact beq_iff_eq.mpr hop

/-- Settles O9: each is issued, and the vector engines take it. -/
theorem vectorInstructionsAreTaken : Obligations.VectorInstructionsAreTaken := by
  intro s b i word starve gap h w d t j j1 j2 still vl fl sl rl xl
  refine ⟨fun hop ht => run_taken h ?_ (vopBody starve) rfl ht, fun hop ht => run_taken h ?_ (vfuncBody starve) rfl ht,
    fun hop ht => run_taken h ?_ (vredBody starve) rfl ht, fun hop ht => run_taken h ?_ (vscanBody starve) rfl ht,
    fun hop ht => run_taken h ?_ (vpermBody starve) rfl ht, fun hop ht => run_taken h ?_ (rmsnBody starve gap) rfl ht,
    fun hop ht => run_taken h ?_ (smaxBody starve gap) rfl ht⟩
  all_goals exact beq_iff_eq.mpr hop

theorem quantBody_stores {j : Issue} (h : fld j.w 18 2 ≠ 2) (t : TimeUnit) (d : Dev) :
    quantBody t j d = d.unitStart t j [0, 9] (quantFault j d) (bookStart 0 t j.b) (quantEffect t j) := if_neg h

theorem quantBody_amaxOnly {j : Issue} (h : fld j.w 18 2 = 2) (t : TimeUnit) (d : Dev) :
    quantBody t j d = d.unitStart t j [9] (quantFault j d) (fun _ d => d) (quantEffect t j) := if_pos h

/-- Settles O10: each is issued, and its unit takes it. -/
theorem otherUnitInstructionsAreTaken : Obligations.OtherUnitInstructionsAreTaken := by
  intro s b i word h w d t j still book coll
  refine ⟨fun hop => ⟨fun ht => ⟨fun hsel => ?narrow, fun hsel => ?stash⟩, fun ht hsel => ?amax⟩,
    fun hop ht => ⟨fun hsel => run_taken h ?_ routeTopkBody rfl ht, fun hsel => run_taken h ?_ routeGatherBody rfl ht,
      fun hsel => run_taken h ?_ routeCombineBody rfl ht⟩,
    fun hop ht => ⟨fun hsel => run_taken h ?_ collAllReduceBody rfl ht, fun hsel => run_taken h ?_ collReduceScatterBody rfl ht,
      fun hsel => run_taken h ?_ collAllGatherBody rfl ht, fun hsel => run_taken h ?_ collBroadcastBody rfl ht,
      fun hsel => run_taken h ?_ collSendBody rfl ht, fun hsel => run_taken h ?_ collReceiveBody rfl ht⟩,
    fun hop ht => run_taken h (by simp [hop, w]) updBody rfl ht,
    fun hop ht => ⟨fun hsel => run_taken h ?_ sealComputeBody rfl ht, fun hsel => run_taken h ?_ sealVerifyBody rfl ht⟩⟩
  case narrow =>
    have hmode : fld w 18 2 ≠ 2 := by omega
    exact run_taken h (by simpa [hop, w] using hsel) quantBody (quantBody_stores (j := j) hmode t d) ht
  case stash =>
    have hmode : fld w 18 2 ≠ 2 := by omega
    exact run_taken h (by simp [hop, hsel, w]) quantBody (quantBody_stores (j := j) hmode t d) ht
  case amax => exact run_taken h (by simp [hop, hsel, w]) quantBody (quantBody_amaxOnly (j := j) hsel t d) ht
  all_goals simp [hop, hsel, w]

end Sys2Proof.Machine
end

section
/-! What the tile registers hold after cells have been written, and what an instruction leaves that nothing makes wait (R80, R97, R223, R321,
R349). -/

namespace Sys2Proof.Machine

/-! ### Tile registers (R97, R349) -/

/-- Where a tile register's cell stands among all cells. -/
def cellKey (n r c : Nat) : Nat := 4096 * n + 64 * r + c

theorem cellKey_inj {n r c n' r' c' : Nat} (hr : r < 64) (hc : c < 64) (hr' : r' < 64) (hc' : c' < 64)
    (h : cellKey n r c = cellKey n' r' c') : n = n' ∧ r = r' ∧ c = c' := by
  unfold cellKey at h
  omega

/-- A cell with the poison of its halves. -/
def Bay.spot (y : Bay) (k : Nat) : W32 × Bool × Bool := (tabGet 0 y.tiles k, y.tilePoison.contains (2 * k), y.tilePoison.contains (2 * k + 1))

theorem Bay.cell_spot (y : Bay) (n r c : Nat) : y.cell n r c = (y.spot (cellKey n r c)).1 := rfl

theorem Bay.halfPoison_spot (y : Bay) (n r c : Nat) {h : Nat} (hh : h < 2) :
    y.halfPoison n r c h = if h = 0 then (y.spot (cellKey n r c)).2.1 else (y.spot (cellKey n r c)).2.2 := by
  obtain rfl | rfl : h = 0 ∨ h = 1 := by omega
  · rfl
  · rfl

theorem Bay.spot_setCell (y : Bay) (n r c : Nat) (v : W32) (p0 p1 : Bool) (k : Nat) :
    (y.setCell n r c v p0 p1).spot k = if k = cellKey n r c then (v, p0, p1) else y.spot k := by
  have hkey : 4096 * n + 64 * r + c = cellKey n r c := rfl
  have hodd : 2 * k ≠ 2 * cellKey n r c + 1 := by omega
  have heven : 2 * k + 1 ≠ 2 * cellKey n r c := by omega
  simp only [Bay.spot, Bay.setCell, tabGet_tabSet, contains_setPut, hkey, hodd, heven, if_false]
  by_cases h : k = cellKey n r c
  · simp only [h, if_true]
  · have h0 : 2 * k ≠ 2 * cellKey n r c := by omega
    have h1 : 2 * k + 1 ≠ 2 * cellKey n r c + 1 := by omega
    simp only [h, h0, h1, if_false]

theorem spot_modBay (d : Dev) (n : Nat) {f : Bay → Bay} {k : Nat} (hf : ∀ y, (f y).spot k = y.spot k) (b : Nat) :
    ((d.modBay n f).bay b).spot k = (d.bay b).spot k := bay_modBay_keeps (Bay.spot · k) d n f hf b

theorem spot_modStream (d : Dev) (n i : Nat) (f : Stream → Stream) (b k : Nat) : ((d.modStream n i f).bay b).spot k = (d.bay b).spot k :=
  bay_modStream_keeps (Bay.spot · k) (fun _ _ => rfl) d n i f b

theorem spot_modFlight (y : Bay) (id : Nat) (g : Flight → Flight) (k : Nat) : (y.modFlight id g).spot k = y.spot k := rfl

section

/-! A fold in which each item `a` writes `val a` to the cell at `pos a`. -/

variable {α : Type} {g : Bay → α → Bay} {pos : α → Nat} {val : α → W32 × Bool × Bool}
  (hg : ∀ (y : Bay) (a : α) (k : Nat), (g y a).spot k = if k = pos a then val a else y.spot k)
include hg

theorem spot_foldl_untouched {k : Nat} {l : List α} (h : ∀ a ∈ l, pos a ≠ k) (y : Bay) : (l.foldl g y).spot k = y.spot k := by
  induction l generalizing y with
  | nil => rfl
  | cons a rest ih =>
    rw [List.foldl_cons, ih (fun x hx => h x (List.mem_cons_of_mem _ hx)), hg, if_neg (h a List.mem_cons_self).symm]

theorem spot_foldl_written {k : Nat} {v : W32 × Bool × Bool} {l : List α} (hin : ∃ a ∈ l, pos a = k) (hval : ∀ a ∈ l, pos a = k → val a = v)
    (y : Bay) : (l.foldl g y).spot k = v := by
  induction l generalizing y with
  | nil => simp at hin
  | cons a rest ih =>
    rw [List.foldl_cons]
    by_cases hrest : ∃ x ∈ rest, pos x = k
    · exact ih hrest (fun x hx => hval x (List.mem_cons_of_mem _ hx)) _
    · have hlast : pos a = k := by
        obtain ⟨x, hx, hk⟩ := hin
        rcases List.mem_cons.mp hx with rfl | hx
        · exact hk
        · exact absurd ⟨x, hx, hk⟩ hrest
      rw [spot_foldl_untouched hg (fun x hx hk => hrest ⟨x, hx, hk⟩), hg, if_pos hlast.symm, hval a List.mem_cons_self hlast]

end

/-! ### Operands that name tiles (R97, R110) -/

theorem firstFault_none {fs : List (Option FaultInfo)} (h : firstFault fs = none) : ∀ f ∈ fs, f = none := by
  simpa [firstFault, List.findSome?_eq_none_iff] using h

/-- A tile operand that the sequencer does not refuse is one of the 16 tile registers. -/
theorem tile_lt_of_noFault {j : Issue} {los : List Nat} {lo : Nat} (h : j.tilesFault los = none) (hlo : lo ∈ los) (ht : fld j.w lo 9 < 256) :
    fld j.w lo 9 < 16 := by
  have hgood : j.tileBad lo = false := by
    simp only [Issue.tilesFault, Option.map_eq_none_iff, List.find?_eq_none] at h
    simpa using h lo hlo
  have hhigh : fld j.w (lo + 4) 4 = 0 := by simpa [Issue.tileBad, ht] using hgood
  simp only [fld, Nat.shiftRight_add, Nat.shiftRight_eq_div_pow _ 4] at hhigh ht ⊢
  omega

theorem flight_opd_tile {j : Issue} {lo : Nat} (h : fld j.word.toNat lo 9 < 16) (y : Bay) (step : W64) (los : List Nat) :
    (j.flight y step los).opd lo = .tile (fld j.word.toNat lo 9) := by
  unfold Flight.opd
  exact (if_pos (show fld j.word.toNat lo 9 < 256 by omega)).trans (congrArg Opd.tile (Nat.mod_eq_of_lt h))

/-! ### Units begin and finish (R80) -/

/-- What the units' beginning leaves of every flight. -/
theorem beginFlights_all {p : Flight → Prop} (hp : ∀ f, p f → p { f with begun := true }) {ahead l : List Flight} (ha : ∀ f ∈ ahead, p f)
    (hl : ∀ f ∈ l, p f) : ∀ f ∈ beginFlights ahead l, p f := by
  induction l generalizing ahead with
  | nil => exact ha
  | cons f rest ih =>
    have hf := hl f List.mem_cons_self
    refine ih (fun x hx => ?_) (fun x hx => hl x (List.mem_cons_of_mem _ hx))
    rcases List.mem_append.mp hx with hx | hx
    · exact ha x hx
    · rw [List.mem_singleton.mp hx]
      split
      · exact hp f hf
      · exact hf

theorem beginNext_all {p : Flight → Prop} (hp : ∀ f, p f → p { f with begun := true }) {y : Bay} (h : ∀ f ∈ y.flights, p f) :
    ∀ f ∈ y.beginNext.flights, p f := beginFlights_all hp (fun _ hf => absurd hf List.not_mem_nil) h

/-- Effects keep the order of a queue, and wait behind nothing where nothing waits (R80, R302). -/
theorem behindParked_none {y : Bay} (h : ∀ f ∈ y.flights, f.parked = false) (id : Nat) : y.behindParked id = false := by
  unfold Bay.behindParked
  split
  · rfl
  · simp only [List.any_eq_false, Bool.and_eq_true, not_and, Flight.waits]
    intro g hg _
    simp [h g ((List.takeWhile_sublist _).subset hg)]

/-! ### An instruction that nothing makes wait (R80, R321) -/

/-- The device once an instruction stands in its unit's queue, or has left it for its unit (R76, R80, R83). -/
def Dev.entered (j : Issue) (los : List Nat) (d : Dev) : Dev :=
  (d.advance j.b j.s).modBay j.b (fun y =>
    ({ y with flights := y.flights ++ [j.flight (d.bay j.b) d.step los], nextId := y.nextId + 1 } : Bay).beginNext)

/-- Alike in memory, and in what a job has asked for that could make it wait (R302, R312). -/
def Dev.asksLike (d e : Dev) : Prop := e.mem = d.mem ∧ e.owed = d.owed ∧ e.stall = d.stall ∧ e.late = d.late

theorem Dev.asksLike.trans {d e e' : Dev} (h : d.asksLike e) (h' : e.asksLike e') : d.asksLike e' := by
  obtain ⟨hm, ho, hs, hl⟩ := h
  obtain ⟨hm', ho', hs', hl'⟩ := h'
  exact ⟨hm'.trans hm, ho'.trans ho, hs'.trans hs, hl'.trans hl⟩

theorem asksLike_modBay (d : Dev) (b : Nat) (f : Bay → Bay) : d.asksLike (d.modBay b f) :=
  ⟨Dev.modBay_mem .., Dev.modBay_owed .., Dev.modBay_stall .., Dev.modBay_late ..⟩

theorem asksLike_finish (d : Dev) (b id : Nat) : d.asksLike (d.finish b id) := asksLike_modBay d b _

/-- A device about to have a job's effect, with nothing noted that makes the job wait (R302, R312). -/
def Dev.calm (d : Dev) : Dev := { d with stall := [], late := 0 }

@[simp] theorem calm_mem (d : Dev) : d.calm.mem = d.mem := rfl

@[simp] theorem calm_owed (d : Dev) : d.calm.owed = d.owed := rfl

@[simp] theorem calm_bay (d : Dev) (b : Nat) : d.calm.bay b = d.bay b := rfl

section

variable {t : TimeUnit} {d : Dev} {j : Issue} {los : List Nat}

theorem entered_mem : (d.entered j los).mem = d.mem := by rw [Dev.entered, Dev.modBay_mem, advance_mem]

theorem entered_owed : (d.entered j los).owed = d.owed := by
  rw [Dev.entered, Dev.modBay_owed, Dev.advance, Dev.modBay_owed, Dev.modStream_owed]

/-- What an effect leaves that asks for nothing, as its instruction has entered its queue. -/
theorem entered_asksLike {e : Dev} (h : (d.entered j los).calm.asksLike e) (howed : d.owed = []) :
    e.mem = d.mem ∧ e.owed = [] ∧ e.stall = [] ∧ e.late = 0 := by
  obtain ⟨hm, ho, hs, hl⟩ := h
  exact ⟨hm.trans ((calm_mem _).trans entered_mem), ho.trans ((calm_owed _).trans (entered_owed.trans howed)), hs, hl⟩

theorem spot_entered (c k : Nat) : ((d.entered j los).bay c).spot k = (d.bay c).spot k := by
  rw [Dev.entered, spot_modBay, Dev.advance, spot_modBay, spot_modStream]
  · exact fun _ => rfl
  · exact fun _ => rfl

theorem notParked_entered (hb : j.b < 64) (h : (d.bay j.b).flights.all (fun f => !f.parked) = true) :
    ∀ f ∈ ((d.entered j los).bay j.b).flights, f.parked = false := by
  have hflights : ((d.advance j.b j.s).bay j.b).flights = (d.bay j.b).flights := by rw [bay_advance d hb, Bay.issues]
  rw [Dev.entered, Dev.bay_modBay _ hb]
  refine beginNext_all (p := fun f => f.parked = false) (fun _ hf => hf) ?_
  simp only [hflights, List.mem_append, List.mem_singleton]
  rintro f (hf | rfl)
  · simpa using List.all_eq_true.mp h f hf
  · rfl

/-- An instruction whose effect asks for nothing that makes it wait, with none before it that waits, has its effect as it issues: memory
and the tiles of its bay are then as the effect leaves them. -/
theorem taken_now {effect : Flight → Dev → Dev} {e : Dev} (hb : j.b < 64) (hp : (d.bay j.b).flights.all (fun f => !f.parked) = true)
    (howed : d.owed = []) (he : effect (j.flight (d.bay j.b) d.step los) (d.entered j los).calm = e)
    (hask : (d.entered j los).calm.asksLike e) {d' : Dev} (hd : d.taken t j los (fun _ d => d) effect = d') :
    d'.mem = d.mem ∧ ∀ k, (d'.bay j.b).spot k = (e.bay j.b).spot k := by
  obtain ⟨hmem, howed', hstall, hlate⟩ := entered_asksLike hask howed
  have hbehind := behindParked_none (notParked_entered (los := los) hb hp) (j.flight (d.bay j.b) d.step los).id
  have hattempt : (d.entered j los).attempt t Await.none (fun _ => effect (j.flight (d.bay j.b) d.step los)) = (none, e.calm) := by
    refine attempt_done (Nat.zero_le _) ?_ hstall (by omega)
    exact (congrArg (Dev.flushOwed t) he).trans (flushOwed_nothing howed')
  have htaken : d.taken t j los (fun _ d => d) effect = (d.entered j los).runEffect t j.b (j.flight (d.bay j.b) d.step los).id Await.none
      (effect (j.flight (d.bay j.b) d.step los)) := rfl
  rw [← hd, htaken, Dev.runEffect, hbehind, hattempt]
  refine ⟨(Dev.modBay_mem ..).trans ((calm_mem e).trans hmem), fun k => ?_⟩
  exact (spot_modBay e.calm j.b (fun y => spot_modFlight y _ _ k) j.b).trans (congrArg (Bay.spot · k) (calm_bay e j.b))

end

end Sys2Proof.Machine
end

section
/-! Proofs of TURN and of VOP's integer operations over tile registers (R97, R142, R203, R210, R212, R223). -/

namespace Sys2Proof.Machine

/-- Poison of a whole cell. -/
def poisoned (v : W32 × Bool × Bool) : Bool := v.2.1 || v.2.2

theorem Bay.cellPoison_spot (y : Bay) (n r c : Nat) : y.cellPoison n r c = poisoned (y.spot (cellKey n r c)) := rfl

/-- A cell and its halves' poison, where the whole cell is known. -/
theorem cell_of_spot {y : Bay} {n r c h : Nat} {v : W32} {p : Bool} (hs : y.spot (cellKey n r c) = (v, p, p)) (hh : h < 2) :
    y.cell n r c = v ∧ y.halfPoison n r c h = p := by
  rw [Bay.cell_spot, Bay.halfPoison_spot _ _ _ _ hh, hs]
  exact ⟨rfl, ite_self p⟩

/-- A cell that two bays hold alike. -/
theorem cell_of_spot_eq {y z : Bay} {n r c h : Nat} (hs : z.spot (cellKey n r c) = y.spot (cellKey n r c)) (hh : h < 2) :
    z.cell n r c = y.cell n r c ∧ z.halfPoison n r c h = y.halfPoison n r c h := by
  rw [Bay.cell_spot, Bay.cell_spot, Bay.halfPoison_spot _ _ _ _ hh, Bay.halfPoison_spot _ _ _ _ hh, hs]
  exact ⟨rfl, rfl⟩

theorem w32_toNat (x : W32) : w32 x.toNat = x := by simp [w32]

/-! ### What a finished effect leaves of the tiles -/

theorem spot_turned (y : Bay) (e0 e1 : Nat) (code : Nat → Nat × Bool) (k : Nat) : (y.turned e0 e1 code).spot k = y.spot k := by
  rw [Bay.turned, Bay.spot, Bay.spot]

theorem spot_finish (b id : Nat) (d : Dev) (c k : Nat) : ((d.finish b id).bay c).spot k = (d.bay c).spot k := by
  rw [Dev.finish, spot_modBay]
  exact fun y => spot_modFlight y id _ k

/-! ### TURN (R142) -/

/-- The bits of element `k` of a tile in row order, with their poison (R142). -/
def Bay.code (y : Bay) (n k : Nat) : Nat × Bool := ((y.cell n (k / 64) (k % 64)).toNat, y.cellPoison n (k / 64) (k % 64))

/-- What TURN puts at place `k` of a tile. -/
def turnedCell (y : Bay) (n k : Nat) : Nat × Bool := y.code n (k / 64 + 64 * (k % 64))

/-- In bay `z` tile `m` is the mirror of tile `n` as bay `y` holds it, and the other tiles are as `y` holds them. -/
def Bay.mirrored (m n : Nat) (y z : Bay) : Prop :=
  ∀ r c, r < 64 → c < 64 → z.spot (cellKey m r c) = (y.cell n c r, y.cellPoison n c r, y.cellPoison n c r) ∧
    ∀ k, k ≠ m → z.spot (cellKey k r c) = y.spot (cellKey k r c)

theorem Bay.mirrored.congr {m n : Nat} {y y' z z' : Bay} (h : y.mirrored m n z) (hy : ∀ k, y.spot k = y'.spot k)
    (hz : ∀ k, z'.spot k = z.spot k) : y'.mirrored m n z' := by
  intro r c hr hc
  obtain ⟨hto, hother⟩ := h r c hr hc
  simp only [Bay.cell_spot, Bay.cellPoison_spot, hy] at hto hother ⊢
  exact ⟨(hz _).trans hto, fun k hk => (hz _).trans (hother k hk)⟩

section

variable {t : TimeUnit} {j : Issue} {f : Flight} {d : Dev} {m n : Nat}

/-- TURN of a tile into a tile without quantising (R142). -/
theorem turnEffect_tiles (hrq : bit j.w 18 = false) (hsrc : f.opd 9 = .tile n) (hdst : f.opd 0 = .tile m) :
    turnEffect t j f d = ((d.modBay j.b (fun z => z.turned 64 64 ((d.bay j.b).code n))).modBay j.b (fun z =>
      z.setCells m ((upTo 4096).map (fun k => (k / 64, k % 64, turnedCell (d.bay j.b) n k))))).finish j.b f.id := by
  simp only [turnEffect, hrq, hsrc, hdst, Bool.false_eq_true, if_false]
  rfl

/-- A tile after TURN has written it. -/
theorem spot_setTurned {y z : Bay} {r c : Nat} (hr : r < 64) (hc : c < 64) :
    (z.setCells m ((upTo 4096).map (fun k => (k / 64, k % 64, turnedCell y n k)))).spot (cellKey m r c) =
      (y.cell n c r, y.cellPoison n c r, y.cellPoison n c r) := by
  have hmirror : (64 * r + c) / 64 + 64 * ((64 * r + c) % 64) = 64 * c + r := by omega
  have hval : turnedCell y n (64 * r + c) = ((y.cell n c r).toNat, y.cellPoison n c r) := by
    rw [turnedCell, hmirror, Bay.code, show (64 * c + r) / 64 = c by omega, show (64 * c + r) % 64 = r by omega]
  rw [Bay.setCells, List.foldl_map]
  refine spot_foldl_written (pos := fun k => cellKey m (k / 64) (k % 64)) (val := fun k => (w32 (turnedCell y n k).1, (turnedCell y n k).2,
    (turnedCell y n k).2)) (fun y k key => Bay.spot_setCell y m _ _ _ _ _ key) ⟨64 * r + c, ?_, ?_⟩ (fun k hk hkey => ?_) z
  · exact List.mem_range.mpr (by omega)
  · rw [show (64 * r + c) / 64 = r by omega, show (64 * r + c) % 64 = c by omega]
  · have hk : k < 4096 := List.mem_range.mp hk
    obtain ⟨-, hrow, hcol⟩ := cellKey_inj (by omega) (by omega) hr hc hkey
    rw [show k = 64 * r + c by omega, hval, w32_toNat]

theorem spot_setTurned_ne {y z : Bay} {k r c : Nat} (hr : r < 64) (hc : c < 64) (hk : k ≠ m) :
    (z.setCells m ((upTo 4096).map (fun i => (i / 64, i % 64, turnedCell y n i)))).spot (cellKey k r c) = z.spot (cellKey k r c) := by
  rw [Bay.setCells, List.foldl_map]
  refine spot_foldl_untouched (pos := fun i => cellKey m (i / 64) (i % 64)) (val := fun i => (w32 (turnedCell y n i).1, (turnedCell y n i).2,
    (turnedCell y n i).2)) (fun y i key => Bay.spot_setCell y m _ _ _ _ _ key) (fun i hi hkey => ?_) z
  have hi : i < 4096 := List.mem_range.mp hi
  obtain ⟨hm, -, -⟩ := cellKey_inj (by omega) (by omega) hr hc hkey
  exact hk hm.symm

theorem turned_tiles (hb : j.b < 64) (hrq : bit j.w 18 = false) (hsrc : f.opd 9 = .tile n) (hdst : f.opd 0 = .tile m) {e : Dev}
    (he : turnEffect t j f d = e) : d.asksLike e ∧ (d.bay j.b).mirrored m n (e.bay j.b) := by
  rw [turnEffect_tiles hrq hsrc hdst] at he
  subst he
  refine ⟨((asksLike_modBay ..).trans (asksLike_modBay ..)).trans (asksLike_finish ..), fun r c hr hc => ⟨?_, fun k hk => ?_⟩⟩
  · rw [spot_finish, Dev.bay_modBay _ hb, spot_setTurned hr hc]
  · rw [spot_finish, Dev.bay_modBay _ hb, spot_setTurned_ne hr hc hk, spot_modBay]
    exact fun y => spot_turned y _ _ _ _

end

/-- A TURN that is not refused names tile registers where it names tiles (R97, R110). -/
theorem turnFault_tile {j : Issue} {d : Dev} (h : (turnFault j d).isNone = true) {lo : Nat} (hlo : lo ∈ [0, 9]) (ht : fld j.w lo 9 < 256) :
    fld j.w lo 9 < 16 := by
  have hall := firstFault_none (Option.isNone_iff_eq_none.mp h)
  exact tile_lt_of_noFault (hall _ List.mem_cons_self) hlo ht

theorem noFault_of_takes {t : TimeUnit} {d : Dev} {j : Issue} {los : List Nat} {fault : Option FaultInfo} (h : d.takes t j los fault = true) :
    fault.isNone = true := by
  simp only [Dev.takes, Bool.and_eq_true] at h
  exact h.2

theorem turnBody_plain {i : Issue} (h : bit i.w 18 = false) (t : TimeUnit) (d : Dev) :
    turnBody t i d = d.unitStart t i [0, 9] (turnFault i d) (fun _ d => d) (turnEffect t i) := by
  simp only [turnBody, h, Bool.false_eq_true, if_false]

/-- A TURN that its unit takes, with nothing before it that waits, mirrors the tile at once (R142). -/
theorem taken_turn {t : TimeUnit} {d : Dev} {j : Issue} {m n : Nat} (hb : j.b < 64) (hrq : bit j.w 18 = false)
    (hsrc : (j.flight (d.bay j.b) d.step [0, 9]).opd 9 = .tile n) (hdst : (j.flight (d.bay j.b) d.step [0, 9]).opd 0 = .tile m)
    (hp : (d.bay j.b).flights.all (fun f => !f.parked) = true) (howed : d.owed = []) {d' : Dev}
    (hd : d.taken t j [0, 9] (fun _ d => d) (turnEffect t j) = d') : d'.mem = d.mem ∧ (d.bay j.b).mirrored m n (d'.bay j.b) := by
  generalize he : turnEffect t j (j.flight (d.bay j.b) d.step [0, 9]) (d.entered j [0, 9]).calm = e
  obtain ⟨hask, hcells⟩ := turned_tiles hb hrq hsrc hdst he
  obtain ⟨hmem, hspot⟩ := taken_now hb hp howed he hask hd
  rw [calm_bay] at hcells
  exact ⟨hmem, hcells.congr (spot_entered j.b) hspot⟩

/-- Settles O59: the unit takes TURN at once, and its effect mirrors the tile. -/
theorem turnMirrorsATile : Obligations.TurnMirrorsATile := by
  intro s b i word h w d j m n hop hrq hm hn htakes hparked howed
  have hm16 : m < 16 := turnFault_tile (j := j) (noFault_of_takes htakes) (by simp) hm
  have hn16 : n < 16 := turnFault_tile (j := j) (noFault_of_takes htakes) (by simp) hn
  have hdst := flight_opd_tile (j := j) hm16 (d.bay b) d.step [0, 9]
  have hsrc := flight_opd_tile (j := j) hn16 (d.bay b) d.step [0, 9]
  have hrun := run_taken h (mine := fun w => opc w == 0x40) (beq_iff_eq.mpr hop) turnBody
    (turnBody_plain (i := j) hrq s.time d) htakes
  generalize hd' : d.taken s.time j [0, 9] (fun _ d => d) (turnEffect s.time j) = d' at hrun
  obtain ⟨hmem, hcells⟩ := taken_turn (j := j) b.isLt hrq hsrc hdst hparked howed hd'
  refine ⟨d', hrun, hmem, fun r c p hr hc hp => ?_⟩
  obtain ⟨hto, hother⟩ := hcells r c hr hc
  exact ⟨(cell_of_spot hto hp).1, (cell_of_spot hto hp).2, fun k hk => cell_of_spot_eq (hother k hk) hp⟩

end Sys2Proof.Machine
end

section
/-! Proof of VOP's integer operations over tile registers (R203, R204, R210, R212, R223). -/

namespace Sys2Proof.Machine

/-! ### Cycles charged to an occurrence (R226) -/

/-- Charging cycles changes no more than the partitions' occurrences. -/
theorem chargeCycles_form (code index n : Nat) (occ : Option OccKey) (d : Dev) :
    ∃ ps, d.chargeCycles code index n occ = { d with parts := ps } := by
  unfold Dev.chargeCycles Dev.draw
  split
  · split
    · exact ⟨d.parts, rfl⟩
    · exact ⟨_, rfl⟩
  · exact ⟨d.parts, rfl⟩

theorem chargeCycles_keeps {code index n : Nat} {occ : Option OccKey} {d e : Dev} (h : d.chargeCycles code index n occ = e) :
    d.asksLike e ∧ ∀ c, e.bay c = d.bay c := by
  obtain ⟨ps, hps⟩ := chargeCycles_form code index n occ d
  rw [← h, hps]
  exact ⟨⟨rfl, rfl, rfl, rfl⟩, fun _ => rfl⟩

/-! ### Integer operations (R210, R212) -/

/-- The shape of VOP's integer operations of two sources. -/
def intShape : VShape := { uses := 3, src := .int, dst := .int, pack := false }

/-- VOP's integer operations of two sources that do not shift, select or convert. -/
def wordOps : List Nat := [0x40, 0x41, 0x42, 0x45, 0x46, 0x47, 0x4B, 0x4C]

/-- What an integer operation makes of two words. -/
def wordOp (op : Nat) (x y : W32) : W32 :=
  if op = 0x40 then x + y else if op = 0x41 then x - y else if op = 0x42 then x * y else if op = 0x45 then x &&& y
  else if op = 0x46 then x ||| y else if op = 0x47 then x ^^^ y
  else if op = 0x4B then (if y.slt x then 1 else 0) else (if x = y then 1 else 0)

theorem vopShape_wordOp {op : Nat} (h : op ∈ wordOps) : vopShape op = some intShape := by
  revert op
  decide

theorem sx_toInt (x : W32) : sx 32 x.toNat = x.toInt := by
  have hx : x.toNat < 2 ^ 32 := x.isLt
  rw [BitVec.toInt_eq_toNat_cond, sx, Nat.mod_eq_of_lt hx]
  split <;> split <;> omega

theorem w32_b2n (b : Bool) : w32 (b2n b) = if b then 1 else 0 := by
  cases b
  · rfl
  · rfl

/-- The model's arithmetic on numbers is that of 32-bit words. -/
theorem w32_vopInt {op : Nat} (h : op ∈ wordOps) (x y : W32) (i0 : Nat) : w32 (vopInt op x.toNat y.toNat i0) = wordOp op x y := by
  have hy : y.toNat < 2 ^ 32 := y.isLt
  simp only [wordOps, List.mem_cons, List.not_mem_nil, or_false] at h
  rcases h with rfl | rfl | rfl | rfl | rfl | rfl | rfl | rfl
  · exact BitVec.eq_of_toNat_eq (by simp [w32, vopInt, wordOp])
  · apply BitVec.eq_of_toNat_eq
    simp [w32, vopInt, wordOp, BitVec.toNat_sub]
    omega
  · exact BitVec.eq_of_toNat_eq (by simp [w32, vopInt, wordOp])
  · exact BitVec.eq_of_toNat_eq (by simp [w32, vopInt, wordOp])
  · exact BitVec.eq_of_toNat_eq (by simp [w32, vopInt, wordOp])
  · exact BitVec.eq_of_toNat_eq (by simp [w32, vopInt, wordOp])
  · simp [vopInt, wordOp, w32_b2n, sx_toInt, BitVec.slt]
  · simp [vopInt, wordOp, w32_b2n, BitVec.toNat_inj]

/-! ### The present region of a tile (R203, R204) -/

/-- Write the present region of tile `m`, column by column of each row, with what `val` gives for a cell. -/
def Bay.regionWritten (m vl : Nat) (val : Nat → Nat → W32 × Bool) (y : Bay) : Bay :=
  (upTo (64 * vl)).foldl (fun y e => y.setCell m (e / vl) (e % vl) (val (e / vl) (e % vl)).1 (val (e / vl) (e % vl)).2
    (val (e / vl) (e % vl)).2) y

section

variable {m vl : Nat} {val : Nat → Nat → W32 × Bool} {r c : Nat}

theorem spot_regionWritten (hr : r < 64) (hc : c < 64) (hvl : vl ≤ 64) (h : c < vl) (y : Bay) :
    (y.regionWritten m vl val).spot (cellKey m r c) = ((val r c).1, (val r c).2, (val r c).2) := by
  have hdiv : (vl * r + c) / vl = r := by rw [Nat.mul_add_div (by omega), Nat.div_eq_of_lt h, Nat.add_zero]
  have hmod : (vl * r + c) % vl = c := by rw [Nat.mul_add_mod, Nat.mod_eq_of_lt h]
  refine spot_foldl_written (pos := fun e => cellKey m (e / vl) (e % vl)) (val := fun e => ((val (e / vl) (e % vl)).1,
    (val (e / vl) (e % vl)).2, (val (e / vl) (e % vl)).2)) (fun y e k => Bay.spot_setCell y m _ _ _ _ _ k)
    ⟨vl * r + c, List.mem_range.mpr ?_, ?_⟩ (fun e he hkey => ?_) y
  · calc vl * r + c < vl * r + vl := by omega
      _ = vl * (r + 1) := by ring
      _ ≤ vl * 64 := Nat.mul_le_mul_left _ hr
      _ = 64 * vl := Nat.mul_comm ..
  · simp only [hdiv, hmod]
  · have he : e / vl < 64 := Nat.div_lt_of_lt_mul (by rw [Nat.mul_comm]; exact List.mem_range.mp he)
    have hlt : e % vl < vl := Nat.mod_lt _ (by omega)
    obtain ⟨-, hrow, hcol⟩ := cellKey_inj he (by omega) hr hc hkey
    rw [hrow, hcol]

theorem spot_regionWritten_ne (hr : r < 64) (hc : c < 64) (hvl : vl ≤ 64) {k : Nat} (h : k ≠ m ∨ vl ≤ c) (y : Bay) :
    (y.regionWritten m vl val).spot (cellKey k r c) = y.spot (cellKey k r c) := by
  refine spot_foldl_untouched (pos := fun e => cellKey m (e / vl) (e % vl)) (val := fun e => ((val (e / vl) (e % vl)).1,
    (val (e / vl) (e % vl)).2, (val (e / vl) (e % vl)).2)) (fun y e k => Bay.spot_setCell y m _ _ _ _ _ k) (fun e he hkey => ?_) y
  have he : e < 64 * vl := List.mem_range.mp he
  have hlt : e % vl < vl := Nat.mod_lt _ (by omega)
  obtain ⟨htile, -, hcol⟩ := cellKey_inj (Nat.div_lt_of_lt_mul (by omega)) (by omega) hr hc hkey
  rcases h with hk | hv
  · exact hk htile.symm
  · omega

end

/-! ### VOP over tiles -/

/-- An operation's result at a cell, with its poison (R210, R223). -/
def wordCell (op : Nat) (y : Bay) (A B r c : Nat) : W32 × Bool :=
  (wordOp op (y.cell A r c) (y.cell B r c), y.cellPoison A r c || y.cellPoison B r c)

/-- In bay `z` the present region of tile `m` is an operation of the tiles `A` and `B` as bay `y` holds them, and everything else is as `y`
holds it. -/
def Bay.computed (op vl m A B : Nat) (y z : Bay) : Prop :=
  ∀ r c, r < 64 → c < 64 →
    (c < vl → z.spot (cellKey m r c) = ((wordCell op y A B r c).1, (wordCell op y A B r c).2, (wordCell op y A B r c).2)) ∧
    ∀ k, k ≠ m ∨ vl ≤ c → z.spot (cellKey k r c) = y.spot (cellKey k r c)

theorem Bay.computed.congr {op vl m A B : Nat} {y y' z z' : Bay} (h : y.computed op vl m A B z) (hy : ∀ k, y.spot k = y'.spot k)
    (hz : ∀ k, z'.spot k = z.spot k) : y'.computed op vl m A B z' := by
  intro r c hr hc
  obtain ⟨hin, hother⟩ := h r c hr hc
  simp only [wordCell, Bay.cell_spot, Bay.cellPoison_spot, hy] at hin hother ⊢
  exact ⟨fun h => (hz _).trans (hin h), fun k hk => (hz _).trans (hother k hk)⟩

section

variable {t : TimeUnit} {j : Issue} {f : Flight} {d : Dev} {m A B starve : Nat}

theorem regionFor_tile (h : fld j.w 0 9 < 256) (s : VShape) (vl : Nat) (n : Nat) :
    regionFor (vopOpds j s) false vl (.tile n) = { tile := true, pack := false, vl := vl, count := 0 } := by
  have hdst : (j.opd 0).isTile = true := by rw [Issue.opd, if_pos h]; rfl
  simp [regionFor, vopOpds, hdst]

theorem vopEffect_tiles (hop : fld j.w 36 8 ∈ wordOps) (hpack : bit j.w 44 = false) (hm : fld j.w 0 9 < 256) (hdst : f.opd 0 = .tile m)
    (hA : f.opd 9 = .tile A) (hB : f.opd 18 = .tile B) :
    ∃ chunks fn, vopEffect starve t j f d =
      ((d.modBay j.b (·.regionWritten m f.cfg.vl.toNat (wordCell (fld j.w 36 8) (d.bay j.b) A B))).vecBusy j.b f chunks starve fn).finish
        j.b f.id := by
  have h31 : fld j.w 36 8 ≠ 0x31 := by
    rintro h
    rw [h] at hop
    exact absurd hop (by decide)
  refine ⟨ceilDiv 4096 (if vopRandom (fld j.w 36 8) then 128 else 512), vopRandom (fld j.w 36 8), ?_⟩
  simp only [vopEffect, vopShape_wordOp hop, hpack, hdst, hA, hB, regionFor_tile hm, h31, if_false, intShape]
  have h3 : bit 3 0 = true ∧ bit 3 1 = true ∧ bit 3 2 = false := by decide
  simp only [h3, Dev.vsource, Dev.vstoreWord, Bay.velem, Region2.at, Region2.size, if_true, if_false, Bool.false_eq_true, Bool.or_false,
    w32_vopInt hop, Nat.mul_one, Bay.regionWritten, wordCell]

/-- Counting an instruction's chunks leaves memory and every tile as they are. -/
theorem vecBusy_keeps {b : Nat} {f : Flight} {chunks starve : Nat} {fn : Bool} {d e : Dev} (h : d.vecBusy b f chunks starve fn = e) :
    d.asksLike e ∧ ∀ c k, (e.bay c).spot k = (d.bay c).spot k := by
  obtain ⟨hask, hbay⟩ := chargeCycles_keeps h
  refine ⟨(asksLike_modBay ..).trans hask, fun c k => ?_⟩
  rw [hbay, spot_modBay]
  exact fun _ => rfl

theorem vop_tiles {vl : Nat} (hb : j.b < 64) (hop : fld j.w 36 8 ∈ wordOps) (hpack : bit j.w 44 = false) (hm : fld j.w 0 9 < 256)
    (hdst : f.opd 0 = .tile m) (hA : f.opd 9 = .tile A) (hB : f.opd 18 = .tile B) (hcfg : f.cfg.vl.toNat = vl) (hvl : vl ≤ 64) {e : Dev}
    (he : vopEffect starve t j f d = e) : d.asksLike e ∧ (d.bay j.b).computed (fld j.w 36 8) vl m A B (e.bay j.b) := by
  obtain ⟨chunks, fn, hform⟩ := vopEffect_tiles (t := t) (d := d) (starve := starve) hop hpack hm hdst hA hB
  rw [hform] at he
  subst he
  generalize hd1 : Dev.vecBusy j.b f chunks starve fn _ = d1
  obtain ⟨hask, hspot⟩ := vecBusy_keeps hd1
  refine ⟨((asksLike_modBay ..).trans hask).trans (asksLike_finish ..), fun r c hr hc => ⟨fun h => ?_, fun k hk => ?_⟩⟩
  · rw [spot_finish, hspot, Dev.bay_modBay _ hb, hcfg, spot_regionWritten hr hc hvl h]
  · rw [spot_finish, hspot, Dev.bay_modBay _ hb, hcfg, spot_regionWritten_ne hr hc hvl hk]

end

/-! ### VOP is issued and taken -/

theorem mem_wordOps {op : Nat} :
    op ∈ wordOps ↔ op = 0x40 ∨ op = 0x41 ∨ op = 0x42 ∨ op = 0x45 ∨ op = 0x46 ∨ op = 0x47 ∨ op = 0x4B ∨ op = 0x4C := by
  simp [wordOps]

/-- A VOP's issue, with its starve cycles among what its flight keeps. -/
theorem vopBody_starved (starve : Nat) (t : TimeUnit) (d : Dev) {i j : Issue} (h : j = { i with ops := [starve] }) :
    vopBody starve t i d = d.unitStart t j ((vopOpds j j.vopShape).map (·.lo)) (vopFault j d) (fun _ d => d) (vopEffect starve t j) := by
  subst h
  rfl

section

variable {t : TimeUnit} {j : Issue} {d : Dev} {m A B starve : Nat}

theorem vopShape_intShape (h : fld j.w 36 8 ∈ wordOps) : j.vopShape = intShape := by
  rw [Issue.vopShape, vopShape_wordOp h, Option.getD_some]

theorem vopOpds_fields (h : fld j.w 36 8 ∈ wordOps) : (vopOpds j j.vopShape).map (·.lo) = [0, 9, 18] := by
  rw [vopShape_intShape h]
  rfl

/-- A VOP that is not refused names tile registers where it names tiles (R97, R110). -/
theorem vopFault_tile (h : (vopFault j d).isNone = true) {lo : Nat} (hlo : lo ∈ (vopOpds j j.vopShape).map (·.lo)) (ht : fld j.w lo 9 < 256) :
    fld j.w lo 9 < 16 := by
  have hall := firstFault_none (Option.isNone_iff_eq_none.mp h)
  exact tile_lt_of_noFault (hall _ List.mem_cons_self) hlo ht

/-- A VOP over tiles that its unit takes, with nothing before it that waits, computes the present region at once (R203, R210). -/
theorem taken_vop {los : List Nat} {vl : Nat} (hb : j.b < 64) (hop : fld j.w 36 8 ∈ wordOps) (hpack : bit j.w 44 = false)
    (hm : fld j.w 0 9 < 256) (hdst : (j.flight (d.bay j.b) d.step los).opd 0 = .tile m)
    (hA : (j.flight (d.bay j.b) d.step los).opd 9 = .tile A) (hB : (j.flight (d.bay j.b) d.step los).opd 18 = .tile B)
    (hcfg : j.x.live.vl.toNat = vl) (hvl : vl ≤ 64) (hp : (d.bay j.b).flights.all (fun f => !f.parked) = true) (howed : d.owed = []) {d' : Dev}
    (hd : d.taken t j los (fun _ d => d) (vopEffect starve t j) = d') :
    d'.mem = d.mem ∧ (d.bay j.b).computed (fld j.w 36 8) vl m A B (d'.bay j.b) := by
  generalize he : vopEffect starve t j (j.flight (d.bay j.b) d.step los) (d.entered j los).calm = e
  obtain ⟨hask, hcells⟩ := vop_tiles hb hop hpack hm hdst hA hB hcfg hvl he
  obtain ⟨hmem, hspot⟩ := taken_now hb hp howed he hask hd
  rw [calm_bay] at hcells
  exact ⟨hmem, hcells.congr (spot_entered j.b) hspot⟩

end

/-- Settles O60: the unit takes the VOP at once, and its effect writes the present region alone. -/
theorem integerVopComputesTheRegion : Obligations.IntegerVopComputesTheRegion := by
  intro s b i word starve h w d j op m A B vl hcode hpack hm hA hB hvl hop htakes hparked howed
  have hword : fld j.w 36 8 ∈ wordOps := mem_wordOps.mpr hop
  have hfields := vopOpds_fields hword
  have hnone := noFault_of_takes htakes
  have hm16 : m < 16 := vopFault_tile (j := j) hnone (by simp [hfields]) hm
  have hA16 : A < 16 := vopFault_tile (j := j) hnone (by simp [hfields]) hA
  have hB16 : B < 16 := vopFault_tile (j := j) hnone (by simp [hfields]) hB
  have hdst := flight_opd_tile (j := j) hm16 (d.bay b) d.step ((vopOpds j j.vopShape).map (·.lo))
  have hfst := flight_opd_tile (j := j) hA16 (d.bay b) d.step ((vopOpds j j.vopShape).map (·.lo))
  have hsnd := flight_opd_tile (j := j) hB16 (d.bay b) d.step ((vopOpds j j.vopShape).map (·.lo))
  have hrun := run_taken h (mine := fun w => opc w == 0x30) (beq_iff_eq.mpr hcode) (vopBody starve)
    (vopBody_starved starve s.time d (i := d.issued b i word) (j := j) rfl) htakes
  generalize hd' : d.taken s.time j ((vopOpds j j.vopShape).map (·.lo)) (fun _ d => d) (vopEffect starve s.time j) = d' at hrun
  obtain ⟨hmem, hcells⟩ := taken_vop (j := j) b.isLt hword hpack hm hdst hfst hsnd rfl hvl hparked howed hd'
  refine ⟨d', hrun, hmem, fun r c p hr hc hp => ?_⟩
  obtain ⟨hin, hother⟩ := hcells r c hr hc
  exact ⟨fun hlt => cell_of_spot (hin hlt) hp, fun hge => cell_of_spot_eq (hother m (.inr hge)) hp,
    fun k hk => cell_of_spot_eq (hother k (.inl hk)) hp⟩

end Sys2Proof.Machine
end

section
/-! Proofs about what the units of a bay finish: STATIONARY_SWAP, DRAIN_WRITEOUT, AMAX_RECORD_UPDATE and INSTRUCTION_COMPLETE (R80, R81,
R160, R182, R183, R187). -/

namespace Sys2Proof.Machine

section

variable {t : TimeUnit} {d : Dev} {b : Nat} {f : Flight}

/-! ### STATIONARY_SWAP (R182, R183) -/

/-- The bay once the oldest staged tile has entered the cells, and its MLOAD has left the queue. -/
def Bay.swapped (id : Nat) (st : Stationary) (rest : List (Nat × Stationary)) (n : Nat) (y : Bay) : Bay :=
  (Bay.modFlight { y with array := st, staged := rest, mxCnt := vmod y.mxCnt 0 (fun c => c.addHi n) } id (fun f => { f with done := true })).beginNext

theorem swapped_done (id : Nat) (st : Stationary) (rest : List (Nat × Stationary)) (n : Nat) (y : Bay) :
    ∀ g ∈ (y.swapped id st rest n).flights, g.id = id → g.done = true := by
  refine beginNext_all (p := fun g => g.id = id → g.done = true) (fun _ hg => hg) (fun g hg hid => ?_)
  obtain ⟨f, -, rfl⟩ := List.mem_map.mp hg
  by_cases h : f.id = id
  · simp only [h, if_true]
  · simp only [h, if_false] at hid

theorem stationarySwap_swaps {stall id : Nat} {st : Stationary} {rest : List (Nat × Stationary)} (hb : b < 64)
    (h : (d.bay b).staged = (id, st) :: rest) {d' : Dev} (hd : stationarySwap b stall d = d') :
    d'.mem = d.mem ∧ d'.bay b = (d.bay b).swapped id st rest (64 + stall) := by
  rw [stationarySwap, h] at hd
  dsimp only at hd
  subst hd
  generalize he : Dev.chargeCycles 1 b (64 + stall) _ d = e
  obtain ⟨⟨hmem, -⟩, hbay⟩ := chargeCycles_keeps he
  refine ⟨?_, ?_⟩
  · rw [Dev.modBay_mem, Dev.finish, Dev.modBay_mem, Dev.modBay_mem, hmem]
  · rw [Dev.bay_modBay _ hb, Dev.finish, Dev.bay_modBay _ hb, Dev.bay_modBay _ hb, hbay, Bay.swapped]

/-! ### DRAIN_WRITEOUT (R187) -/

@[simp] theorem modFlight_drain (y : Bay) (id : Nat) (g : Flight → Flight) : (y.modFlight id g).drain = y.drain := rfl

@[simp] theorem cell_modFlight (y : Bay) (id : Nat) (g : Flight → Flight) (m r c : Nat) : (y.modFlight id g).cell m r c = y.cell m r c := rfl

theorem drainWriteout_attempts {k : Block} (hk : (d.bay b).oldestClosed = some k)
    (hf : (d.bay b).flights.find? (fun g => g.id = k.flight) = some f) (hr : d.awaitsRead b f.id = false) {e : Dev}
    (he : d.attempt t f.await (fun w d => d.writeRow t b k { f with await := w }) = (none, e)) :
    drainWriteout b t d = e.modBay b (fun y => y.modFlight f.id (fun f => { f with await := Await.none })) := by
  rw [drainWriteout, hk]
  dsimp only
  rw [hf]
  dsimp only
  rw [hr, he]
  rfl

/-- What DRAIN_WRITEOUT takes from column `c` of a block's next slot row (R187). -/
def Bay.drained (k : Block) (y : Bay) (c : Nat) : Nat × Bool :=
  if (k.result k.written c).isSome then y.drainCell ((k.base + k.written) % 1024) c else (0, false)

/-- The next slot row of a block goes to the tile pair from `n`, and counts as written. -/
def Bay.rowOut (n : Nat) (k : Block) (y : Bay) : Bay :=
  (upTo 128).foldl (fun (z : Bay) c => z.setCell (n + c / 64) k.written (c % 64) (w32 (y.drained k c).1) (y.drained k c).2 (y.drained k c).2)
    { y with closed := y.closed.map (fun j => if j.base = k.base then { j with written := k.written + 1 } else j) }

theorem writeRow_tile {k : Block} {n : Nat} (h : f.opd 9 = .tile n) (hk : k.written + 1 < k.rows) :
    d.writeRow t b k f = d.modBay b (·.rowOut n k) := by
  have hlast : ¬k.rows ≤ k.written + 1 := by omega
  have hlt : k.written < k.rows := by omega
  simp only [Dev.writeRow, h, hlast, hlt, decide_false, true_and, Bool.false_eq_true, if_false]
  rfl

theorem setCell_drain (y : Bay) (n r c : Nat) (v : W32) (p0 p1 : Bool) : (y.setCell n r c v p0 p1).drain = y.drain := by
  rw [Bay.setCell]

theorem rowOut_drain (n : Nat) (k : Block) (y : Bay) : (y.rowOut n k).drain = y.drain := by
  rw [Bay.rowOut]
  exact foldl_keeps (fun z : Bay => z.drain) _ (fun z _ => setCell_drain z _ _ _ _ _ _) _ _

theorem rowOut_cell {n : Nat} {k : Block} {c : Nat} (hc : c < 128) (h : (k.result k.written c).isSome) (y : Bay) :
    (y.rowOut n k).cell (n + c / 64) k.written (c % 64) = tabGet 0 y.drain (128 * ((k.base + k.written) % 1024) + c) := by
  have hspot : (y.rowOut n k).spot (cellKey (n + c / 64) k.written (c % 64)) =
      (w32 (y.drained k c).1, (y.drained k c).2, (y.drained k c).2) := by
    refine spot_foldl_written (pos := fun c => cellKey (n + c / 64) k.written (c % 64)) (val := fun c => (w32 (y.drained k c).1,
      (y.drained k c).2, (y.drained k c).2)) (fun z c key => Bay.spot_setCell z _ _ _ _ _ _ key) ⟨c, List.mem_range.mpr hc, rfl⟩
      (fun x hx hkey => ?_) _
    have hx : x < 128 := List.mem_range.mp hx
    have hxc : x = c := by
      unfold cellKey at hkey
      omega
    rw [hxc]
  rw [Bay.cell_spot, hspot, Bay.drained, if_pos h]
  exact w32_toNat _

/-- A slot row goes to a tile at once: tiles are no memory that a job waits for. -/
theorem writeRow_attempt {k : Block} {n : Nat} (h : f.opd 9 = .tile n) (hk : k.written + 1 < k.rows) (howed : d.owed = [])
    (hdue : f.await.due ≤ t.now) :
    d.attempt t f.await (fun w d => d.writeRow t b k { f with await := w }) = (none, (d.calm.modBay b (·.rowOut n k)).calm) := by
  refine attempt_done hdue ?_ (Dev.modBay_stall ..) ?_
  · exact (congrArg (Dev.flushOwed t) (writeRow_tile h hk)).trans (flushOwed_nothing ((Dev.modBay_owed ..).trans howed))
  · rw [Dev.modBay_late]
    exact Nat.zero_le _

theorem drainWriteout_tile {k : Block} {n : Nat} (hb : b < 64) (hk : (d.bay b).oldestClosed = some k)
    (hf : (d.bay b).flights.find? (fun g => g.id = k.flight) = some f) (hr : d.awaitsRead b f.id = false) (h : f.opd 9 = .tile n)
    (hrows : k.written + 1 < k.rows) (howed : d.owed = []) (hdue : f.await.due ≤ t.now) {d' : Dev} (hd : drainWriteout b t d = d') :
    d'.mem = d.mem ∧ d'.bay b = ((d.bay b).rowOut n k).modFlight f.id (fun f => { f with await := Await.none }) := by
  rw [drainWriteout_attempts hk hf hr (writeRow_attempt h hrows howed hdue)] at hd
  subst hd
  refine ⟨?_, ?_⟩
  · rw [Dev.modBay_mem, calm_mem, Dev.modBay_mem, calm_mem]
  · rw [Dev.bay_modBay _ hb, calm_bay, Dev.bay_modBay _ hb, calm_bay]

/-! ### AMAX_RECORD_UPDATE (R160) -/

theorem amaxRecordUpdate_whole (hf : (d.bay b).flights.find? (fun g => g.amax != []) = some f)
    (h : d.whole t f.await (Dev.amaxUpdate t { f.req 0x05 b with await := f.await } f.cfg.qamax.toNat f.amax f.step) = true) :
    amaxRecordUpdate b t d = (d.had t (Dev.amaxUpdate t { f.req 0x05 b with await := f.await } f.cfg.qamax.toNat f.amax f.step)).modBay b
      (fun y => y.modFlight f.id (fun g => { g with amax := [], done := true })) := by
  have hattempt := attempt_whole (effect := fun w => Dev.amaxUpdate t { f.req 0x05 b with await := w } f.cfg.qamax.toNat f.amax f.step) h
  rw [amaxRecordUpdate, hf]
  dsimp only
  rw [hattempt]

/-! ### INSTRUCTION_COMPLETE (R80, R81) -/

section

variable {n : Nat} (hf : (d.bay b).flights.find? (fun g => g.id = n) = some f)
include hf

/-- One whose results are written leaves its queue. -/
theorem instructionComplete_leaves (hw : f.waits = false) (hd : f.done = true) (ha : f.amax = []) (hn : d.awaits b n = false) :
    instructionComplete b n t d = d.modBay b (·.leave n) := by
  simp [instructionComplete, hf, hw, hd, ha, hn]

/-- One that has asked for bytes waits for them. -/
theorem instructionComplete_awaits (hw : f.waits = true) (hr : d.awaitsRead b n = true) : instructionComplete b n t d = d := by
  simp [instructionComplete, hf, hw, hr]

/-- One that has waited goes on, and stays in its queue while its results are not written. -/
theorem instructionComplete_resumes (hw : f.waits = true) (hr : d.awaitsRead b n = false) {d1 : Dev}
    (h1 : d.runEffect t b n f.await (fun d => (d.reissue b f).effect t d) = d1)
    (hd : ∀ g ∈ (d1.bay b).flights, g.id = n → g.done = false) : instructionComplete b n t d = d1 := by
  simp only [instructionComplete, hf, hw, hr, h1, Bool.false_eq_true, and_false, if_false, if_true]
  split
  · rfl
  · next g hg =>
    have hdone := hd g (List.mem_of_find?_eq_some hg) (by simpa using List.find?_some hg)
    simp [hdone]

end

end

/-- Settles O39: each unit's step goes through what it finds in its bay. -/
theorem unitsFinishWhatTheyTook : Obligations.UnitsFinishWhatTheyTook := by
  intro s b stall n f d t y
  refine ⟨fun id st rest h => ?_, fun k hk hf hr => ⟨fun h => ?_, fun tile hopd hrows howed hdue => ?_⟩, fun hf => ?_,
    fun hf => ⟨fun hw hd ha hn => ?_, fun hw hr => ?_, fun hw hr => ?_⟩⟩
  · generalize hd' : stationarySwap b stall d = d'
    obtain ⟨hmem, hbay⟩ := stationarySwap_swaps b.isLt h hd'
    refine ⟨d', runDev_of_eq hd', ?_⟩
    rw [hbay]
    exact ⟨rfl, rfl, rfl, rfl, hmem, swapped_done id st rest _ _⟩
  · exact run_of_eq (drainWriteout_attempts hk hf hr (attempt_whole (effect := fun w d => d.writeRow t b k { f with await := w }) h))
  · generalize hd' : drainWriteout b t d = d'
    obtain ⟨hmem, hbay⟩ := drainWriteout_tile b.isLt hk hf hr hopd hrows howed hdue hd'
    refine ⟨d', run_of_eq hd', hmem, ?_⟩
    rw [hbay, modFlight_drain]
    refine ⟨rowOut_drain tile k y, fun c hc hres => ?_⟩
    rw [cell_modFlight]
    exact rowOut_cell hc hres y
  · intro update h
    exact run_of_eq (amaxRecordUpdate_whole hf h)
  · exact run_of_eq (instructionComplete_leaves hf hw hd ha hn)
  · exact run_of_eq (instructionComplete_awaits hf hw hr)
  · intro d1 hd
    exact run_of_eq (instructionComplete_resumes hf hw hr rfl hd)

end Sys2Proof.Machine
end

section
/-! Proofs of what writes and memory-side operations leave in HBM that holds no stored error and whose dies report nothing (R136, R301, R317,
R318, R344, R349). -/

namespace Sys2Proof.Machine

/-! ### What charging a request leaves alone (R312, R313) -/

/-- A stack, and a device, without what the charges of an HBM request change: regulators and counters, meters, and what makes a request
wait for its regulator. -/
def Stack.sansCharges (k : Stack) : Stack := { k with cnt := Stack.reset.cnt, regs := Stack.reset.regs }
def Dev.sansCharges (d : Dev) : Dev :=
  { d with hbms := d.hbms.map Stack.sansCharges, parts := Dev.reset.parts, stall := [], late := 0 }

theorem modStack_sansCharges (d : Dev) (s : Nat) {f : Stack → Stack} (h : ∀ k, (f k).sansCharges = k.sansCharges) :
    (d.modStack s f).sansCharges = d.sansCharges := by
  simp only [Dev.sansCharges, Dev.modStack, map_vmod _ _ _ _ h]

theorem draw_sansCharges (k : OccKey) (code index n : Nat) (d : Dev) : (d.draw k code index n).sansCharges = d.sansCharges := by
  unfold Dev.draw
  split <;> rfl

theorem chargeOne_sansCharges (t : TimeUnit) (q : Req) (s a len n : Nat) (d : Dev) :
    (d.chargeOne t q s a len n).sansCharges = d.sansCharges := by
  have hregs (p : Nat) (f : Regulator → Regulator) :
      (d.modStack s (fun k => { k with regs := vmod k.regs p f })).sansCharges = d.sansCharges := modStack_sansCharges d s (fun _ => rfl)
  unfold Dev.chargeOne
  dsimp only
  split
  · exact draw_sansCharges _ _ _ _ d
  · rfl
  · split
    · split
      · exact hregs _ _
      · exact modStack_sansCharges d s (fun _ => rfl)
    · split
      · rfl
      · split
        · exact hregs _ _
        · rfl

theorem chargeHbm_sansCharges (t : TimeUnit) (q : Req) (s a n : Nat) (cost : Nat → Nat) (d : Dev) :
    (d.chargeHbm t q s a n cost).sansCharges = d.sansCharges :=
  foldl_keeps Dev.sansCharges _ (fun d _ => chargeOne_sansCharges t q s a n _ d) _ d

theorem stack_sansCharges (d : Dev) (s : Nat) : d.sansCharges.stack s = (d.stack s).sansCharges := by
  simp only [Dev.stack, Dev.sansCharges]
  by_cases hs : s < 12
  · rw [vget_lt _ _ hs, vget_lt _ _ hs, Vector.getElem_map]
  · rw [vget_beyond _ _ (Nat.le_of_not_lt hs), vget_beyond _ _ (Nat.le_of_not_lt hs)]
    rfl

theorem regionAt_sansCharges (d : Dev) (a : Nat) : d.sansCharges.regionAt a = d.regionAt a := by
  cases h : regionOf a with
  | hbm s o => simp only [Dev.regionAt, h, stack_sansCharges]; rfl
  | _ => simp only [Dev.regionAt, h] <;> rfl

theorem isFailed_sansCharges (d : Dev) (r : Region) : d.sansCharges.isFailed r = d.isFailed r := by
  cases r with
  | hbm s o => simp only [Dev.isFailed, stack_sansCharges]; rfl
  | _ => rfl

theorem deadGranules_sansCharges (d : Dev) (a n : Nat) : d.sansCharges.deadGranules a n = d.deadGranules a n := by
  simp only [Dev.deadGranules, regionAt_sansCharges, isFailed_sansCharges]
  rfl

/-! ### A stack whose words are good and whose dies report nothing (R322, R343, R344) -/

/-- Nothing for a controller to find in stack `s`: no stored error, and no report of its dies. -/
def Dev.clean (s : Nat) (d : Dev) : Prop := d.mem.errs = [] ∧ (d.stack s).dies = []

/-- Charging a request changes nothing that serving it depends on. -/
theorem chargeHbm_keeps {t : TimeUnit} {q : Req} {s a n : Nat} {cost : Nat → Nat} {d e : Dev} (h : d.chargeHbm t q s a n cost = e)
    (hd : d.clean s) : e.clean s ∧ e.mem = d.mem ∧ e.owed = d.owed ∧ e.deadGranules a n = d.deadGranules a n := by
  have hsame : e.sansCharges = d.sansCharges := h ▸ chargeHbm_sansCharges t q s a n cost d
  have hmem : e.mem = d.mem := congrArg (·.mem) hsame
  have hstack : (e.stack s).sansCharges = (d.stack s).sansCharges := by rw [← stack_sansCharges, hsame, stack_sansCharges]
  obtain ⟨herrs, hdies⟩ := hd
  refine ⟨⟨hmem ▸ herrs, (congrArg (·.dies) hstack).trans hdies⟩, hmem, congrArg (·.owed) hsame, ?_⟩
  rw [← deadGranules_sansCharges, hsame, deadGranules_sansCharges]

section

variable {t : TimeUnit} {s : Nat} {d : Dev} (hd : d.clean s)
include hd

theorem checkSector_clean (q : Option Nat) (scrub : Bool) (kind lost x : Nat) : d.checkSector t q s scrub kind lost x = (none, d) := by
  obtain ⟨herrs, hdies⟩ := hd
  simp [Dev.checkSector, Dev.dieReport, herrs, hdies, tabGet]

theorem checkSectors_clean (q : Option Nat) (scrub : Bool) (kind : Nat) (lost : Nat → Nat) (xs : List Nat) :
    d.checkSectors t q s scrub kind lost xs = ([], d) := by
  induction xs with
  | nil => rfl
  | cons x rest ih => simp only [Dev.checkSectors, checkSector_clean hd, ih, Option.toList_none, List.append_nil]

theorem mergeReads_clean (q : Req) (lost : Nat → Nat) (xs : List Nat) : d.mergeReads t q s lost xs = d := by
  simp only [Dev.mergeReads, checkSectors_clean hd, Dev.uncorrected]

theorem writeReports_clean (q : Req) (a : Nat) (poison : List Bool) (n : Nat) (xs : List Nat) :
    d.writeReports t q s a poison n xs = (poison, d) := by
  obtain ⟨-, hdies⟩ := hd
  simp [Dev.writeReports, hdies, tabGet]

end

/-! ### Writes and operations at a stack (R136, R301, R317, R349) -/

/-- A request that owes no record leaves memory as it has changed it. -/
theorem served_mem {t : TimeUnit} {d : Dev} (s : Nat) (f : Stack → Stack) (g : Memory → Memory) (h : d.owed = []) :
    (((d.modStack s f).modMem g).flushOwed t).mem = g d.mem := by
  rw [flushOwed_nothing (d := (d.modStack s f).modMem g) h, Dev.modMem, Dev.modStack_mem]

section

variable {t : TimeUnit} {d : Dev} {q : Req} {s o a : Nat} {data : List Byte} {poison mask : List Bool}
  (hr : d.regionAt a = .hbm s o) (hw : d.mustWait a data.length = false) (hd : d.clean s)
  (hdead : d.deadGranules a data.length = []) (howed : d.owed = [])
include hr hw hd hdead howed

theorem write_mem_clean : (d.write t q a data poison mask).mem = d.mem.putAll a data poison mask := by
  simp only [Dev.write, Dev.saveReq, hr, hw, Bool.false_eq_true, if_false]
  generalize he : d.chargeHbm t q s a data.length _ = e
  obtain ⟨hclean, hmem, howed', hdead'⟩ := chargeHbm_keeps he hd
  rw [mergeReads_clean hclean, writeReports_clean hclean, hdead'.trans hdead, ← hmem]
  exact served_mem s _ _ (howed'.trans howed)

theorem atomic_mem_clean {code : Nat} (hlow : 1 ≤ code) (hhigh : code ≤ 12) :
    (d.atomic t q code a data poison mask).mem = d.mem.combine code a data poison mask := by
  have hknown : msKnown code = true := decide_eq_true hhigh
  simp only [Dev.atomic, hr, hw, hknown, Nat.ne_of_gt hlow, Bool.not_true, Bool.false_eq_true, if_false]
  generalize he : d.chargeHbm t q s a data.length _ = e
  obtain ⟨hclean, hmem, howed', hdead'⟩ := chargeHbm_keeps he hd
  rw [mergeReads_clean hclean, hdead'.trans hdead, ← hmem]
  exact served_mem s _ _ (howed'.trans howed)

end

/-! ### Bytes after a write or an operation (R317, R349) -/

/-- A byte with its poison bit. -/
def Memory.spot (m : Memory) (x : Nat) : Byte × Bool := (m.byte x, m.isPoison x)

theorem Memory.spot_put (m : Memory) (a x : Nat) (v : Byte) (p : Bool) :
    (m.put a v p).spot x = if x = a then (if p then 0 else v, p) else m.spot x := by
  simp only [Memory.spot, Memory.byte_put, Memory.isPoison_put]
  split <;> rfl

theorem Memory.spot_putAll_below (m : Memory) {a x : Nat} (vs : List Byte) (ps ms : List Bool) (h : x < a) :
    (m.putAll a vs ps ms).spot x = m.spot x := by
  induction vs generalizing m a ps ms with
  | nil => rfl
  | cons v rest ih =>
    rw [Memory.putAll, ih _ _ _ (by omega)]
    split
    · rw [Memory.spot_put, if_neg (by omega)]
    · rfl

theorem Memory.spot_putAll_selected (m : Memory) {a i : Nat} {vs : List Byte} (ps : List Bool) {ms : List Bool} (hi : i < vs.length)
    (hm : ms.getD i true = true) :
    (m.putAll a vs ps ms).spot (a + i) = (if ps.getD i false then 0 else vs.getD i 0, ps.getD i false) := by
  induction vs generalizing m a ps ms i with
  | nil => exact absurd hi (Nat.not_lt_zero i)
  | cons v rest ih =>
    rw [Memory.putAll]
    cases i with
    | zero =>
      have hhead : ms.headD true = true := by simpa [List.getD_eq_getElem?_getD, List.head?_eq_getElem?] using hm
      rw [Memory.spot_putAll_below _ _ _ _ (by omega), if_pos hhead, Memory.spot_put]
      simp [List.head?_eq_getElem?]
    | succ i =>
      have htail : ms.tail.getD i true = true := by simpa using hm
      rw [show a + (i + 1) = a + 1 + i by omega, ih _ _ (Nat.lt_of_succ_lt_succ hi) htail]
      simp

/-- A byte that a write does not reach stays. -/
theorem Memory.byte_putAll_outside (m : Memory) {a x : Nat} (vs : List Byte) (ps ms : List Bool) (h : x < a ∨ a + vs.length ≤ x) :
    (m.putAll a vs ps ms).byte x = m.byte x :=
  h.elim (Memory.byte_putAll_below m vs ps ms) (Memory.byte_putAll_above m vs ps ms)

theorem msSize_pos (code : Nat) : 0 < msSize code := by
  unfold msSize
  split_ifs <;> decide

/-- An operation touches the elements that lie whole inside its request. -/
theorem Memory.byte_combine_outside (m : Memory) (code : Nat) {a x : Nat} (data : List Byte) (poison mask : List Bool)
    (h : x < a ∨ a + data.length ≤ x) : (m.combine code a data poison mask).byte x = m.byte x := by
  have hpos := msSize_pos code
  unfold Memory.combine
  dsimp only
  generalize msSize code = w at hpos
  have hlo : a ≤ ceilDiv a w * w := (ceilDiv_mul_bounds a hpos).1
  generalize ceilDiv a w * w = lo at hlo
  refine List.foldlRecOn (motive := fun m' : Memory => m'.byte x = m.byte x) _ _ rfl (fun m' hm' i hi => ?_)
  split
  · refine (Memory.byte_putAll_outside m' _ _ _ ?_).trans hm'
    have hfits : w * (i + 1) ≤ a + data.length - lo :=
      (Nat.mul_le_mul_left w (List.mem_range.mp hi)).trans (Nat.mul_div_le _ w)
    rw [byteList, List.length_map, toBytes_length]
    rw [Nat.mul_succ] at hfits
    omega
  · exact hm'

/-- Settles O43: neither charging a request nor the reads that it begins with change memory where they find nothing. -/
theorem hbmWritesAndOperationsChangeTheirBytesOnly : Obligations.HbmWritesAndOperationsChangeTheirBytesOnly := by
  intro t d q k o a code data poison mask hr hw herrs hdead howed hdies hlow hhigh
  rw [write_mem_clean hr hw ⟨herrs, hdies⟩ hdead howed, atomic_mem_clean hr hw ⟨herrs, hdies⟩ hdead howed hlow hhigh]
  refine ⟨rfl, rfl, fun x hx => ⟨Memory.byte_putAll_outside _ _ _ _ hx, Memory.byte_combine_outside _ _ _ _ _ hx⟩, fun i hi hm => ?_,
    fun hwf => ⟨Memory.wf_putAll _ _ _ _ hwf, Memory.wf_combine _ _ _ _ _ hwf⟩⟩
  have hspot := Memory.spot_putAll_selected d.mem (a := a) poison hi hm
  exact ⟨congrArg (·.1) hspot, congrArg (·.2) hspot⟩

end Sys2Proof.Machine
end

section
/-! Proofs about the phases of the update unit: UPD_PROLOGUE, UPD_BODY and UPD_EPILOGUE (R275, R287, R288, R294). -/

namespace Sys2Proof.Machine

/-! ### What the records that an effect owes leave of the piers -/

@[simp] theorem flushOwed_pier (t : TimeUnit) (d : Dev) (p : Nat) : (d.flushOwed t).pier p = d.pier p :=
  congrArg (·.pier p) (flushOwed_sansRings t d)

theorem had_pier (t : TimeUnit) (d : Dev) (effect : Dev → Dev) (p : Nat) : (d.had t effect).pier p = (effect d.calm).pier p :=
  flushOwed_pier t (effect d.calm) p

/-! ### The prologue (R287) -/

/-- A chain of two steps of the prologue answers where both do. -/
theorem andThen_ok {α β : Type} {r : Upd α} {g : α → Dev → Upd β} {y : β} {d' : Dev} (h : r.andThen g = (.ok y, d')) :
    ∃ x d, r = (.ok x, d) ∧ g x d = (.ok y, d') := by
  obtain ⟨e | x, d⟩ := r
  · simp [Upd.andThen] at h
  · exact ⟨x, d, rfl, h⟩

/-- A prologue that finds nothing wrong plans a body for its own flight. -/
theorem prologue_ok {t : TimeUnit} {b extra : Nat} {f : Flight} {st g : Desc} {d d1 : Dev} {u : UpdRun} {m : Nat}
    (h : d.prologue t b extra f st g = (.ok (u, m), d1)) : u.phase = 0 ∧ u.bay = b ∧ u.flight = f.id := by
  obtain ⟨s, dShard, -, h⟩ := andThen_ok h
  obtain ⟨-, dScope, -, h⟩ := andThen_ok h
  dsimp only at h
  split at h
  · simp at h
  · obtain ⟨c, dCoefs, -, h⟩ := andThen_ok h
    obtain ⟨l, dLists, -, h⟩ := andThen_ok h
    simp only [Prod.mk.injEq, Except.ok.injEq] at h
    obtain ⟨⟨rfl, -⟩, -⟩ := h
    exact ⟨rfl, rfl, rfl⟩

/-- The unit keeps the plan of a prologue that finds nothing wrong. -/
theorem updPrologueEffect_upd {t : TimeUnit} {b extra : Nat} {f : Flight} {st g : Desc} {d d1 : Dev} {u : UpdRun} {m : Nat}
    (hb : b < 64) (h : d.prologue t b extra f st g = (.ok (u, m), d1)) :
    ((updPrologueEffect b extra t f st g d).pier (b / 16)).upd = some u := by
  have hp : b / 16 < 4 := by omega
  simp only [updPrologueEffect, h, Dev.pier_modPier _ hp]

theorem updPrologue_whole {t : TimeUnit} {b extra : Nat} {f : Flight} {st g : Desc} {d : Dev} (hopd0 : f.opd 0 = .desc st)
    (hopd9 : f.opd 9 = .desc g) (hidle : (d.pier (b / 16)).upd = none) (hnext : (d.bay b).nextUpd = some f)
    (hawait : d.awaits b f.id = false)
    (h : d.whole t f.await (fun d => updPrologueEffect b extra t f st g (d.modBay b (·.beginFlight f.id))) = true) :
    updPrologue b extra t d = d.had t (fun d => updPrologueEffect b extra t f st g (d.modBay b (·.beginFlight f.id))) := by
  have hattempt := attempt_whole
    (effect := fun w d => updPrologueEffect b extra t { f with await := w } st g (d.modBay b (·.beginFlight f.id))) h
  simp only [updPrologue, hidle, hnext, hopd0, hopd9, hawait, hattempt, Bool.false_eq_true, if_false]

/-! ### The body (R277 to R283, R289 to R298) -/

/-- The seal checks of a UPD's body: whether one fails, and the device after them. -/
def Dev.updSealed (t : TimeUnit) (u : UpdRun) (f : Flight) (st g : Desc) (d : Dev) : Bool × Dev :=
  d.updSeals t u.bay f (f.updReq u.bay) u (u.ops g st.slot)

/-- What the body does after its seal checks: the bite that stops it, its counts and the device. -/
def Dev.updWritten (t : TimeUnit) (u : UpdRun) (f : Flight) (st g : Desc) (d : Dev) : Option (Nat × Nat) × UpdCount × Dev :=
  let seals := d.updSealed t u f st g
  if bit f.word.toNat 36 then
    seals.2.lazyFrom t (f.updReq u.bay) u (u.ops g st.slot) f.step.toNat f.cfg.sealchk seals.1 (u.lazyRows g) UpdCount.zero
  else seals.2.denseFrom t (f.updReq u.bay) u (u.ops g st.slot) f.step.toNat f.cfg.sealchk seals.1 (upTo g.bricks) UpdCount.zero

/-- A body that nothing bites leaves its unit the epilogue to come, and whether a seal check has spoilt its results (R294, R357). -/
theorem updRunEffect_upd {p stall : Nat} {t : TimeUnit} {u : UpdRun} {f : Flight} {st g : Desc} {d : Dev} (hp : p < 4)
    (h : (d.updWritten t u f st g).1 = none) :
    ((updRunEffect p stall t u f st g d).pier p).upd = some { u with phase := 1, spoil := (d.updSealed t u f st g).1 } := by
  simp only [Dev.updWritten, Dev.updSealed] at h
  simp only [updRunEffect, h, Dev.pier_modPier _ hp, Dev.updSealed]

/-! ### The epilogue (R294, R297) -/

/-- What the epilogue writes to the Down line's header: LSTEP, and LCOUNT for a lazy shard. -/
def UpdRun.header (u : UpdRun) (f : Flight) : List Nat :=
  toBytes 8 (f.step + 1).toNat ++ (if bit f.word.toNat 36 then toBytes 4 u.listed.length else [])

/-- The epilogue of a UPD: the header is written, the unit is free, and the UPD's results are written. -/
def updEpilogueEffect (p : Nat) (t : TimeUnit) (u : UpdRun) (f : Flight) (d : Dev) : Dev :=
  (((d.store t (f.updReq u.bay) u.down (byteList (u.header f)) (List.replicate (u.header f).length u.spoil) []).updBusy p 40
    f.occ).modPier p (fun x => { x with upd := none })).finish u.bay f.id

theorem updEpilogueEffect_upd {p : Nat} (hp : p < 4) (t : TimeUnit) (u : UpdRun) (f : Flight) (d : Dev) :
    ((updEpilogueEffect p t u f d).pier p).upd = none := by
  simp only [updEpilogueEffect, Dev.finish, Dev.pier_modBay, Dev.pier_modPier _ hp]

/-! ### What a unit that runs a UPD does when nothing makes it wait -/

section

variable {p stall : Nat} {t : TimeUnit} {u : UpdRun} {f : Flight} {d : Dev} (hupd : (d.pier p).upd = some u)
  (hflight : d.updFlight u = some f) (hawait : d.awaits u.bay f.id = false)
include hupd hflight hawait

theorem updRunBody_whole {st g : Desc} (hopd0 : f.opd 0 = .desc st) (hopd9 : f.opd 9 = .desc g) (hphase : u.phase = 0)
    (h : d.whole t f.await (updRunEffect p stall t u f st g) = true) :
    updRunBody p stall t d = (d.had t (updRunEffect p stall t u f st g)).modBay u.bay
      (fun y => y.modFlight f.id (fun f => { f with await := Await.none })) := by
  have hattempt := attempt_whole (effect := fun w d => updRunEffect p stall t u { f with await := w } st g d) h
  simp only [updRunBody, hupd, hflight, hawait, hopd0, hopd9, hphase, hattempt, ne_eq, not_true_eq_false, Bool.false_eq_true,
    or_self, if_false]

theorem updEpilogue_whole (hphase : u.phase = 1) (h : d.whole t f.await (updEpilogueEffect p t u f) = true) :
    updEpilogue p t d = d.had t (updEpilogueEffect p t u f) := by
  have hattempt : d.attempt t f.await (fun w d => updEpilogueEffect p t u { f with await := w } d) = (none, _) := attempt_whole h
  generalize d.had t (updEpilogueEffect p t u f) = e at hattempt ⊢
  simp only [updEpilogueEffect, UpdRun.header] at hattempt
  simp only [updEpilogue, hupd, hflight, hawait, hphase, hattempt, ne_eq, not_true_eq_false, Bool.false_eq_true, or_self, if_false]

end

/-- Settles O41: each phase is one attempt that nothing makes wait, and its effect says what the unit keeps. -/
theorem updateUnitRunsItsPhases : Obligations.UpdateUnitRunsItsPhases := by
  intro s b p extra stall f st g u d t hopd0 hopd9
  refine ⟨fun hidle hnext hawait => ?_, fun hupd hflight hawait => ⟨fun hphase hwhole => ?_, fun hphase => ?_⟩⟩
  · intro begin' e hwhole m d1 hplan
    refine ⟨run_of_eq (updPrologue_whole hopd0 hopd9 hidle hnext hawait hwhole), ?_, prologue_ok hplan⟩
    rw [had_pier]
    exact updPrologueEffect_upd b.isLt hplan
  · refine ⟨run_of_eq (updRunBody_whole hupd hflight hawait hopd0 hopd9 hphase hwhole), fun hbody =>
      ⟨(d.calm.updSealed t u f st g).1, ?_⟩⟩
    rw [Dev.pier_modBay, had_pier]
    exact updRunEffect_upd (d := d.calm) p.isLt hbody
  · intro header fin hwhole
    refine ⟨run_of_eq (updEpilogue_whole hupd hflight hawait hphase hwhole), ?_⟩
    rw [had_pier]
    exact updEpilogueEffect_upd p.isLt t u f d.calm

end Sys2Proof.Machine
end

section
/-! Proofs of the memory-side INT32 add (R316, R317, R349). -/

namespace Sys2Proof.Machine

/-! ### Numbers as bytes -/

theorem ofBytes_toBytes (n v : Nat) : ofBytes (toBytes n v) = v % 256 ^ n := by
  induction n generalizing v with
  | zero => rw [Nat.pow_zero, Nat.mod_one]; rfl
  | succ n ih => rw [toBytes, ofBytes, ih, Nat.mod_mod, Nat.pow_succ', Nat.mod_mul]

theorem ofBytes_natBytes_byteList (ns : List Nat) : ofBytes (natBytes (byteList ns)) = ofBytes ns := by
  induction ns with
  | nil => rfl
  | cons n ns ih =>
    change (BitVec.ofNat 8 n).toNat % 256 + 256 * ofBytes (natBytes (byteList ns)) = _
    rw [ih, ofBytes, BitVec.toNat_ofNat, Nat.mod_mod]

/-! ### Spots after a write -/

theorem Memory.spot_putAll_above (m : Memory) {a x : Nat} (vs : List Byte) (ps ms : List Bool) (h : a + vs.length ≤ x) :
    (m.putAll a vs ps ms).spot x = m.spot x := by
  induction vs generalizing m a ps ms with
  | nil => rfl
  | cons v rest ih =>
    rw [List.length_cons] at h
    rw [Memory.putAll, ih _ _ _ (by omega)]
    split
    · rw [Memory.spot_put, if_neg (by omega)]
    · rfl

/-- A byte that a write does not reach stays, with its poison bit. -/
theorem Memory.spot_putAll_outside (m : Memory) {a x : Nat} (vs : List Byte) (ps ms : List Bool) (h : x < a ∨ a + vs.length ≤ x) :
    (m.putAll a vs ps ms).spot x = m.spot x :=
  h.elim (Memory.spot_putAll_below m vs ps ms) (Memory.spot_putAll_above m vs ps ms)

/-- A byte of a write whose bytes are all good, or all poisoned (R349). -/
theorem Memory.spot_putAll_uniform (m : Memory) (a : Nat) {i : Nat} {vs : List Byte} (bad : Bool) (hi : i < vs.length) :
    (m.putAll a vs (List.replicate vs.length bad) []).spot (a + i) = (if bad then 0 else vs[i], bad) := by
  rw [Memory.spot_putAll_selected m _ hi rfl]
  simp [hi]

/-- Bytes written good read back as written. -/
theorem Memory.bytes_putAll_good (m : Memory) (a : Nat) (vs : List Byte) :
    (m.putAll a vs (List.replicate vs.length false) []).bytes a vs.length = (vs, List.replicate vs.length false) := by
  have hspot {i : Nat} (hi : i < vs.length) := m.spot_putAll_uniform a false hi
  refine Prod.ext (List.ext_getElem (by simp [Memory.bytes]) fun i _ hi => ?_)
    (List.ext_getElem (by simp [Memory.bytes]) fun i hi _ => ?_)
  · simpa [Memory.bytes, Memory.spot] using congrArg (·.1) (hspot hi)
  · have hi' : i < vs.length := by simpa [Memory.bytes] using hi
    simpa [Memory.bytes, Memory.spot] using congrArg (·.2) (hspot hi')

/-! ### An operation on one element (R317) -/

/-- Whether an operand byte or an old byte of an element of `w` bytes is poisoned. -/
def Memory.badElement (m : Memory) (a w : Nat) (poison : List Bool) : Bool :=
  (List.range w).any (fun j => poison.getD j false || m.isPoison (a + j))

/-- The element that an operation writes. -/
def Memory.newElement (m : Memory) (code a : Nat) (data : List Byte) : List Byte :=
  byteList (toBytes (msSize code) (msOp code (m.word a (msSize code)) (ofBytes (natBytes data))))

theorem Memory.newElement_length (m : Memory) (code a : Nat) (data : List Byte) : (m.newElement code a data).length = msSize code := by
  rw [Memory.newElement, byteList, List.length_map, toBytes_length]

/-- An unmasked operation on one aligned element writes that element. -/
theorem Memory.combine_element (m : Memory) {code a : Nat} {data : List Byte} (poison : List Bool) (ha : a % msSize code = 0)
    (hlen : data.length = msSize code) :
    m.combine code a data poison [] =
      m.putAll a (m.newElement code a data)
        (List.replicate (m.newElement code a data).length (m.badElement a (msSize code) poison)) [] := by
  have hpos := msSize_pos code
  have hlo : ceilDiv a (msSize code) * msSize code = a := by
    obtain ⟨k, hk⟩ := Nat.dvd_of_mod_eq_zero ha
    rw [ceilDiv, hk, Nat.add_sub_assoc hpos, Nat.mul_add_div hpos, Nat.div_eq_of_lt (by omega), Nat.add_zero, Nat.mul_comm]
  have hone : (a + data.length - a) / msSize code = 1 := by rw [Nat.add_sub_cancel_left, hlen, Nat.div_self hpos]
  have hmask : (List.range (msSize code)).all (fun j => ([] : List Bool).getD j true) = true := by simp
  rw [Memory.newElement_length]
  simp only [Memory.combine, hlo, hone, List.range_one, List.foldl_cons, List.foldl_nil, Nat.mul_zero, Nat.add_zero, Nat.sub_self, hmask,
    if_true, Nat.zero_add, List.drop_zero, List.take_of_length_le hlen.le, Memory.newElement, Memory.badElement]

theorem Memory.word_combine_good (m : Memory) {code a : Nat} {data : List Byte} {poison : List Bool} (ha : a % msSize code = 0)
    (hlen : data.length = msSize code) (hgood : m.badElement a (msSize code) poison = false) :
    (m.combine code a data poison []).word a (msSize code) =
        msOp code (m.word a (msSize code)) (ofBytes (natBytes data)) % 256 ^ msSize code ∧
      (m.combine code a data poison []).anyPoison a (msSize code) = false := by
  have hbytes := m.bytes_putAll_good a (m.newElement code a data)
  rw [← hgood, ← m.combine_element poison ha hlen, m.newElement_length, hgood] at hbytes
  constructor
  · rw [Memory.word, hbytes]
    exact (ofBytes_natBytes_byteList _).trans (ofBytes_toBytes _ _)
  · simp [Memory.anyPoison, hbytes]

/-- Settles O44: the add is an operation on one element of four bytes. -/
theorem memorySideAddIsModular : Obligations.MemorySideAddIsModular := by
  intro m a data poison ha hlen bad m'
  have hbad : m.badElement a (msSize 3) poison = bad := by
    simp only [Memory.badElement, bad, Memory.anyPoison, Memory.bytes, show msSize 3 = 4 from rfl,
      show List.range 4 = [0, 1, 2, 3] from rfl, List.any_cons, List.any_nil, List.map_cons, List.map_nil, id, Nat.add_zero]
    ac_rfl
  have hcombine : m' = _ := m.combine_element (code := 3) poison ha hlen
  have hsize := m.newElement_length 3 a data
  refine ⟨fun hgood => ?_, fun hpoisoned i hi => ?_, fun x hx => ?_⟩
  · obtain ⟨hword, hgood'⟩ := m.word_combine_good (code := 3) ha hlen (hbad.trans hgood)
    exact ⟨hword.trans (Nat.mod_mod _ (2 ^ 32)), hgood'⟩
  · have hspot := m.spot_putAll_uniform a (i := i) (m.badElement a (msSize 3) poison) (vs := m.newElement 3 a data) (hsize ▸ hi)
    rw [← hcombine, hbad, hpoisoned] at hspot
    exact congrArg (·.2) hspot
  · have hspot := m.spot_putAll_outside (m.newElement 3 a data)
      (List.replicate (m.newElement 3 a data).length (m.badElement a (msSize 3) poison)) [] (a := a) (x := x) (by rwa [hsize])
    rw [← hcombine] at hspot
    exact ⟨congrArg (·.1) hspot, congrArg (·.2) hspot⟩

end Sys2Proof.Machine
end

section
/-! Proofs of a stack's thermal states: readings, the transitions that they make, and what those write and raise (R328, R329, R330). -/

namespace Sys2Proof.Machine

/-! ### What a record leaves of a stack -/

section
variable {x y : Stack} (h : x.sansTraffic = y.sansTraffic)
include h

/-! What requests do not touch of a stack. -/

theorem present_of_sansTraffic : x.present = y.present := congrArg (·.present) h
theorem therm_of_sansTraffic : x.therm = y.therm := congrArg (·.therm) h
theorem temp_of_sansTraffic : x.temp = y.temp := congrArg (·.temp) h
theorem hotC_of_sansTraffic : x.hotC = y.hotC := congrArg (·.hotC) h
theorem critC_of_sansTraffic : x.critC = y.critC := congrArg (·.critC) h
theorem training_of_sansTraffic : x.training = y.training := congrArg (·.training) h
theorem failed_of_sansTraffic : x.failed = y.failed := congrArg (·.failed) h
theorem due_of_sansTraffic : x.due = y.due := congrArg (·.due) h
theorem filling_of_sansTraffic : x.filling = y.filling := congrArg (·.filling) h
theorem mapped_of_sansTraffic : x.mapped = y.mapped := congrArg (·.mapped) h

end

/-- What changes no more than writing a record may leaves a stack, but for the traffic of its requests. -/
theorem stack_of_sansRings {d e : Dev} (h : d.sansRings = e.sansRings) (k : Nat) : (d.stack k).sansTraffic = (e.stack k).sansTraffic := by
  have hstacks : d.hbms.map Stack.sansTraffic = e.hbms.map Stack.sansTraffic := by
    simpa only [Dev.sansRings, Dev.sansTraffic] using congrArg (·.hbms) h
  have hstack := congrArg (fun v => vget Stack.reset v k) hstacks
  simp only [Dev.stack]
  by_cases hk : k < 12
  · simpa only [vget_lt _ _ hk, Vector.getElem_map] using hstack
  · rw [vget_beyond _ _ (Nat.le_of_not_lt hk), vget_beyond _ _ (Nat.le_of_not_lt hk)]

theorem stack_emit (t : TimeUnit) (q : Option Nat) (r : EvRec) (d : Dev) (k : Nat) :
    ((d.emit t q r).stack k).sansTraffic = (d.stack k).sansTraffic := stack_of_sansRings (emit_sansRings t q r d) k

/-- A device record says what the effect that wrote it gave (R11). -/
theorem emit_wrote_device (t : TimeUnit) (r : EvRec) (d : Dev) :
    ∃ r' : EvRec, d.wrote (d.emit t none r) r' ∧ r'.cls = r.cls ∧ r'.source = r.source ∧ r'.count = r.count ∧
      r'.detail = r.detail :=
  ⟨_, emit_wrote t none r d, rfl, rfl, rfl, rfl⟩

theorem hold_emit (t : TimeUnit) (q : Option Nat) (r : EvRec) (d : Dev) : (d.emit t q r).hold = d.hold :=
  hold_of_sansOccs (emit_sansOccs t q r d)

/-! ### Entering a thermal state (R329, R330) -/

theorem raiseHold_eq (c : HoldCause) (d : Dev) : ∃ h, d.raiseHold c = { d with hold := h } := by
  unfold Dev.raiseHold
  split
  · exact ⟨d.hold, rfl⟩
  · exact ⟨_, rfl⟩

theorem raiseHold_stack (c : HoldCause) (d : Dev) (k : Nat) : (d.raiseHold c).stack k = d.stack k := by
  obtain ⟨h, hd⟩ := raiseHold_eq c d
  rw [hd]
  rfl

theorem raiseHold_records (c : HoldCause) (d : Dev) : (d.raiseHold c).records = d.records := by
  obtain ⟨h, hd⟩ := raiseHold_eq c d
  rw [hd]

/-- A stack in the thermal state that it has entered. -/
def Stack.entered (t : TimeUnit) (st : Therm) (k : Stack) : Stack :=
  { k with therm := st, normalSince := if st = .normal then some t.now else none }

/-- The CAUTION record of a stack that has become HOT (R329). -/
def hotRecord (s : Nat) (k : Stack) : EvRec :=
  { record 0x06 (stackSrc s) with count := w64 k.temp.toNat, detail := detail [(48, 1, 0x03)] }

theorem enterTherm_critical (t : TimeUnit) (s : Nat) (d : Dev) :
    d.enterTherm t s .critical = (d.modStack s (·.entered t .critical)).raiseHold (.stack s) := rfl

section
variable {t : TimeUnit} {s : Nat} {d : Dev} (hs : s < 12)
include hs

theorem enterTherm_hot (h : (d.stack s).therm = .normal) :
    d.enterTherm t s .hot = (d.modStack s (·.entered t .hot)).emit t none (hotRecord s (d.stack s)) := by
  simp only [Dev.enterTherm, h, if_true]
  rw [Dev.stack_modStack d hs]
  rfl

/-- Only a stack that becomes HOT from NORMAL writes a record (R329). -/
theorem enterTherm_quiet {st : Therm} (h : (d.stack s).therm = .normal → st ≠ .hot) :
    (d.enterTherm t s st).stack s = (d.stack s).entered t st ∧ (d.enterTherm t s st).records = d.records := by
  have hstack := Dev.stack_modStack d hs (·.entered t st)
  have hrecords := Dev.modStack_records d s (·.entered t st)
  cases st with
  | normal => exact ⟨hstack, hrecords⟩
  | hot =>
    have hold : ¬(d.stack s).therm = .normal := fun hn => h hn rfl
    simp only [Dev.enterTherm, if_neg hold]
    exact ⟨hstack, hrecords⟩
  | critical => rw [enterTherm_critical, raiseHold_stack, raiseHold_records]; exact ⟨hstack, hrecords⟩

theorem enterTherm_stack (st : Therm) :
    ((d.enterTherm t s st).stack s).sansTraffic = ((d.stack s).entered t st).sansTraffic := by
  by_cases h : (d.stack s).therm = .normal → st ≠ .hot
  · rw [(enterTherm_quiet hs h).1]
  · obtain ⟨hold, rfl⟩ : (d.stack s).therm = .normal ∧ st = .hot := by simpa using h
    rw [enterTherm_hot hs hold, stack_emit, Dev.stack_modStack d hs]

end

/-! ### The transitions in turn (R328) -/

/-- The thermal state that follows a state at a temperature and two limits; itself, when no transition applies. -/
def Therm.next (T hot crit : Nat) : Therm → Therm
  | .normal => if hot ≤ T then .hot else .normal
  | .hot => if crit ≤ T then .critical else if T + 2 ≤ hot then .normal else .hot
  | .critical => if T + 2 ≤ crit then .hot else .critical

theorem Therm.lt_hot_of_next {T hot crit : Nat} {x : Therm} (h : x.next T hot crit = .normal) : T < hot := by
  unfold Therm.next at h
  split at h <;> split_ifs at h <;> omega

/-- The state that follows a stack's. -/
def Stack.nextTherm (k : Stack) : Therm := k.therm.next k.temp.toNat k.hotC.toNat k.critC.toNat

/-- The state of a stack after some transitions at a temperature. -/
def Stack.thermAfter (k : Stack) (T n : Nat) : Therm := (Therm.next T k.hotC.toNat k.critC.toNat)^[n] k.therm

theorem thermSteps_succ (t : TimeUnit) (s fuel : Nat) (d : Dev) :
    d.thermSteps t s (fuel + 1) =
      if (d.stack s).nextTherm = (d.stack s).therm then d else (d.enterTherm t s (d.stack s).nextTherm).thermSteps t s fuel := by
  rw [Dev.thermSteps]
  cases h : (d.stack s).therm with
  | normal =>
    simp only [Stack.nextTherm, h, Therm.next]
    split <;> simp
  | hot =>
    simp only [Stack.nextTherm, h, Therm.next]
    split
    · simp
    · split <;> simp
  | critical =>
    simp only [Stack.nextTherm, h, Therm.next]
    split <;> simp

theorem thermSteps_stays {t : TimeUnit} {s : Nat} {d : Dev} (h : (d.stack s).nextTherm = (d.stack s).therm) (fuel : Nat) :
    d.thermSteps t s fuel = d := by
  cases fuel with
  | zero => rfl
  | succ fuel => rw [thermSteps_succ, if_pos h]

theorem thermSteps_moves {t : TimeUnit} {s : Nat} {d : Dev} {st : Therm} (h : (d.stack s).nextTherm = st)
    (hne : st ≠ (d.stack s).therm) (fuel : Nat) : d.thermSteps t s (fuel + 1) = (d.enterTherm t s st).thermSteps t s fuel := by
  rw [thermSteps_succ, h, if_neg hne]

section
variable {t : TimeUnit} {s : Nat} (hs : s < 12)
include hs

/-- What entering a state leaves of the figures that the transitions depend on. -/
theorem enterTherm_figures (st : Therm) (d : Dev) :
    ((d.enterTherm t s st).stack s).therm = st ∧ ((d.enterTherm t s st).stack s).temp = (d.stack s).temp ∧
      ((d.enterTherm t s st).stack s).hotC = (d.stack s).hotC ∧ ((d.enterTherm t s st).stack s).critC = (d.stack s).critC := by
  have h := enterTherm_stack (t := t) (d := d) hs st
  exact ⟨therm_of_sansTraffic h, (temp_of_sansTraffic h :), (hotC_of_sansTraffic h :), (critC_of_sansTraffic h :)⟩

/-- The transitions move a stack through its states and leave its temperature. -/
theorem thermSteps_therm (fuel : Nat) (d : Dev) :
    ((d.thermSteps t s fuel).stack s).temp = (d.stack s).temp ∧
      ((d.thermSteps t s fuel).stack s).therm = (d.stack s).thermAfter (d.stack s).temp.toNat fuel := by
  induction fuel generalizing d with
  | zero => exact ⟨rfl, rfl⟩
  | succ fuel ih =>
    by_cases h : (d.stack s).nextTherm = (d.stack s).therm
    · rw [thermSteps_stays h]
      exact ⟨rfl, (Function.iterate_fixed h _).symm⟩
    · rw [thermSteps_moves rfl h]
      obtain ⟨htherm, htemp, hhot, hcrit⟩ := enterTherm_figures (t := t) hs (d.stack s).nextTherm d
      have hstep := ih (d.enterTherm t s (d.stack s).nextTherm)
      rw [Stack.thermAfter, htherm, htemp, hhot, hcrit] at hstep
      exact hstep

/-- Transitions of a stack that does not become HOT from NORMAL write no record and count nothing (R329). -/
theorem thermSteps_quiet (fuel : Nat) {d : Dev} (h : (d.stack s).therm = .normal → (d.stack s).temp.toNat < (d.stack s).hotC.toNat) :
    ((d.thermSteps t s fuel).stack s).cnt = (d.stack s).cnt ∧ (d.thermSteps t s fuel).records = d.records := by
  induction fuel generalizing d with
  | zero => exact ⟨rfl, rfl⟩
  | succ fuel ih =>
    by_cases hnext : (d.stack s).nextTherm = (d.stack s).therm
    · rw [thermSteps_stays hnext]
      exact ⟨rfl, rfl⟩
    · rw [thermSteps_moves rfl hnext]
      have hcold : (d.stack s).therm = .normal → (d.stack s).nextTherm ≠ .hot := by
        intro hn
        simp [Stack.nextTherm, hn, Therm.next, h hn]
      obtain ⟨hstack, hrecords⟩ := enterTherm_quiet (t := t) hs hcold
      have hstep := ih (d := d.enterTherm t s (d.stack s).nextTherm) (by rw [hstack]; exact Therm.lt_hot_of_next)
      rw [hrecords, hstack] at hstep
      exact hstep

end

/-! ### A reading (R328) -/

/-- A stack once its controller has read its temperature, before it changes state (R328). -/
def Stack.tempRead (t : TimeUnit) (temp : Nat) (k : Stack) : Stack :=
  { k with
    temp := BitVec.ofNat 8 temp
    cnt := if k.therm = .normal then k.cnt else vmod k.cnt 2 (fun c => c.addLo 16)
    normalSince := if k.therm = .normal ∧ k.normalSince.isNone then some t.now else k.normalSince }

section
variable (t : TimeUnit) (temp : BitVec 8) (k : Stack)

@[simp] theorem Stack.tempRead_therm : (k.tempRead t temp.toNat).therm = k.therm := rfl
@[simp] theorem Stack.tempRead_temp : (k.tempRead t temp.toNat).temp = temp := by simp [Stack.tempRead]
@[simp] theorem Stack.tempRead_hotC : (k.tempRead t temp.toNat).hotC = k.hotC := rfl
@[simp] theorem Stack.tempRead_critC : (k.tempRead t temp.toNat).critC = k.critC := rfl

end

/-- The device after a reading of stack `s` and the transitions that it makes. -/
def Dev.tempRead (t : TimeUnit) (s temp : Nat) (d : Dev) : Dev := (d.modStack s (·.tempRead t temp)).thermSteps t s 4

theorem stackTemp_present {t : TimeUnit} {s : Nat} {d : Dev} (h : (d.stack s).present = true) (temp : Nat) :
    stackTemp s temp t d = (d.tempRead t s temp).modStack s (fun k => k.drifted.foldl (fun k ch => k.setDue ch 3) k) := by
  simp only [stackTemp, h, Bool.not_true, Bool.false_eq_true, if_false]
  rfl

/-- A stack without what makes its channels due. -/
def Stack.sansDue (k : Stack) : Stack := { k with due := 0, chans := Stack.reset.chans }

theorem setDue_sansDue (k : Stack) (ch trigger : Nat) : (k.setDue ch trigger).sansDue = k.sansDue := by
  unfold Stack.setDue
  split <;> rfl

section
variable {t : TimeUnit} {s : Nat} {d : Dev} (hs : s < 12) (hpresent : (d.stack s).present = true)
include hs hpresent

/-- What a temperature makes due changes nothing else. -/
theorem stackTemp_keeps (temp : Nat) :
    ((stackTemp s temp t d).stack s).temp = ((d.tempRead t s temp).stack s).temp ∧
      ((stackTemp s temp t d).stack s).cnt = ((d.tempRead t s temp).stack s).cnt ∧
      ((stackTemp s temp t d).stack s).therm = ((d.tempRead t s temp).stack s).therm ∧
      (stackTemp s temp t d).records = (d.tempRead t s temp).records ∧ (stackTemp s temp t d).hold = (d.tempRead t s temp).hold := by
  rw [stackTemp_present hpresent]
  generalize d.tempRead t s temp = e
  rw [Dev.stack_modStack _ hs, Dev.modStack_records, Dev.modStack_hold]
  have h := foldl_keeps Stack.sansDue _ (fun k ch => setDue_sansDue k ch 3) (e.stack s).drifted (e.stack s)
  exact ⟨(congrArg Stack.temp h :), (congrArg Stack.cnt h :), (congrArg Stack.therm h :), rfl, rfl⟩

end

/-- A reading that does not take the stack from NORMAL to HOT writes no record, and counts the time outside NORMAL (R328, R335). -/
theorem tempRead_quiet {t : TimeUnit} {s : Nat} (hs : s < 12) {d : Dev} (temp : BitVec 8)
    (h : (d.stack s).therm = .normal → temp.toNat < (d.stack s).hotC.toNat) :
    ((d.tempRead t s temp.toNat).stack s).cnt =
        (if (d.stack s).therm = .normal then (d.stack s).cnt else vmod (d.stack s).cnt 2 (fun c => c.addLo 16)) ∧
      (d.tempRead t s temp.toNat).records = d.records := by
  have hquiet := thermSteps_quiet (t := t) hs 4 (d := d.modStack s (·.tempRead t temp.toNat))
  rw [Dev.stack_modStack d hs, Dev.modStack_records, Stack.tempRead_temp] at hquiet
  exact hquiet h

theorem tempRead_therm (t : TimeUnit) {s : Nat} (hs : s < 12) (d : Dev) (temp : BitVec 8) :
    ((d.tempRead t s temp.toNat).stack s).temp = temp ∧
      ((d.tempRead t s temp.toNat).stack s).therm = (d.stack s).thermAfter temp.toNat 4 := by
  have h := thermSteps_therm (t := t) hs 4 (d.modStack s (·.tempRead t temp.toNat))
  rw [Dev.stack_modStack d hs, Stack.tempRead_temp] at h
  exact h

/-- A stack that becomes HOT from NORMAL writes a CAUTION with its temperature, and nothing after it writes more (R329). -/
theorem tempRead_caution {t : TimeUnit} {s : Nat} (hs : s < 12) {d : Dev} {temp : BitVec 8} (h : (d.stack s).therm = .normal)
    (hhot : (d.stack s).hotC.toNat ≤ temp.toNat) :
    ∃ r : EvRec, d.wrote (d.tempRead t s temp.toNat) r ∧ r.cls = 0x06 ∧ r.count = w64 temp.toNat ∧ fld r.detail.toNat 0 8 = 3 := by
  let read := d.modStack s (·.tempRead t temp.toNat)
  have hread : read.stack s = (d.stack s).tempRead t temp.toNat := Dev.stack_modStack d hs _
  have hnormal : (read.stack s).therm = .normal := by rw [hread, Stack.tempRead_therm, h]
  have htemp : (read.stack s).temp = temp := by rw [hread, Stack.tempRead_temp]
  have hnext : (read.stack s).nextTherm = .hot := by
    rw [Stack.nextTherm, hnormal, htemp, hread, Stack.tempRead_hotC]
    exact if_pos hhot
  have hmoves : d.tempRead t s temp.toNat = (read.enterTherm t s .hot).thermSteps t s 3 :=
    thermSteps_moves hnext (by rw [hnormal]; decide) 3
  have hquiet : (d.tempRead t s temp.toNat).records = (read.enterTherm t s .hot).records := by
    have hthen := (enterTherm_figures (t := t) hs .hot read).1
    rw [hmoves, (thermSteps_quiet hs 3 (by simp [hthen])).2]
  obtain ⟨r, ⟨later, hlater⟩, hcls, -, hcount, hdetail⟩ :=
    emit_wrote_device t (hotRecord s (read.stack s)) (read.modStack s (·.entered t .hot))
  refine ⟨r, ⟨later, ?_⟩, hcls, ?_, hdetail ▸ detail_cause 3 (rest := []) (by simp)⟩
  · rw [hquiet, enterTherm_hot hs hnormal, hlater]
    simp only [read, Dev.modStack_records]
  · rw [hcount, hotRecord, htemp]

/-! ### CRITICAL and HOLD (R330) -/

theorem raiseHold_raised {c : HoldCause} {d : Dev} (hraised : d.hold.raised = []) (hown : d.hold.own = []) :
    (d.raiseHold c).hold.raised = [c] := by
  simp [Dev.raiseHold, hraised, hown]

section
variable {t : TimeUnit} {s : Nat} {d : Dev} (hs : s < 12) (hraised : d.hold.raised = []) (hown : d.hold.own = [])
  (hcrit : (d.stack s).critC.toNat ≤ (d.stack s).temp.toNat)
include hs hraised hown hcrit

theorem thermSteps_hot_raises (h : (d.stack s).therm = .hot) (fuel : Nat) : (d.thermSteps t s (fuel + 1)).hold.raised = [.stack s] := by
  have hnext : (d.stack s).nextTherm = .critical := by simp [Stack.nextTherm, h, Therm.next, hcrit]
  obtain ⟨htherm, htemp, -, hcritC⟩ := enterTherm_figures (t := t) hs .critical d
  have hstays : ((d.enterTherm t s .critical).stack s).nextTherm = ((d.enterTherm t s .critical).stack s).therm := by
    rw [Stack.nextTherm, htherm, htemp, hcritC, Therm.next, if_neg (by omega)]
  rw [thermSteps_moves hnext (by rw [h]; decide), thermSteps_stays hstays, enterTherm_critical]
  exact raiseHold_raised hraised hown

theorem thermSteps_normal_raises (h : (d.stack s).therm = .normal) (hhot : (d.stack s).hotC.toNat ≤ (d.stack s).temp.toNat) (fuel : Nat) :
    (d.thermSteps t s (fuel + 2)).hold.raised = [.stack s] := by
  have hnext : (d.stack s).nextTherm = .hot := by simp [Stack.nextTherm, h, Therm.next, hhot]
  obtain ⟨htherm, htemp, -, hcritC⟩ := enterTherm_figures (t := t) hs .hot d
  have hhold : (d.enterTherm t s .hot).hold = d.hold := by rw [enterTherm_hot hs h, hold_emit, Dev.modStack_hold]
  rw [thermSteps_moves hnext (by rw [h]; decide)]
  exact thermSteps_hot_raises hs (hhold ▸ hraised) (hhold ▸ hown) (by rw [hcritC, htemp]; exact hcrit) htherm fuel

end

theorem tempRead_raises {t : TimeUnit} {s : Nat} (hs : s < 12) {d : Dev} {temp : BitVec 8} (hne : (d.stack s).therm ≠ .critical)
    (hlimits : (d.stack s).hotC.toNat ≤ (d.stack s).critC.toNat) (hcrit : (d.stack s).critC.toNat ≤ temp.toNat)
    (hraised : d.hold.raised = []) (hown : d.hold.own = []) : (d.tempRead t s temp.toNat).hold.raised = [.stack s] := by
  let read := d.modStack s (·.tempRead t temp.toNat)
  have hread : read.stack s = (d.stack s).tempRead t temp.toNat := Dev.stack_modStack d hs _
  have htemp : (read.stack s).temp = temp := by rw [hread, Stack.tempRead_temp]
  have hcritRead : (read.stack s).critC.toNat ≤ (read.stack s).temp.toNat := by rw [htemp, hread, Stack.tempRead_critC]; exact hcrit
  have hhotRead : (read.stack s).hotC.toNat ≤ (read.stack s).temp.toNat := by rw [htemp, hread, Stack.tempRead_hotC]; exact hlimits.trans hcrit
  have htherm : (read.stack s).therm = (d.stack s).therm := by rw [hread, Stack.tempRead_therm]
  cases h : (d.stack s).therm with
  | normal => exact thermSteps_normal_raises (d := read) hs hraised hown hcritRead (htherm.trans h) hhotRead 2
  | hot => exact thermSteps_hot_raises (d := read) hs hraised hown hcritRead (htherm.trans h) 3
  | critical => exact absurd h hne

/-! ### Where the transitions end (R328) -/

section
variable {k : Stack} {T : Nat}

/-- A stack that no transition moves. -/
theorem thermAfter_stays (h : k.therm.next T k.hotC.toNat k.critC.toNat = k.therm) (n : Nat) : k.thermAfter T n = k.therm :=
  Function.iterate_fixed h n

/-- One transition, to a state that stays. -/
theorem thermAfter_moves {y : Therm} (h : k.therm.next T k.hotC.toNat k.critC.toNat = y)
    (hy : y.next T k.hotC.toNat k.critC.toNat = y) (n : Nat) : k.thermAfter T (n + 1) = y := by
  rw [Stack.thermAfter, Function.iterate_succ_apply, h, Function.iterate_fixed hy]

theorem thermAfter_normal_cold (h : k.therm = .normal) (hlow : T < k.hotC.toNat) (n : Nat) : k.thermAfter T n = .normal := by
  rw [thermAfter_stays (by rw [h]; exact if_neg (by omega)), h]

theorem thermAfter_normal_hot (h : k.therm = .normal) (hhot : k.hotC.toNat ≤ T) (hlow : T < k.critC.toNat) (n : Nat) :
    k.thermAfter T (n + 1) = .hot := by
  refine thermAfter_moves (by rw [h]; exact if_pos hhot) ?_ n
  rw [Therm.next, if_neg (by omega), if_neg (by omega)]

theorem thermAfter_hot_cooled (h : k.therm = .hot) (hlow : T + 2 ≤ k.hotC.toNat) (hlimits : k.hotC.toNat ≤ k.critC.toNat) (n : Nat) :
    k.thermAfter T (n + 1) = .normal := by
  have hnormal : Therm.next T k.hotC.toNat k.critC.toNat .normal = .normal := if_neg (by omega)
  refine thermAfter_moves ?_ hnormal n
  rw [h, Therm.next, if_neg (by omega), if_pos hlow]

theorem thermAfter_hot_stays (h : k.therm = .hot) (hhot : k.hotC.toNat < T + 2) (hlow : T < k.critC.toNat) (n : Nat) :
    k.thermAfter T n = .hot := by
  rw [thermAfter_stays (by rw [h, Therm.next, if_neg (by omega), if_neg (by omega)]), h]

theorem thermAfter_critical_stays (h : k.therm = .critical) (hhigh : k.critC.toNat < T + 2) (n : Nat) : k.thermAfter T n = .critical := by
  rw [thermAfter_stays (by rw [h]; exact if_neg (by omega)), h]

theorem thermAfter_critical (hlimits : k.hotC.toNat ≤ k.critC.toNat) (hhigh : k.critC.toNat ≤ T) (n : Nat) :
    k.thermAfter T (n + 2) = .critical := by
  have hcritical : Therm.next T k.hotC.toNat k.critC.toNat .critical = .critical := if_neg (by omega)
  have hhot : Therm.next T k.hotC.toNat k.critC.toNat .hot = .critical := if_pos hhigh
  cases h : k.therm with
  | normal =>
    rw [Stack.thermAfter, h, Function.iterate_succ_apply, show Therm.next _ _ _ .normal = .hot from if_pos (hlimits.trans hhigh),
      Function.iterate_succ_apply, hhot, Function.iterate_fixed hcritical]
  | hot => exact thermAfter_moves (h ▸ hhot) hcritical (n + 1)
  | critical => exact thermAfter_critical_stays h (by omega) _

end

/-- Settles O46: a reading moves the stack through the states that its limits give; only HOT from NORMAL writes a record, and CRITICAL
raises the hold. -/
theorem stackTemperatureMovesStates : Obligations.StackTemperatureMovesStates := by
  intro s k temp hpresent d x T hlimits
  have hs := k.isLt
  obtain ⟨htemp, hcnt, htherm, hrecords, hhold⟩ := stackTemp_keeps (t := s.time) hs hpresent T
  have hread := tempRead_therm s.time hs d temp
  have hstate {st : Therm} (h : x.thermAfter T 4 = st) : ((stackTemp k T s.time d).stack k).therm = st :=
    htherm.trans (hread.2.trans h)
  have hquiet := tempRead_quiet (t := s.time) hs (d := d) temp
  refine ⟨stackTemp k T s.time d, ?_, ?_, fun hne => ?counted, fun hn hlow => ?uncounted,
    fun hn hlow => ⟨hstate (thermAfter_normal_cold hn hlow 4), hrecords.trans (hquiet (fun _ => hlow)).2⟩, fun hn hhot => ?caution,
    fun hn hhot hlow => hstate (thermAfter_normal_hot hn hhot hlow 3), fun hh hlow => hstate (thermAfter_hot_cooled hh hlow hlimits 3),
    fun hh hhot hlow => hstate (thermAfter_hot_stays hh hhot hlow 4), fun hhigh => hstate (thermAfter_critical hlimits hhigh 2),
    fun hne hhigh hraised hown => ?raises,
    fun hc hhigh => hstate (thermAfter_critical_stays hc hhigh 4)⟩
  · rw [exec_stackTempReading, execStackTempReading]
    exact run_of_eq rfl
  · exact htemp.trans hread.1
  case counted => exact hcnt.trans ((hquiet (fun hn => absurd hn hne)).1.trans (if_neg hne))
  case uncounted => exact hcnt.trans ((hquiet (fun _ => hlow)).1.trans (if_pos hn))
  case raises => rw [hhold]; exact tempRead_raises hs hne hlimits hhigh hraised hown
  case caution =>
    obtain ⟨r, ⟨later, hlater⟩, hfields⟩ := tempRead_caution (t := s.time) hs hn hhot
    exact ⟨r, ⟨later, hrecords.trans hlater⟩, hfields⟩

end Sys2Proof.Machine
end

section
/-! Proofs of retraining, map-out and cooling of a stack (R321, R322, R323, R325, R326, R331, R333). -/

namespace Sys2Proof.Machine

/-! ### Bits of a channel mask -/

section
variable (m : BitVec 16) {ch : Nat}

theorem testBit_chan (hch : ch < 16) (i : Nat) : (BitVec.ofNat 16 (2 ^ ch)).toNat.testBit i = decide (ch = i) := by
  rw [BitVec.toNat_ofNat, Nat.mod_eq_of_lt (Nat.pow_lt_pow_right (by decide) hch), Nat.testBit_two_pow]

theorem testBit_or_chan (hch : ch < 16) : (m ||| BitVec.ofNat 16 (2 ^ ch)).toNat.testBit ch = true := by
  rw [BitVec.toNat_or, Nat.testBit_or, testBit_chan hch, decide_eq_true rfl, Bool.or_true]

theorem testBit_and_not_chan (hch : ch < 16) : (m &&& ~~~BitVec.ofNat 16 (2 ^ ch)).toNat.testBit ch = false := by
  rw [BitVec.testBit_toNat, BitVec.getLsbD_and, BitVec.getLsbD_not, ← BitVec.testBit_toNat (BitVec.ofNat 16 _), testBit_chan hch]
  simp

end

/-! ### Age and the start of an emergency retraining (R321 to R323) -/

theorem retrainAge_due {s ch : Nat} {t : TimeUnit} {d : Dev} (hin : (d.stack s).inService.toNat.testBit ch = true)
    (hage : (vget Channel.reset (d.stack s).chans ch).trainTime + 86400000000000 ≤ t.now) :
    retrainAge s ch t d = d.modStack s (·.setDue ch 4) := if_pos ⟨hin, hage⟩

/-- A stack that begins an emergency retraining of a channel, which it counts (R323, R335). -/
def Stack.emergencyBegun (ch : Nat) (t : TimeUnit) (trigger : Nat) (k : Stack) : Stack :=
  { k.startTraining ch trigger t.now true with cnt := vmod k.cnt 0 (fun c => c.addLo 1) }

section
variable (ch : Nat) (t : TimeUnit) (trigger : Nat) (k : Stack)

@[simp] theorem Stack.emergencyBegun_cnt : (k.emergencyBegun ch t trigger).cnt = vmod k.cnt 0 (fun c => c.addLo 1) := rfl
@[simp] theorem Stack.emergencyBegun_failed : (k.emergencyBegun ch t trigger).failed = k.failed := rfl
@[simp] theorem Stack.emergencyBegun_training :
    (k.emergencyBegun ch t trigger).training = k.training ||| BitVec.ofNat 16 (2 ^ ch) := rfl

end

/-- The record of that beginning (R323, R333). -/
def Dev.emergencyRecord (s ch : Nat) (t : TimeUnit) (trigger : Nat) (d : Dev) : EvRec :=
  retrainRecord s 2 ch 0 trigger 0 ((t.now + 40000) / t.slotLen) (!(d.hold.paused || d.inMaint t))

theorem emergencyStart_begins {s ch : Nat} {t : TimeUnit} {d : Dev} (hin : (d.stack s).inService.toNat.testBit ch = true)
    (hfailed : (d.stack s).failed.toNat.testBit ch = false) (htraining : (d.stack s).training.toNat.testBit ch = false)
    (hemerg : (d.stack s).emerg = true) (htrigger : (d.stack s).trigger ch t.now ≠ 0)
    (hfirst : (vget Channel.reset (d.stack s).chans ch).lastEnd = none) :
    emergencyStart s ch t d = (((d.modStack s (·.emergencyBegun ch t ((d.stack s).trigger ch t.now))).emit t none
      (d.emergencyRecord s ch t ((d.stack s).trigger ch t.now))).retrainWithdraw t s).2 := by
  simp only [emergencyStart, hin, hfailed, htraining, hemerg, htrigger, hfirst, optAll, Bool.not_true, Bool.false_eq_true, or_self,
    if_false]
  rfl

/-! ### The end of a retraining (R321, R323) -/

/-- A stack whose channel has come back into service with its lanes (R321, R323). -/
def Stack.trained (t : TimeUnit) (ch : Nat) (emergency : Bool) (k : Stack) : Stack :=
  let k2 : Stack := { k with
    training := k.training &&& ~~~BitVec.ofNat 16 (2 ^ ch)
    due := k.due &&& ~~~BitVec.ofNat 16 (2 ^ ch)
    chans := vmod k.chans ch (fun c => { c with
      trainTemp := k.temp.toNat, trainTime := t.now, emergency := false
      lastEnd := if emergency then some t.now else c.lastEnd }) }
  if emergency then k2.setDue ch 0 else k2

/-- The record of a retraining that converged without losing a lane (R333). -/
def Dev.trainedRecord (t : TimeUnit) (s ch : Nat) (emergency : Bool) (d : Dev) : EvRec :=
  let c := vget Channel.reset (d.stack s).chans ch
  retrainRecord s (if emergency then 2 else 1) ch 1 c.trigger (t.now - c.started) t.slot false

/-- A part of a file put back as it was. -/
theorem vmod_vget {α : Type} {n : Nat} (x : α) (v : Vector α n) (i : Nat) : vmod v i (fun _ => vget x v i) = v := by
  refine Vector.ext fun j hj => ?_
  rw [vmod, Vector.getElem_ofFn]
  split
  · next h =>
    subst h
    exact vget_lt x v hj
  · rfl

theorem modStack_stack (d : Dev) (s : Nat) : d.modStack s (fun _ => d.stack s) = d := by
  rw [Dev.modStack, Dev.stack, vmod_vget]

theorem trainEnd_converged {t : TimeUnit} {s ch : Nat} {d : Dev} {emergency : Bool}
    (htraining : (d.stack s).training.toNat.testBit ch = true)
    (hemergency : (vget Channel.reset (d.stack s).chans ch).emergency = emergency) :
    d.trainEnd t s ch emergency true [] = (d.modStack s (·.trained t ch emergency)).emit t none (d.trainedRecord t s ch emergency) := by
  simp only [Dev.trainEnd, htraining, hemergency, Stack.repair, List.foldl_nil]
  simp only [Bool.not_true, ne_eq, not_true_eq_false, Bool.false_eq_true, or_self, or_false, if_false, if_true, List.isEmpty_nil,
    modStack_stack]
  rfl

section
variable (t : TimeUnit) {ch : Nat} (k : Stack)

@[simp] theorem Stack.trained_training (emergency : Bool) :
    (k.trained t ch emergency).training = k.training &&& ~~~BitVec.ofNat 16 (2 ^ ch) := by
  cases emergency with
  | false => rfl
  | true => exact congrArg (·.training) (setDue_sansDue _ ch 0)

@[simp] theorem Stack.trained_failed (emergency : Bool) : (k.trained t ch emergency).failed = k.failed := by
  cases emergency with
  | false => rfl
  | true => exact congrArg (·.failed) (setDue_sansDue _ ch 0)

/-- A channel that scheduled retraining brings back is due no more (R321). -/
@[simp] theorem Stack.trained_due_scheduled : (k.trained t ch false).due = k.due &&& ~~~BitVec.ofNat 16 (2 ^ ch) := rfl

/-- A channel that emergency retraining brings back is due for scheduled retraining (R323). -/
theorem Stack.trained_due_emergency (hch : ch < 16) : (k.trained t ch true).due.toNat.testBit ch = true := by
  simp only [Stack.trained, Stack.setDue, if_true]
  split
  · assumption
  · exact testBit_or_chan _ hch

end

/-- What the end of a retraining that converged without losing a lane leaves of the stack, and its record (R321, R323, R333). -/
theorem trainEnd_keeps {t : TimeUnit} {s ch : Nat} (hs : s < 12) {d : Dev} {emergency : Bool}
    (htraining : (d.stack s).training.toNat.testBit ch = true)
    (hemergency : (vget Channel.reset (d.stack s).chans ch).emergency = emergency) :
    ((d.trainEnd t s ch emergency true []).stack s).sansTraffic = ((d.stack s).trained t ch emergency).sansTraffic ∧
      ∃ r : EvRec, d.wrote (d.trainEnd t s ch emergency true []) r ∧ r.cls = 0x08 := by
  rw [trainEnd_converged htraining hemergency]
  obtain ⟨r, ⟨later, hlater⟩, hcls, -⟩ :=
    emit_wrote_device t (d.trainedRecord t s ch emergency) (d.modStack s (·.trained t ch emergency))
  rw [Dev.modStack_records] at hlater
  exact ⟨by rw [stack_emit, Dev.stack_modStack d hs], r, ⟨later, hlater⟩, hcls⟩

/-! ### Map-out and the fill that follows (R326, R327) -/

@[simp] theorem Dev.repairDue_stack (d : Dev) (s : Nat) : d.repairDue.stack s = d.stack s := Dev.stack_modBox d s _
@[simp] theorem Dev.repairDue_mem (d : Dev) : d.repairDue.mem = d.mem := Dev.modBox_mem d _

/-- Whether fewer than 8 channels are left of a stack, so that the whole of it goes (R327). -/
def Stack.goes (k : Stack) : Bool := decide (popCount 16 (k.inService &&& ~~~k.failed).toNat < 8)

/-- The failed channels that leave service with a map-out (R326). -/
def Stack.goneChannels (k : Stack) : List Nat := maskBits 16 (k.inService &&& k.failed).toNat

/-- A stack whose failed channels, as `old` has them, have left service (R326, R327). -/
def Stack.mappedOut (t : TimeUnit) (old k : Stack) : Stack :=
  { k with failed := 0, inService := if old.goes then 0 else old.inService &&& ~~~old.failed, present := k.present && !old.goes
           filling := !old.goes, fillStart := t.now, mapped := old.goneChannels, merge := [] }

/-- The device with those channels out of service. -/
def Dev.mappedOut (t : TimeUnit) (s : Nat) (d : Dev) : Dev := (d.modStack s (fun k => (d.stack s).mappedOut t k)).repairDue

/-- The record of a stack that goes whole (R327, R334). -/
def Dev.goneRecord (t : TimeUnit) (s : Nat) (d : Dev) : EvRec :=
  (d.mappedOut t s).mappedRecord s 0xFF (vget Channel.reset (d.stack s).chans ((d.stack s).goneChannels.headD 0)).reason

theorem channelMapOut_boundary {t : TimeUnit} {s : Nat} {d : Dev} (hfailed : (d.stack s).failed ≠ 0)
    (hfilling : (d.stack s).filling = false) (hnames : d.namesStack s = false) (hedge : t.now % t.slotLen = 0) :
    channelMapOut s t d =
      if (d.stack s).goes then ((d.mappedOut t s).emit t none (d.goneRecord t s)).bondDue else d.mappedOut t s := by
  simp only [channelMapOut, hfailed, hfilling, hnames, hedge, ne_eq, not_true_eq_false, Bool.false_eq_true, or_self, if_false, Stack.goes,
    decide_eq_true_eq, Dev.goneRecord, Dev.mappedOut, Stack.mappedOut, Stack.goneChannels]

theorem mappedOut_stack (t : TimeUnit) {s : Nat} (hs : s < 12) (d : Dev) :
    (d.mappedOut t s).stack s = (d.stack s).mappedOut t (d.stack s) := by
  rw [Dev.mappedOut, Dev.repairDue_stack, Dev.stack_modStack d hs]

/-- A map-out leaves no channel failed: the stack goes, or poison will be written over what is left of it (R326, R327). -/
theorem channelMapOut_maps {t : TimeUnit} {s : Nat} (hs : s < 12) {d : Dev} (hfailed : (d.stack s).failed ≠ 0)
    (hfilling : (d.stack s).filling = false) (hnames : d.namesStack s = false) (hedge : t.now % t.slotLen = 0) :
    ((channelMapOut s t d).stack s).failed = 0 ∧
      (((channelMapOut s t d).stack s).present = false ∨
        (((channelMapOut s t d).stack s).filling = true ∧ (channelMapOut s t d).mem = d.mem)) := by
  rw [channelMapOut_boundary hfailed hfilling hnames hedge]
  have hstack := mappedOut_stack t hs d
  cases hgoes : (d.stack s).goes with
  | true =>
    have hemit := stack_emit t none (d.goneRecord t s) (d.mappedOut t s) s
    rw [hstack] at hemit
    have hpresent : ((d.stack s).mappedOut t (d.stack s)).present = false := by simp [Stack.mappedOut, hgoes]
    exact ⟨failed_of_sansTraffic hemit, .inl ((present_of_sansTraffic hemit).trans hpresent)⟩
  | false =>
    have hfills : ((d.stack s).mappedOut t (d.stack s)).filling = true := by simp [Stack.mappedOut, hgoes]
    rw [if_neg Bool.false_ne_true, hstack]
    refine ⟨rfl, .inr ⟨hfills, ?_⟩⟩
    rw [Dev.mappedOut, Dev.repairDue_mem, Dev.modStack_mem]

/-- The device once poison stands in the populated part of a stack (R326). -/
def Dev.poisoned (s : Nat) (d : Dev) : Dev :=
  (d.modMem (·.fillRange (hbmBase s) ((d.stack s).c * 0x200000000) true)).modStack s (fun k => { k with filling := false, mapped := [] })

/-- The CHANNEL_MAPPED_OUT records of the channels that a map-out took, written in turn (R326, R334). -/
def Dev.mappedRecords (t : TimeUnit) (s : Nat) (old : Stack) (chs : List Nat) (d : Dev) : Dev :=
  chs.foldl (fun (d : Dev) ch => d.emit t none (d.mappedRecord s ch (vget Channel.reset old.chans ch).reason)) d

theorem mappedRecords_stack (t : TimeUnit) (s : Nat) (old : Stack) (chs : List Nat) (d : Dev) :
    ((d.mappedRecords t s old chs).stack s).sansTraffic = (d.stack s).sansTraffic :=
  foldl_keeps (fun d : Dev => (d.stack s).sansTraffic) _ (fun d _ => stack_emit t none _ d s) chs d

theorem mappedRecords_length (t : TimeUnit) (s : Nat) (old : Stack) (chs : List Nat) (d : Dev) :
    d.records.length + chs.length ≤ (d.mappedRecords t s old chs).records.length := by
  induction chs generalizing d with
  | nil => exact le_rfl
  | cons ch chs ih =>
    let r := d.mappedRecord s ch (vget Channel.reset old.chans ch).reason
    obtain ⟨r', ⟨later, hlater⟩, -⟩ := emit_wrote_device t r d
    have hrest : (d.emit t none r).records.length + chs.length ≤ (d.mappedRecords t s old (ch :: chs)).records.length := ih _
    rw [hlater] at hrest
    simp only [List.length_append, List.length_cons] at hrest ⊢
    omega

theorem poisonFillDone_filling {t : TimeUnit} {s : Nat} {d : Dev} (h : (d.stack s).filling = true) :
    poisonFillDone s t d = ((d.poisoned s).mappedRecords t s (d.stack s) (d.stack s).mapped).bondDue := by
  simp only [poisonFillDone, h, Bool.not_true, Bool.false_eq_true, if_false]
  rfl

/-- What the end of a fill leaves of the stack, its records, and memory where no record is written (R326). -/
theorem poisonFillDone_keeps {t : TimeUnit} {s : Nat} (hs : s < 12) {d : Dev} (h : (d.stack s).filling = true) :
    ((poisonFillDone s t d).stack s).filling = false ∧ ((poisonFillDone s t d).stack s).mapped = [] ∧
      d.records.length + (d.stack s).mapped.length ≤ (poisonFillDone s t d).records.length ∧
      ((d.stack s).mapped = [] →
        (poisonFillDone s t d).mem = d.mem.fillRange (hbmBase s) ((d.stack s).c * 0x200000000) true) := by
  have hpoisoned : (d.poisoned s).stack s = { d.stack s with filling := false, mapped := [] } := by
    rw [Dev.poisoned, Dev.stack_modStack _ hs, Dev.stack_modMem]
  have hrecords : (d.poisoned s).records = d.records := by rw [Dev.poisoned, Dev.modStack_records, Dev.modMem_records]
  have hmem : (d.poisoned s).mem = d.mem.fillRange (hbmBase s) ((d.stack s).c * 0x200000000) true := by
    rw [Dev.poisoned, Dev.modStack_mem]
    rfl
  have hstack := mappedRecords_stack t s (d.stack s) (d.stack s).mapped (d.poisoned s)
  have hlength := mappedRecords_length t s (d.stack s) (d.stack s).mapped (d.poisoned s)
  rw [hpoisoned] at hstack
  rw [hrecords] at hlength
  rw [poisonFillDone_filling h]
  refine ⟨filling_of_sansTraffic hstack, mapped_of_sansTraffic hstack, hlength, fun hnone => ?_⟩
  rw [hnone]
  exact hmem

/-! ### Cooling (R331) -/

/-- RESUME of a stack's hold leaves this device no hold of its own, and its causes as they were (R63, R331). -/
theorem stackCool_resumes {t : TimeUnit} {s seq : Nat} {d : Dev} (hclear : d.cleared t (.stack s) = true)
    (hown : d.hold.own = [(.stack s, seq)]) :
    (stackCool s t d).hold.own = [] ∧ (stackCool s t d).hold.raised = d.hold.raised := by
  obtain ⟨slot, -, hhold⟩ := sendResume_hold (t := t) (d := d) (c := .stack s) (c' := .stack s) (seq := seq) (by simp [hown])
  rw [stackCool, if_pos hclear, hhold]
  exact ⟨by simp [Hold.remember, hown], rfl⟩

/-- Settles O47: each event takes the branch of its rule that the hypotheses select, and the records that it writes leave the stack. -/
theorem channelsRetrainFailAndMapOut : Obligations.ChannelsRetrainFailAndMapOut := by
  intro s k ch d t x c
  have hk := k.isLt
  refine ⟨fun hin hage => ?age, fun hin hfailed htraining hemerg htrigger hfirst => ?begins, fun htraining => ⟨fun hc => ?scheduled,
    fun hc => ?emergency⟩, fun hfailed hfilling hnames hedge => ⟨?mapsOut, channelMapOut_maps hk hfailed hfilling hnames hedge⟩,
    fun hfilling => ⟨?fills, poisonFillDone_keeps hk hfilling⟩,
    fun seq hclear hown => ⟨stackCool k t d, ?cools, stackCool_resumes hclear hown⟩⟩
  case age =>
    rw [exec_retrainDueAge, execRetrainDueAge]
    exact run_of_eq (retrainAge_due hin hage)
  case begins =>
    intro began noted
    have hbegan : began.stack k = x.emergencyBegun ch t (x.trigger ch t.now) := Dev.stack_modStack d hk _
    have hnoted := stack_emit t none (d.emergencyRecord k ch t (x.trigger ch t.now)) began k
    rw [hbegan] at hnoted
    obtain ⟨r, hwrote, hcls, -⟩ := emit_wrote_device t (d.emergencyRecord k ch t (x.trigger ch t.now)) began
    refine ⟨?_, by rw [hbegan, Stack.emergencyBegun_cnt], ?_, (failed_of_sansTraffic hnoted).trans (x.emergencyBegun_failed ..), r,
      hwrote, hcls⟩
    · rw [exec_emergencyRetrainStart, execEmergencyRetrainStart]
      exact run_of_eq (congrArg (·.goOn t) (emergencyStart_begins hin hfailed htraining hemerg htrigger hfirst))
    · rw [show (noted.stack k).training = _ from (training_of_sansTraffic hnoted).trans (x.emergencyBegun_training ..)]
      exact testBit_or_chan _ ch.isLt
  case scheduled =>
    intro d'
    obtain ⟨hstack, hwrote⟩ := trainEnd_keeps (t := t) hk htraining hc
    refine ⟨?_, ?_, (failed_of_sansTraffic hstack).trans (x.trained_failed t false), due_of_sansTraffic hstack, hwrote⟩
    · rw [exec_scheduledRetrainEnd, execScheduledRetrainEnd]
      exact run_of_eq rfl
    · rw [show (d'.stack k).training = _ from (training_of_sansTraffic hstack).trans (x.trained_training t false)]
      exact testBit_and_not_chan _ ch.isLt
  case emergency =>
    intro d'
    obtain ⟨hstack, hwrote⟩ := trainEnd_keeps (t := t) hk htraining hc
    refine ⟨?_, ?_, ?_, (failed_of_sansTraffic hstack).trans (x.trained_failed t true), hwrote⟩
    · rw [exec_emergencyRetrainEnd, execEmergencyRetrainEnd]
      exact run_of_eq rfl
    · rw [show (d'.stack k).training = _ from (training_of_sansTraffic hstack).trans (x.trained_training t true)]
      exact testBit_and_not_chan _ ch.isLt
    · rw [show (d'.stack k).due = _ from due_of_sansTraffic hstack]
      exact x.trained_due_emergency t ch.isLt
  case mapsOut =>
    rw [exec_channelMapOut, execChannelMapOut]
    exact run_of_eq rfl
  case fills =>
    rw [exec_poisonFillDone, execPoisonFillDone]
    exact run_of_eq rfl
  case cools =>
    rw [exec_stackCoolExpiry, execStackCoolExpiry]
    exact run_of_eq rfl

end Sys2Proof.Machine
end

section
/-! Proofs of what controllers and scrubbers do by themselves: write-backs, the merge buffer, scrub steps, zeroed regions, bank copies and
injections (R318, R345, R347, R360 to R362, R502). -/

namespace Sys2Proof.Machine

/-! ### Write-backs (R347) -/

theorem correctionWriteback_waits {a : Nat} {d : Dev} (h : d.mem.backs.contains a = true) :
    correctionWriteback a d = d.modMem (·.fix a) := if_pos h

/-! ### Checks that find nothing (R347, R348, R360) -/

/-- Nothing for any controller to find: no stored error, and no report of a stack's dies. -/
def Dev.flawless (d : Dev) : Prop := d.mem.errs = [] ∧ ∀ k : Fin 12, (d.stack k).dies = []

section
variable {t : TimeUnit} {d : Dev} (hd : d.flawless)
include hd

theorem clean_of_flawless (s : Nat) : d.clean s := by
  obtain ⟨herrs, hdies⟩ := hd
  refine ⟨herrs, ?_⟩
  by_cases hs : s < 12
  · exact hdies ⟨s, hs⟩
  · rw [Dev.stack, vget_beyond _ _ (Nat.le_of_not_lt hs)]
    rfl

theorem checkWords_flawless (q : Option Nat) (a n : Nat) (need : Nat → Bool) (scrub : Bool) (kind : Nat) :
    d.checkWords t q a n need scrub kind = ([], d) := by
  have herrs : d.mem.errs = [] := hd.1
  have hcells : ((List.range n).map (a + ·)).filter (fun x => need x && tabGet 0 d.mem.errs x != 0) = [] := by
    simp [herrs, tabGet]
  unfold Dev.checkWords
  dsimp only
  split
  · exact checkSectors_clean (clean_of_flawless hd _) q scrub kind _ _
  · rw [hcells]
    rfl
  · rfl

theorem check_flawless (howed : d.owed = []) (q : Option Nat) (a n : Nat) (need : Nat → Bool) (scrub : Bool) (kind : Nat) :
    d.check t q a n need scrub kind = d := by
  have hrange : d.checkRange t q a n need scrub kind = d := by
    unfold Dev.checkRange
    split
    · rfl
    · rw [checkWords_flawless hd]
      rfl
  rw [Dev.check, hrange, flushOwed_nothing howed]

end

/-! ### Scrubbing (R360, R361) -/

/-- A step of a scrubber inside its lap that finds nothing moves its place (R360). -/
theorem scrubStep_moves {n : Nat} (hn : n < 80) {t : TimeUnit} {d : Dev} (hen : (d.integ n).scrubEn = true)
    (hsize : d.scrubSize (blockAt n) ≠ 0) (hretired : d.isRetired (d.regionAt (scrubAddr (blockAt n) (d.integ n).scrubPos)) = false)
    (hfailed : d.isFailed (d.regionAt (scrubAddr (blockAt n) (d.integ n).scrubPos)) = false)
    (hwait : d.mustWait (scrubAddr (blockAt n) (d.integ n).scrubPos) (scrubUnit (blockAt n)) = false) (hd : d.flawless)
    (howed : d.owed = [])
    (hlap : (d.integ n).scrubPos + scrubUnit (blockAt n) < (lapRange (blockAt n) (d.scrubSize (blockAt n)) (d.integ n).scrubPos).2) :
    scrubStep n t d = d.modInteg n (fun g => { g with scrubPos := g.scrubPos + scrubUnit (blockAt n) }) := by
  simp only [scrubStep, hen, hsize, hretired, hfailed, hwait, check_flawless hd howed, Dev.integ_modInteg d hn, Nat.not_le.mpr hlap,
    Bool.not_true, Bool.false_eq_true, or_self, if_false]

/-- What changes no more than writing a record may leaves an integrity block, but for what the ring writes log. -/
theorem integ_of_sansRings {d e : Dev} (h : d.sansRings = e.sansRings) (n : Nat) : (d.integ n).sansTraffic = (e.integ n).sansTraffic := by
  have hblocks : d.integs.map Integ.sansTraffic = e.integs.map Integ.sansTraffic := by
    simpa only [Dev.sansRings, Dev.sansTraffic] using congrArg (·.integs) h
  have hblock := congrArg (fun v => vget Integ.reset v n) hblocks
  simp only [Dev.integ]
  by_cases hn : n < 80
  · simpa only [vget_lt _ _ hn, Vector.getElem_map] using hblock
  · rw [vget_beyond _ _ (Nat.le_of_not_lt hn), vget_beyond _ _ (Nat.le_of_not_lt hn)]

theorem lapLate_of_sansTraffic {x y : Integ} (h : x.sansTraffic = y.sansTraffic) : x.lapLate = y.lapLate := congrArg (·.lapLate) h

/-- The CAUTION record of a lap that has run for too long (R361). -/
def Dev.overdueRecord (n : Nat) (d : Dev) : EvRec :=
  { record 0x06 (errorSrc (blockAt n) (scrubAddr (blockAt n) (d.integ n).scrubPos)) with detail := detail [(48, 1, 0x06)] }

theorem scrubOverdue_late {n : Nat} {t : TimeUnit} {d : Dev} (hfirst : (d.integ n).lapLate = false) (hen : (d.integ n).scrubEn = true)
    (hlate : (d.integ n).lapStart + (d.integ n).lapMax.toNat * 3600000000000 ≤ t.now) :
    scrubOverdue n t d = (d.modInteg n (fun g => { g with lapLate := true })).emit t none (d.overdueRecord n) := by
  simp only [scrubOverdue, hfirst, hen, Nat.not_lt.mpr hlate, Bool.not_true, Bool.false_eq_true, or_self, if_false]
  rfl

/-- A lap that runs late is noted, and writes its CAUTION (R361). -/
theorem scrubOverdue_cautions {n : Nat} (hn : n < 80) {t : TimeUnit} {d : Dev} (hfirst : (d.integ n).lapLate = false)
    (hen : (d.integ n).scrubEn = true) (hlate : (d.integ n).lapStart + (d.integ n).lapMax.toNat * 3600000000000 ≤ t.now) :
    ((scrubOverdue n t d).integ n).lapLate = true ∧
      ∃ r : EvRec, d.wrote (scrubOverdue n t d) r ∧ r.cls = 0x06 ∧ r.source = (d.overdueRecord n).source ∧
        fld r.detail.toNat 0 8 = 6 := by
  rw [scrubOverdue_late hfirst hen hlate]
  let noted := d.modInteg n (fun g => { g with lapLate := true })
  have hnoted : noted.integ n = { d.integ n with lapLate := true } := Dev.integ_modInteg d hn _
  have hemit := integ_of_sansRings (emit_sansRings t none (d.overdueRecord n) noted) n
  rw [hnoted] at hemit
  obtain ⟨r, ⟨later, hlater⟩, hcls, hsource, -, hdetail⟩ := emit_wrote_device t (d.overdueRecord n) noted
  refine ⟨lapLate_of_sansTraffic hemit, r, ⟨later, hlater.trans ?_⟩, hcls, hsource,
    hdetail ▸ detail_cause 6 (rest := []) (by simp)⟩
  simp only [noted, Dev.modInteg_records]

/-! ### Regions and banks (R345, R362) -/

theorem regionZeroDone_zeroes {n i : Nat} {d : Dev} (h : (d.integ n).zeroing.contains i = true) :
    regionZeroDone n i d = (d.modMem (·.fillRange (codeRegion (blockAt n) i).1 (codeRegion (blockAt n) i).2 false)).modInteg n
      (fun g => { g with zeroing := g.zeroing.filter (· != i) }) := by
  simp only [regionZeroDone, h, Bool.not_true, Bool.false_eq_true, if_false]

theorem capBankCopy_fits {b i e : Nat} {t : TimeUnit} {d : Dev} (h : (d.integ b).bankPend.contains i = true) (hmaint : d.maint = some e)
    (hroom : t.now + 800000 ≤ (e + 1) * t.slotLen) :
    capBankCopy b i t d =
      d.modInteg b (fun g => { g with bankPend := g.bankPend.filter (· != i), bankCopy := g.bankCopy ++ [i] }) := by
  simp only [capBankCopy, h, hmaint, hroom, decide_true, Bool.not_true, Bool.false_eq_true, or_self, if_false]

theorem capBankDone_copied {b i : Nat} {d : Dev} (h : (d.integ b).bankCopy.contains i = true) :
    capBankDone b i d = (d.modInteg b (fun g =>
      { g with bankCopy := g.bankCopy.filter (· != i), banks := g.banks ++ [i] })).repairDue.bondDue := by
  simp only [capBankDone, h, Bool.not_true, Bool.false_eq_true, if_false]

/-! ### Injections (R502) -/

/-- Memory after an injection that inverts one or two stored bits, in a stack or in another memory (R502). -/
def Injection.flips (j : Injection) (hbm : Bool) (m : Memory) : Memory :=
  if hbm then (if j.kind = 1 then (m.flip j.addr 1).flip (j.addr / 32 * 32 + (j.addr + 1) % 32) 1 else m.flip j.addr 1)
  else m.flip j.addr (if j.kind = 1 then 3 else 1)

theorem modMem_modMem (f g : Memory → Memory) (d : Dev) : (d.modMem f).modMem g = d.modMem (fun m => g (f m)) := rfl

theorem injectApply_flips {n : Nat} {t : TimeUnit} {d : Dev} {j : Injection} (h : (d.integ n).inject = some j) (hkind : j.kind < 2) :
    injectApply n t d =
      (d.modInteg n (fun g => { g with inject := none })).modMem (j.flips (decide (64 ≤ n) && decide (n < 76))) := by
  have hflip : j.kind ≠ 2 := Nat.ne_of_lt hkind
  simp only [injectApply, h, hflip, if_false]
  cases hhbm : decide (64 ≤ n) && decide (n < 76) with
  | true =>
    by_cases hone : j.kind = 1
    · simp only [if_pos hone, modMem_modMem, if_true]
      exact congrArg _ (funext fun m => by simp only [Injection.flips, if_true, if_pos hone])
    · simp only [if_neg hone, if_true]
      exact congrArg _ (funext fun m => by simp only [Injection.flips, if_true, if_neg hone])
  | false =>
    simp only [Bool.false_eq_true, if_false]
    exact congrArg _ (funext fun m => by simp only [Injection.flips, Bool.false_eq_true, if_false])

theorem injectApply_poisons {n : Nat} {t : TimeUnit} {d : Dev} {j : Injection} (h : (d.integ n).inject = some j) (hkind : j.kind = 2)
    (hn : n < 64 ∨ 76 ≤ n) :
    injectApply n t d = (d.modInteg n (fun g => { g with inject := none })).modMem (·.put j.addr 0 true) := by
  have hplain : ¬(decide (64 ≤ n) && decide (n < 76)) = true := by
    rw [Bool.and_eq_true, decide_eq_true_eq, decide_eq_true_eq]
    omega
  simp only [injectApply, h, hkind, if_true, if_neg hplain]

/-- Settles O45: each event takes the branch of its rule that the hypotheses select. -/
theorem controllersKeepTheirMemory : Obligations.ControllersKeepTheirMemory := by
  intro s a k b i n region e j d t
  refine ⟨fun hback => ?writesBack, rfl, rfl, fun hen hsize hretired hfailed hwait herrs howed hdies hlap => ?scrubs,
    fun hfirst hen hlate => ?overdue, fun hzeroing => ?zeroes, fun hpend hmaint hroom => ?copies, fun hcopy => ?copied,
    fun hinject hkind => ?flips, fun hinject hkind hn => ?poisons⟩
  case writesBack =>
    rw [exec_correctionWriteback, execCorrectionWriteback, State.runDev, correctionWriteback_waits hback]
  case scrubs =>
    rw [exec_scrubStep, execScrubStep]
    exact run_of_eq (scrubStep_moves n.isLt hen hsize hretired hfailed hwait ⟨herrs, hdies⟩ howed hlap)
  case overdue =>
    obtain ⟨hnoted, r, hwrote, hfields⟩ := scrubOverdue_cautions n.isLt hfirst hen hlate
    refine ⟨scrubOverdue n t d, r, ?_, hnoted, hwrote, hfields⟩
    rw [exec_scrubLapOverdue, execScrubLapOverdue]
    exact run_of_eq rfl
  case zeroes =>
    rw [exec_regionZeroDone, execRegionZeroDone]
    exact run_of_eq (congrArg (·.goOn t) (regionZeroDone_zeroes hzeroing))
  case copies =>
    rw [exec_capBankCopy, execCapBankCopy]
    exact run_of_eq (capBankCopy_fits hpend hmaint hroom)
  case copied =>
    rw [exec_capBankCopyDone, execCapBankCopyDone]
    exact run_of_eq (congrArg (·.goOn t) (capBankDone_copied hcopy))
  case flips =>
    rw [exec_injectApply, execInjectApply]
    refine run_of_eq ((injectApply_flips hinject hkind).trans (congrArg _ (funext fun m => ?_)))
    simp only [Injection.flips, Bool.and_eq_true, decide_eq_true_eq]
  case poisons =>
    rw [exec_injectApply, execInjectApply]
    exact run_of_eq (injectApply_poisons hinject hkind hn)

end Sys2Proof.Machine
end

section
/-! Proof of the GO writes of RETIRE, INJECT, BOND_QUOTE, UPD_RST and BOND_REPAIR.CLEAR (R362, R364, R426, R430, R465, R475, R502). -/

namespace Sys2Proof.Machine

/-! ### Bits of a word of two parts -/

theorem bit_low {n a j : Nat} (ha : a < 2 ^ n) (hj : j < n) (b : Nat) : bit (a + 2 ^ n * b) j = bit a j := by
  rw [bit, Nat.add_comm, Nat.testBit_two_pow_mul_add _ ha, if_pos hj, bit]

theorem bit_high {n a : Nat} (h : a < 2 ^ n) (b j : Nat) : bit (a + 2 ^ n * b) (n + j) = bit b j := by
  rw [bit, Nat.add_comm, Nat.testBit_two_pow_mul_add _ h, if_neg (by omega), Nat.add_sub_cancel_left, bit]

/-- A flag below a GO bit. -/
theorem bit_b2n_add_two (x : Bool) : bit (b2n x + 2) 0 = x ∧ bit (b2n x + 2) 1 = true := by
  cases x <;> decide

theorem b2n_le_one (x : Bool) : b2n x ≤ 1 := by cases x <;> decide

/-! ### What the administrative function writes -/

theorem hostReq_admin (d : Dev) : (d.hostReq Func.admin).isAdmin = true := by simp [Dev.hostReq, Req.isAdmin]

theorem writerOk_updRst {req : Req} (h : req.isAdmin = true) (p q : Nat) : writerOk req (.updRst p q) = true := by
  simp [writerOk, h]

theorem modInteg_modInteg (d : Dev) (n : Nat) (f g : Integ → Integ) :
    (d.modInteg n f).modInteg n g = d.modInteg n (fun x => g (f x)) := by
  simp only [Dev.modInteg, vmod_vmod]

theorem settled_repairDue (d : Dev) : d.repairDue.settled = d.settled := settled_modBox d _

/-- A host's write of a register, with what its rule starts and lets go on, answers the state with its device. -/
theorem runBoth_hostWrite_afterWrite {s : State} {f : Func} {r : Reg} {v : Nat} {e e' : Dev} (hl : s.dev.lets f r = true)
    (hput : s.dev.hostPut (s.dev.hostReq f) r (w64 v).toNat false s.time = (s.time, e)) (he : (e.startRestores s.time).goOn s.time = e') :
    s.runBoth (hostWrite f r v) = .next (s.withDev e') := by
  refine runBoth_of_eq ?_
  rw [hostWrite_lets v hl, hput, afterWrite, he]

/-- No restore starts with a change that leaves a settled device's piers as they are. -/
theorem startRestores_of_samePiers {t : TimeUnit} {d e : Dev} (hs : d.settled = true) (h : e.piers = d.piers) :
    e.startRestores t = e := by
  simp only [Dev.settled, Bool.and_eq_true, List.all_eq_true, bne_iff_ne] at hs
  refine startRestores_idle (fun p hp q hq => ?_)
  rw [Dev.pier, h]
  exact (hs.2 p (List.mem_range.mpr hp)).2 q (List.mem_range.mpr hq)

/-! ### RETIRE (R362, R364) -/

section
variable (index : BitVec 16) (bank : Bool)

theorem retire_word : (w64 (retireValue index.toNat bank)).toNat = index.toNat + 2 ^ 16 * (b2n bank + 2) := by
  have hindex := index.isLt
  have hbank := b2n_le_one bank
  rw [w64, BitVec.toNat_ofNat, retireValue, Nat.shiftLeft_eq]
  omega

theorem retire_index : fld (w64 (retireValue index.toNat bank)).toNat 0 16 = index.toNat := by
  rw [retire_word, fld_low (le_refl 16), Nat.mod_eq_of_lt index.isLt]

theorem retire_bank : bit (w64 (retireValue index.toNat bank)).toNat 16 = bank := by
  rw [retire_word]
  exact (bit_high index.isLt _ 0).trans (bit_b2n_add_two bank).1

theorem retire_go : bit (w64 (retireValue index.toNat bank)).toNat 17 = true := by
  rw [retire_word]
  exact (bit_high index.isLt _ 1).trans (bit_b2n_add_two bank).2

end

section
variable {t : TimeUnit} {req : Req} {d : Dev} (hadmin : req.isAdmin = true) {index : BitVec 16}
include hadmin

/-- A page of a stack that is in range, for which there is room and which is not retired yet, waits for the slot boundary. -/
theorem retireWrite_page {k : Nat} (hrange : index.toNat < (d.stack k).c * 4096)
    (hroom : (d.integ (64 + k)).pages.length + (d.integ (64 + k)).pagePend.length < 64)
    (hpages : index.toNat ∉ (d.integ (64 + k)).pages) (hpend : index.toNat ∉ (d.integ (64 + k)).pagePend) :
    d.retireWrite t req (.stack k) (w64 (retireValue index.toNat false)).toNat =
      (d.modInteg (64 + k) (fun g =>
        { g with retireIndex := index, retireBank := false, pagePend := g.pagePend ++ [index.toNat] })).repairDue := by
  simp [Dev.retireWrite, hadmin, retire_index, retire_bank, retire_go, IntegBlock.index, hrange, hroom, hpages, hpend,
    modInteg_modInteg]

/-- A cap bank of a present bay, for which there is a spare and which is not retired yet, waits for its copy. -/
theorem retireWrite_bank {b : Nat} (hrange : index.toNat < 32) (hpresent : d.bayPresent b = true)
    (hroom : (d.integ b).banks.length + (d.integ b).bankPend.length + (d.integ b).bankCopy.length < 2)
    (hbanks : index.toNat ∉ (d.integ b).banks) (hpend : index.toNat ∉ (d.integ b).bankPend)
    (hcopy : index.toNat ∉ (d.integ b).bankCopy) :
    d.retireWrite t req (.bay b) (w64 (retireValue index.toNat true)).toNat =
      (d.modInteg b (fun g =>
        { g with retireIndex := index, retireBank := true, bankPend := g.bankPend ++ [index.toNat] })).repairDue := by
  simp [Dev.retireWrite, hadmin, retire_index, retire_bank, retire_go, IntegBlock.index, hrange, hpresent, hroom, hbanks, hpend, hcopy,
    modInteg_modInteg]

end

/-! ### INJECT (R364, R502) -/

section
variable (offset : BitVec 37) (kind : BitVec 2) (store : Bool)

theorem inject_word : (w64 (injectValue offset.toNat kind.toNat store)).toNat =
    offset.toNat + 2 ^ 37 * (kind.toNat + 2 ^ 2 * (b2n store + 2)) := by
  have hoffset := offset.isLt
  have hkind := kind.isLt
  have hstore := b2n_le_one store
  simp only [w64, BitVec.toNat_ofNat, injectValue, fld, Nat.shiftLeft_eq, Nat.shiftRight_zero]
  omega

theorem inject_offset : fld (w64 (injectValue offset.toNat kind.toNat store)).toNat 0 37 = offset.toNat := by
  rw [inject_word, fld_low (le_refl 37), Nat.mod_eq_of_lt offset.isLt]

theorem inject_kind : fld (w64 (injectValue offset.toNat kind.toNat store)).toNat 37 2 = kind.toNat := by
  rw [inject_word, fld_high offset.isLt, Nat.add_mul_mod_self_left, Nat.mod_eq_of_lt kind.isLt]

theorem inject_store : bit (w64 (injectValue offset.toNat kind.toNat store)).toNat 39 = store := by
  rw [inject_word]
  exact (bit_high offset.isLt _ 2).trans ((bit_high kind.isLt _ 0).trans (bit_b2n_add_two store).1)

theorem inject_go : bit (w64 (injectValue offset.toNat kind.toNat store)).toNat 40 = true := by
  rw [inject_word]
  exact (bit_high offset.isLt _ 3).trans ((bit_high kind.isLt _ 1).trans (bit_b2n_add_two store).2)

theorem inject_kept : fld (w64 (injectValue offset.toNat kind.toNat store)).toNat 0 39 = offset.toNat + kind.toNat * 2 ^ 37 := by
  have hoffset := offset.isLt
  have hkind := kind.isLt
  rw [inject_word, fld, Nat.shiftRight_zero]
  omega

end

/-- Whether a block has two places for an injection, a bay's store and its cap (R364). -/
def IntegBlock.hasStore : IntegBlock → Bool
  | .bay _ => true
  | _ => false

theorem hasStore_blockAt (n : Nat) : (blockAt n).hasStore = decide (n < 64) := by
  unfold blockAt
  split
  case isTrue h => rw [decide_eq_true h]; rfl
  case isFalse h => rw [decide_eq_false h]; split <;> rfl

/-- An injection at a populated byte that is not retired waits for an idle cycle. -/
theorem injectWrite_go {t : TimeUnit} {req : Req} {d : Dev} {k : IntegBlock} (hadmin : req.isAdmin = true) {offset : BitVec 37}
    {kind : BitVec 2} {store side : Bool} (hside : (store && k.hasStore) = side) (hsize : offset.toNat < (d.injectTarget k side).1)
    (hretired : d.isRetired (regionOf ((d.injectTarget k side).2 + offset.toNat)) = false) (hkind : kind ≠ 3) :
    d.injectWrite t req k (w64 (injectValue offset.toNat kind.toNat store)).toNat =
      d.modInteg k.index (fun g =>
        { g with injectReg := BitVec.ofNat 40 (offset.toNat + kind.toNat * 2 ^ 37 + b2n side * 2 ^ 39)
                 inject := some { addr := (d.injectTarget k side).2 + offset.toNat, kind := kind.toNat } }) := by
  have hkind' : kind.toNat ≠ 3 := fun h => hkind (BitVec.eq_of_toNat_eq h)
  have hsize' := Nat.not_le.mpr hsize
  subst hside
  cases k with
  | bay b =>
    simp only [IntegBlock.hasStore, Bool.and_true] at hsize' hretired ⊢
    simp [Dev.injectWrite, hadmin, inject_offset, inject_kind, inject_store, inject_go, inject_kept, hsize', hretired, hkind',
      Nat.shiftLeft_eq]
  | stack _ | yard _ =>
    simp only [IntegBlock.hasStore, Bool.and_false] at hsize' hretired ⊢
    simp [Dev.injectWrite, hadmin, inject_offset, inject_kind, inject_go, inject_kept, hsize', hretired, hkind', Nat.shiftLeft_eq]

/-! ### BOND_QUOTE (R465, R475) -/

section
variable (buf : BitVec 52)

theorem quote_word : (w64 (quoteValue buf.toNat)).toNat = 1 + 2 ^ 6 * (buf.toNat / 64) := by
  have hbuf := buf.isLt
  rw [w64, BitVec.toNat_ofNat, quoteValue]
  omega

theorem quote_go : bit (w64 (quoteValue buf.toNat)).toNat 0 = true := by
  rw [quote_word, bit_low (by decide) (by decide)]
  decide

theorem quote_buf : fld (w64 (quoteValue buf.toNat)).toNat 6 46 = buf.toNat / 64 := by
  have hbuf := buf.isLt
  rw [quote_word, fld_high (by decide), Nat.mod_eq_of_lt (by omega)]

end

/-- A device that asks for the nonce of a quote at `a` (R465). -/
def Dev.quoteAsked (o a : Nat) (d : Dev) : Dev :=
  ({ d with
    box := { d.box with quoteBuf := BitVec.ofNat 46 (a / 64), quoteState := 1 }
    bond := { d.bond with signer := d.bond.signer ++ [.quote (some (a / 64 * 64)) none none] } } : Dev).enqueue
      (.nonce o (a / 64 * 64)) [(a / 64 * 64, 64)]

/-- A quote into the administrative function's memory, with none busy, asks for its nonce. -/
theorem quoteWrite_go {t : TimeUnit} {req : Req} {d : Dev} {o : Nat} {buf : BitVec 52} (hadmin : req.isAdmin = true)
    (hbusy : d.box.quoteState ≠ 1) (hid : d.box.idState ≠ 2) (ho : d.adminPart = some o)
    (hinside : (d.part o).inside true (buf.toNat / 64 * 64) 1600 = true) :
    d.quoteWrite t req (w64 (quoteValue buf.toNat)).toNat = d.quoteAsked o buf.toNat := by
  have hid' : (d.box.idState != 2) = true := bne_iff_ne.mpr hid
  simp only [Dev.quoteWrite, Dev.quoteAsked, hadmin, quote_go, quote_buf, hbusy, hid', ho, hinside, Dev.modBox, Bool.not_true,
    Bool.false_eq_true, and_false, Bool.and_self, Option.getD_some, if_false]

/-! ### UPD_RST (R426, R430) -/

section
variable (order : BitVec 52)

theorem restore_word : (w64 (restoreValue order.toNat)).toNat = 2 ^ 8 * (order.toNat / 256) + 2 ^ 52 * 1 := by
  have horder := order.isLt
  simp only [w64, BitVec.toNat_ofNat, restoreValue, fld, Nat.shiftLeft_eq, Nat.shiftRight_eq_div_pow]
  omega

theorem restore_go : bit (w64 (restoreValue order.toNat)).toNat 52 = true := by
  have horder := order.isLt
  rw [restore_word]
  exact (bit_high (by omega) 1 0).trans (by decide)

theorem restore_order : fld (w64 (restoreValue order.toNat)).toNat 8 44 = order.toNat / 256 := by
  have horder := order.isLt
  rw [restore_word, fld, Nat.shiftRight_eq_div_pow]
  omega

end

/-- A restore of a partition that has no timetable and none running is asked for. -/
theorem rstWrite_go {t : TimeUnit} {req : Req} {d : Dev} {p q : Nat} {order : BitVec 52} (hadmin : req.isAdmin = true)
    (hinstalled : (d.part q).installed = none) (hrunning : ∀ i : Fin 4, vget 0 (d.pier i).rstState q ≠ 1) :
    d.rstWrite t req p q (w64 (restoreValue order.toNat)).toNat =
      d.modPier p (fun y =>
        { y with rstOrder := vmod y.rstOrder q (fun _ => BitVec.ofNat 44 (order.toNat / 256))
                 rstState := vmod y.rstState q (fun _ => 1) }) := by
  have hnone : (List.range 4).any (fun i => vget 0 (d.pier i).rstState q == 1) = false :=
    List.any_eq_false.mpr (fun i hi => by simpa using hrunning ⟨i, List.mem_range.mp hi⟩)
  simp only [Dev.rstWrite, writerOk_updRst hadmin, restore_go, restore_order, hinstalled, hnone, Option.isSome_none, Bool.not_true,
    Bool.false_eq_true, or_self, and_false, if_false, if_true]

/-! ### BOND_REPAIR (R475) -/

theorem repairWrite_clear {t : TimeUnit} {req : Req} {d : Dev} (hadmin : req.isAdmin = true) (h : d.anyTimetable = false) :
    d.repairWrite t req (w64 8).toNat = d.modBox (fun x => { x with repClear := true }) := by
  have hclear : bit (w64 8).toNat 3 = true := by decide
  simp [Dev.repairWrite, hadmin, hclear, h]

/-! ### GO of each -/

/-- Settles O16: each GO is a host's write of its register, whose rule takes the branch that the hypotheses select. -/
theorem goWritesStartTheirWork : Obligations.GoWritesStartTheirWork := by
  rintro s f b k n index offset kind store buf order p q hs rfl d blk
  have hadmin : (d.hostReq Func.admin).isAdmin = true := hostReq_admin d
  refine ⟨fun m hm hl hrange hroom hpages hpend => ?page, fun m hm hl hrange hpresent hroom hbanks hpend hcopy => ?bank, ?inject,
    fun o hl hbusy hid ho hinside => ?quote, fun hl hinstalled hrunning => ?restore, fun hl hnone => ?clear⟩
  case page =>
    rw [hm] at hroom hpages hpend ⊢
    have hblk : blockAt m = .stack k := by simp [blockAt, hm, show 64 + k.val < 76 by omega]
    rw [exec_retireGo, execRetireGo, hblk]
    exact runBoth_hostWrite hs hl (congrArg (s.time, ·) (retireWrite_page hadmin hrange hroom hpages hpend))
      ((settled_repairDue _).trans (settled_modInteg _ _ _))
  case bank =>
    rw [hm] at hroom hbanks hpend hcopy ⊢
    have hblk : blockAt m = .bay b := by simp [blockAt, hm]
    rw [exec_retireGo, execRetireGo, hblk]
    exact runBoth_hostWrite hs hl (congrArg (s.time, ·) (retireWrite_bank hadmin hrange hpresent hroom hbanks hpend hcopy))
      ((settled_repairDue _).trans (settled_modInteg _ _ _))
  case inject =>
    intro side a hl hsize hretired hkind
    have hside : (store && blk.hasStore) = side := congrArg (store && ·) (hasStore_blockAt n)
    rw [exec_injectGo, execInjectGo]
    exact runBoth_hostWrite hs hl (congrArg (s.time, ·) (injectWrite_go hadmin hside hsize hretired hkind)) (settled_modInteg _ _ _)
  case quote =>
    have hpiers : (d.quoteAsked o buf.toNat).startRestores s.time = d.quoteAsked o buf.toNat := startRestores_of_samePiers hs rfl
    rw [exec_quoteGo, execQuoteGo]
    exact runBoth_hostWrite_afterWrite hl (congrArg (s.time, ·) (quoteWrite_go hadmin hbusy hid ho hinside)) (congrArg (·.goOn s.time) hpiers)
  case restore =>
    rw [exec_restoreGo, execRestoreGo]
    exact runBoth_hostWrite_afterWrite hl (congrArg (s.time, ·) (rstWrite_go hadmin hinstalled hrunning)) rfl
  case clear =>
    rw [exec_repairClear, execRepairClear]
    exact runBoth_hostWrite hs hl (congrArg (s.time, ·) (repairWrite_clear hadmin hnone)) (settled_modBox _ _)

end Sys2Proof.Machine
end

section
/-! Proofs of link training and width: training's end, the CAP packet, lost quads (R366 to R369). -/

namespace Sys2Proof.Machine

/-! ### What stands of a link (R366 to R369) -/

/-- What bring-up has settled of a link, and the packet that it took last. -/
def Link.standing (k : Link) : LinkState × BitVec 4 × BitVec 12 × BitVec 16 × BitVec 16 := (k.state, k.quads, k.far, k.ver, k.recvSeq)

theorem standing_of_sansTraffic {k m : Link} (h : k.sansTraffic = m.sansTraffic) : k.standing = m.standing :=
  (congrArg Link.standing h : k.sansTraffic.standing = m.sansTraffic.standing)

theorem standing_of_sansRings {d e : Dev} (h : d.sansRings = e.sansRings) (l : Nat) : (d.link l).standing = (e.link l).standing :=
  standing_of_sansTraffic (link_of_sansRings h l)

/-- A change of a link that leaves what stands of it leaves that of every link. -/
theorem standing_modLink {f : Link → Link} (hf : ∀ k, (f k).standing = k.standing) (d : Dev) (n l : Nat) :
    ((d.modLink n f).link l).standing = (d.link l).standing := by
  have hmap : (vmod d.links n f).map Link.standing = d.links.map Link.standing := map_vmod _ _ _ _ hf
  by_cases hl : l < 32
  · have hget := congrArg (fun v => v[l]) hmap
    simpa only [Dev.link, Dev.modLink, vget_lt _ _ hl, Vector.getElem_map] using hget
  · simp only [Dev.link, vget_beyond _ _ (Nat.le_of_not_lt hl)]

theorem standing_service (n : Nat) (d : Dev) (l : Nat) : ((d.service n).link l).standing = (d.link l).standing :=
  standing_of_sansRings (sansRings_of _ _ (service_sansTraffic n d)) l

theorem standing_sendRouted (p : Packet) (d : Dev) (l : Nat) : ((d.sendRouted p).link l).standing = (d.link l).standing := by
  unfold Dev.sendRouted
  split
  · exact standing_of_sansRings (sansRings_of _ _ (sendOn_sansTraffic _ p d)) l
  · refine standing_modLink ?_ d 0 l
    exact fun _ => rfl

theorem standing_emit (t : TimeUnit) (q : Option Nat) (r : EvRec) (d : Dev) (l : Nat) :
    ((d.emit t q r).link l).standing = (d.link l).standing := standing_of_sansRings (emit_sansRings t q r d) l

theorem link_modOcc (k : OccKey) (f : Occ → Occ) (d : Dev) (l : Nat) : (d.modOcc k f).link l = d.link l := Dev.link_modPart _ _ _ _

theorem standing_sendPeerLate (o : Occ) (slot : Nat) (d : Dev) (l : Nat) :
    ((d.sendPeerLate o slot).link l).standing = (d.link l).standing := by
  unfold Dev.sendPeerLate
  split
  · rfl
  · exact foldl_keeps (fun d : Dev => (d.link l).standing) _ (fun d r => standing_sendRouted _ d l) _ _

theorem standing_withdraw (t : TimeUnit) (cause slot : Nat) (k : OccKey) (d : Dev) (l : Nat) :
    ((d.withdraw t cause slot k).link l).standing = (d.link l).standing := by
  unfold Dev.withdraw
  split
  · rfl
  · split
    · rfl
    · dsimp only
      split
      · rw [standing_sendPeerLate, standing_emit, link_modOcc]
      · rw [standing_emit, link_modOcc]

theorem standing_unlink (t : TimeUnit) (k : OccKey) (d : Dev) (l : Nat) : ((d.unlink t k).link l).standing = (d.link l).standing := by
  rw [Dev.unlink, link_modOcc, standing_withdraw]

theorem link_ensureOcc {d e : Dev} {q n k : Nat} {tt : Timetable} {o : Occ} (h : d.ensureOcc q tt n k = some (o, e)) (l : Nat) :
    e.link l = d.link l := by
  unfold Dev.ensureOcc at h
  split at h
  · contradiction
  · split at h
    · contradiction
    · split at h
      · cases h; rfl
      · cases h; exact Dev.link_modPart _ _ _ _

theorem link_linkOccs (t : TimeUnit) (n : Nat) (d : Dev) (l : Nat) : (d.linkOccs t n).link l = d.link l := by
  unfold Dev.linkOccs
  refine foldl_keeps (fun d : Dev => d.link l) _ (fun d x => ?_) _ _
  dsimp only
  split
  · rfl
  · refine foldl_keeps (fun d : Dev => d.link l) _ (fun d e => ?_) _ _
    rw [apply_ite (fun d : Dev => d.link l), ite_eq_right_iff]
    intro _
    split
    · next h => exact link_ensureOcc h l
    · rfl

theorem standing_reroute (n : Nat) (d : Dev) (l : Nat) : ((d.reroute n).link l).standing = (d.link l).standing := by
  unfold Dev.reroute
  dsimp only
  split
  · exact standing_service n d l
  · rw [foldl_keeps (fun d : Dev => (d.link l).standing) _ (fun d p => standing_sendRouted p d l)]
    refine standing_modLink ?_ d n l
    exact fun _ => rfl

theorem link_bondDue (d : Dev) (l : Nat) : d.bondDue.link l = d.link l := rfl

/-- A link that changes stands as before but for its state and its quads. -/
theorem standing_linkChange (t : TimeUnit) {l : Nat} (hl : l < 32) (st : LinkState) (quads reason : Nat) (d : Dev) :
    ((d.linkChange t l st quads reason).link l).standing =
      ({ d.link l with state := st, quads := BitVec.ofNat 4 quads } : Link).standing := by
  unfold Dev.linkChange
  dsimp only
  rw [link_bondDue, standing_reroute, foldl_keeps (fun d : Dev => (d.link l).standing) _ (fun d (o : Occ) => standing_unlink t o.key d l), standing_emit,
    Dev.link_modLink _ hl, link_linkOccs]
  rfl

theorem Link.standing_eq_iff {k m : Link} : k.standing = m.standing ↔
    k.state = m.state ∧ k.quads = m.quads ∧ k.far = m.far ∧ k.ver = m.ver ∧ k.recvSeq = m.recvSeq := by
  simp only [Link.standing, Prod.mk.injEq]

/-! ### Training ends (R365, R368) -/

section
variable {t : TimeUnit} {d : Dev} {l : Nat} {quads : BitVec 4}

/-- Training that leaves too few quads takes the link down. -/
theorem linkTrained_few (hstate : (d.link l).state = .training) (hfew : popCount 4 quads.toNat < 2) :
    linkTrained l quads.toNat t d = d.linkChange t l .down 0 0 := by
  rw [linkTrained, if_neg (not_not_intro hstate), if_pos hfew]

/-- The far end's CAP has not come: the link goes on training. -/
theorem agree_unseen (h : (d.link l).capSeen = false) : d.agree t l = d := by
  rw [Dev.agree, if_pos (Or.inr (Or.inl (by rw [h]; rfl)))]

/-- Training that leaves quads enough, before the far end's CAP has come, sends CAP (R368). -/
theorem link_linkTrained (hl : l < 32) (hstate : (d.link l).state = .training) (hseen : (d.link l).capSeen = false)
    (henough : 2 ≤ popCount 4 quads.toNat) :
    (linkTrained l quads.toNat t d).link l =
      Link.transmit { d.link l with myQuads := quads } ((d.modLink l (fun k => { k with myQuads := quads })).capPacket l) := by
  have hquads : BitVec.ofNat 4 quads.toNat = quads := by simp
  have hlink := link_sendOn hl (p := (d.modLink l (fun k => { k with myQuads := quads })).capPacket l) rfl
    (d.modLink l (fun k => { k with myQuads := quads }))
  rw [Dev.link_modLink d hl] at hlink
  rw [linkTrained, if_neg (not_not_intro hstate), if_neg (Nat.not_lt.mpr henough), hquads, agree_unseen (by rw [hlink]; exact hseen), hlink]

/-! ### CAP (R366, R368, R369) -/

/-- A link that is not UP sends nothing of what waits on it. -/
theorem service_idle (h : (d.link l).isUp = false) : d.service l = d := by
  unfold Dev.service
  cases (d.link l).blocked.length with
  | zero => rfl
  | succ n => simp [Dev.sendWaiting, h]

/-- What a link notes of the far end's CAP. -/
def Link.heardCap (w : Nat) (k : Link) : Link :=
  { k with capSeen := true, farLo := BitVec.ofNat 16 (fld w 0 16), farHi := BitVec.ofNat 16 (fld w 16 16),
           far := BitVec.ofNat 12 (fld w 32 12), farValid := bit w 47, farQuads := BitVec.ofNat 4 (fld w 48 4),
           farLink := BitVec.ofNat 5 (fld w 56 5) }

/-- A CAP is taken while the link trains. -/
theorem capArrival_training {p : Packet} (hl : l < 32) (hstate : (d.link l).state = .training) (htyp : p.typ = 0x01)
    (hseq : p.seq = (d.link l).recvSeq + 1) :
    capArrival l p t d = ((d.modLink l (·.accept p)).modLink l (·.heardCap (ofBytes (natBytes p.payload)))).agree t l := by
  have hidle : ((d.modLink l (·.accept p)).link l).isUp = false := by
    rw [Dev.link_modLink d hl]
    simp [Link.isUp, Link.accept, hstate]
  have hopen : ¬((!(p.typ.toNat == 0x01)) = true ∨ (!((d.link l).isUp || ((d.link l).state == .training && p.typ == 0x01))) = true ∨
      p.seq ≠ (d.link l).recvSeq + 1) := by
    simp [htyp, hstate, hseq]
  have hlow : ¬((!d.fab.valid) = true ∧ 4 ≤ p.typ.toNat ∧ knownType p.typ.toNat = true) := by simp [htyp]
  rw [capArrival, Dev.arrive, if_neg hopen, service_idle hidle]
  exact if_neg hlow |>.symm ▸ rfl

/-- Both ends have trained, speak the device's version and share quads enough: the link is UP on those quads (R366, R369). -/
theorem agree_up (hstate : (d.link l).state = .training) (hseen : (d.link l).capSeen = true) (hmine : (d.link l).myQuads ≠ 0)
    (hlo : (d.link l).farLo.toNat ≤ 0x0100) (hhi : 0x0100 ≤ (d.link l).farHi.toNat)
    (henough : 2 ≤ popCount 4 ((d.link l).myQuads &&& (d.link l).farQuads &&& (d.link l).qmask).toNat) :
    d.agree t l = (d.modLink l (fun k => { k with ver := 0x0100 })).linkChange t l .up
      ((d.link l).myQuads &&& (d.link l).farQuads &&& (d.link l).qmask).toNat 5 := by
  have hready : ¬((d.link l).state ≠ .training ∨ (!(d.link l).capSeen) = true ∨ (d.link l).myQuads = 0) := by simp only [hstate, hseen, ne_eq, not_true, Bool.not_true, Bool.false_eq_true, false_or]; exact hmine
  have hversion : min linkVersion (d.link l).farHi.toNat = 0x0100 := Nat.min_eq_left hhi
  have hspeaks : ¬((0x0100 : Nat) < linkVersion ∨ 0x0100 < (d.link l).farLo.toNat) := by
    rintro (h | h)
    · exact absurd h (by decide)
    · omega
  simp only [Dev.agree, if_neg hready, hversion, if_neg hspeaks, if_neg (Nat.not_lt.mpr henough)]
  rfl

end

theorem toNat_ofNat_fld (w lo n : Nat) : (BitVec.ofNat n (fld w lo n)).toNat = fld w lo n := by
  rw [BitVec.toNat_ofNat, fld, Nat.mod_mod]

/-! ### Lost quads (R367) -/

theorem testBit_clrBit (v : BitVec 4) (q : Fin 4) (h : v.toNat.testBit q = true) :
    (clrBit v.toNat q).testBit q = false ∧ clrBit v.toNat q < 16 ∧ popCount 4 v.toNat = popCount 4 (clrBit v.toNat q) + 1 := by
  revert v q
  decide

theorem quadLoss_narrows {t : TimeUnit} {d : Dev} {l q : Nat} (hstate : (d.link l).state = .up)
    (hin : (d.link l).quads.toNat.testBit q = true) (signal : Bool) :
    quadLoss l q signal t d = d.narrow t l (clrBit (d.link l).quads.toNat q) (if signal then 3 else 0) := by
  have hopen : ¬((!(d.link l).isUp) = true ∨ (!(d.link l).quads.toNat.testBit q) = true) := by simp [Link.isUp, hstate, hin]
  rw [quadLoss, Dev.loseQuad, if_neg hopen]

section
variable {t : TimeUnit} {d : Dev} {l rest reason : Nat} (hl : l < 32)
include hl

/-- Fewer than two quads left take the link down. -/
theorem standing_narrow_down (h : popCount 4 rest < 2) :
    ((d.narrow t l rest reason).link l).standing = ({ d.link l with state := .down, quads := 0 } : Link).standing := by
  rw [Dev.narrow, if_pos h, standing_linkChange t hl]
  rfl

/-- Two or more quads left keep the link UP. -/
theorem standing_narrow_up (h : 2 ≤ popCount 4 rest) :
    ((d.narrow t l rest reason).link l).standing = ({ d.link l with state := .up, quads := BitVec.ofNat 4 rest } : Link).standing := by
  rw [Dev.narrow, if_neg (Nat.not_lt.mpr h), standing_linkChange t hl, Dev.link_modLink d hl]
  rfl

end

/-- Settles O48: training's end, CAP and a lost quad each come to one change of the link's state and quads. -/
theorem linksTrainAgreeAndNarrow : Obligations.LinksTrainAgreeAndNarrow := by
  intro s l quads q signal p d k w both
  refine ⟨fun hstate hseen henough => ?trained, fun hstate hfew => ?few, fun hstate htyp hseq hmine hlo hhi henough => ?cap,
    fun hstate hin => ?loss⟩
  case trained =>
    have hlink := link_linkTrained (t := s.time) l.isLt hstate hseen henough
    exact ⟨_, rfl, (congrArg Link.state hlink).trans hstate, congrArg Link.myQuads hlink, _, congrArg Link.sent hlink, rfl, rfl⟩
  case few =>
    obtain ⟨hdown, -⟩ := Link.standing_eq_iff.mp (standing_linkChange s.time l.isLt .down 0 0 d)
    exact ⟨_, run_of_eq (linkTrained_few hstate hfew), hdown⟩
  case cap =>
    let e := (d.modLink l (·.accept p)).modLink l (·.heardCap w)
    have hlink : e.link l = (k.accept p).heardCap w := by rw [Dev.link_modLink _ l.isLt, Dev.link_modLink d l.isLt]
    have hboth : (e.link l).myQuads &&& (e.link l).farQuads &&& (e.link l).qmask = both := by rw [hlink]; rfl
    have hup : e.agree s.time l = (e.modLink l (fun k => { k with ver := 0x0100 })).linkChange s.time l .up both.toNat 5 := by
      rw [← hboth] at henough ⊢
      refine agree_up ?_ ?_ ?_ ?_ ?_ henough
      · rw [hlink]; exact hstate
      · rw [hlink]; rfl
      · rw [hlink]; exact hmine
      · rw [hlink]; exact (toNat_ofNat_fld w 0 16).le.trans hlo
      · rw [hlink]; exact hhi.trans (toNat_ofNat_fld w 16 16).ge
    have hstands := standing_linkChange s.time l.isLt .up both.toNat 5 (e.modLink l (fun k => { k with ver := 0x0100 }))
    rw [Dev.link_modLink _ l.isLt, hlink] at hstands
    obtain ⟨hstate', hquads, hfar, hver, hrecv⟩ := Link.standing_eq_iff.mp hstands
    exact ⟨_, run_of_eq ((capArrival_training l.isLt hstate htyp hseq).trans hup), hstate', hquads.trans (by simp), hfar, hver, hrecv⟩
  case loss =>
    obtain ⟨hclear, hsmall, hcount⟩ := testBit_clrBit k.quads q hin
    refine ⟨_, run_of_eq (quadLoss_narrows hstate hin signal), ?_⟩
    rcases Nat.lt_or_ge (popCount 4 (clrBit k.quads.toNat q)) 2 with hfew | henough
    · obtain ⟨hdown, hquads, -⟩ := Link.standing_eq_iff.mp (standing_narrow_down (t := s.time) (d := d) l.isLt
        (reason := if signal then 3 else 0) hfew)
      exact ⟨by rw [hquads]; simp, fun hmany => by omega, fun _ => ⟨hdown, hquads⟩⟩
    · obtain ⟨hup, hquads, -⟩ := Link.standing_eq_iff.mp (standing_narrow_up (t := s.time) (d := d) l.isLt
        (reason := if signal then 3 else 0) henough)
      refine ⟨?_, fun _ => ⟨hup, hquads⟩, fun hfew => by omega⟩
      rw [hquads, BitVec.toNat_ofNat, Nat.mod_eq_of_lt hsmall]
      exact hclear

end Sys2Proof.Machine
end

section
/-! What requests and the records that they give rise to leave alone: all but memory, the rings, and the traffic that both make (R301, R302,
R348, R379). -/

namespace Sys2Proof.Machine

/-! ### One request -/

theorem readMask_sansRings (t : TimeUnit) (q : Req) (a n : Nat) (need : Nat → Bool) (d : Dev) :
    (d.readMask t q a n need).2.sansRings = d.sansRings :=
  (flushOwed_sansRings t _).trans (sansRings_of _ _ (loadReq_sansTraffic t q a n need d))

theorem write_sansRings (t : TimeUnit) (q : Req) (a : Nat) (data : List Byte) (poison mask : List Bool) (d : Dev) :
    (d.write t q a data poison mask).sansRings = d.sansRings :=
  (flushOwed_sansRings t _).trans (sansRings_of _ _ (saveReq_sansTraffic t q a data poison mask d))

theorem countHole_sansRings (q : Req) (a : Nat) (d : Dev) : (d.countHole q a).sansRings = d.sansRings :=
  sansRings_of _ _ (countHole_sansTraffic q a d)

theorem sendWrs_sansRings (q : Req) (l typ code : Nat) (data : List Byte) (poison mask : List Bool) (base : Nat) (pcs : List (Nat × Nat))
    (d : Dev) : (pcs.foldl (fun d pc => d.sendWr q l typ code data poison mask base pc) d).sansRings = d.sansRings :=
  foldl_sansRings _ (fun d pc => sansRings_of _ _ (sendWr_sansTraffic q l typ code data poison mask base pc d)) _ _

/-- A memory-side operation changes what a write changes. -/
theorem atomic_sansRings (t : TimeUnit) (q : Req) (code a : Nat) (data : List Byte) (poison mask : List Bool) (d : Dev) :
    (d.atomic t q code a data poison mask).sansRings = d.sansRings := by
  unfold Dev.atomic
  dsimp only
  split
  · rfl
  · split
    · split
      · exact write_sansRings t q a data poison mask d
      · split
        · exact countHole_sansRings q a d
        · split
          · exact sendWrs_sansRings ..
          · rfl
    · split
      · exact write_sansRings t q a data poison mask d
      · split
        · exact emit_sansRings t _ _ d
        · rw [flushOwed_sansRings]
          refine sansRings_of _ _ ?_
          rw [modMem_sansTraffic]
          refine (modStack_sansTraffic _ _ _ (fun k => (touches_piece _ _).trans ?_)).trans ?_
          · rfl
          · rw [mergeReads_sansTraffic, chargeHbm_sansTraffic]
    · split
      · exact write_sansRings t q a data poison mask d
      · exact countHole_sansRings q a d

theorem fab_of_sansRings {d e : Dev} (h : d.sansRings = e.sansRings) : d.fab = e.fab := congrArg (·.fab) h

/-! ### Many requests -/

theorem readBlocks_sansRings (t : TimeUnit) (q : Req) (fuel a n : Nat) (d : Dev) :
    (d.readBlocks t q fuel a n).2.sansRings = d.sansRings := by
  induction fuel generalizing a n d with
  | zero => rfl
  | succ fuel ih =>
    unfold Dev.readBlocks
    split
    · rfl
    · exact (ih _ _ _).trans (readMask_sansRings t q _ _ _ d)

theorem fetch_sansRings (t : TimeUnit) (q : Req) (a n : Nat) (d : Dev) : (d.fetch t q a n).2.sansRings = d.sansRings :=
  readBlocks_sansRings t q _ a n d

theorem storeBlocks_sansRings (t : TimeUnit) (q : Req) (fuel a : Nat) (data : List Byte) (poison mask : List Bool) (d : Dev) :
    (d.storeBlocks t q fuel a data poison mask).sansRings = d.sansRings := by
  induction fuel generalizing a data poison mask d with
  | zero => rfl
  | succ fuel ih =>
    unfold Dev.storeBlocks
    split
    · rfl
    · exact (ih _ _ _ _ _).trans (write_sansRings t q _ _ _ _ d)

theorem store_sansRings (t : TimeUnit) (q : Req) (a : Nat) (data : List Byte) (poison mask : List Bool) (d : Dev) :
    (d.store t q a data poison mask).sansRings = d.sansRings := storeBlocks_sansRings t q _ a data poison mask d

theorem touch_sansRings (t : TimeUnit) (q : Req) (addrs : List Nat) (d : Dev) : (d.touch t q addrs).sansRings = d.sansRings :=
  foldl_sansRings _ (fun d _ => readMask_sansRings t q _ _ _ d) _ _

theorem putBytes_sansRings (t : TimeUnit) (q : Req) (xs : List (Nat × Nat × Bool)) (d : Dev) :
    (d.putBytes t q xs).sansRings = d.sansRings := foldl_sansRings _ (fun d _ => write_sansRings t q _ _ _ _ d) _ _

/-! ### Operands -/

theorem touchBrick_sansRings (t : TimeUnit) (q : Req) (x : Desc) (w : Nat) (d : Dev) :
    (d.touchBrick t q x w).sansRings = d.sansRings := by
  unfold Dev.touchBrick
  rw [touch_sansRings, touch_sansRings]

theorem sealLoad_sansRings (t : TimeUnit) (b : Nat) (f : Flight) (q : Req) (x : Desc) (sparse : Option Nat) (d : Dev) :
    (d.sealLoad t b f q x sparse).2.sansRings = d.sansRings := by
  unfold Dev.sealLoad
  split
  · rfl
  · refine (foldl_keeps (fun acc : Bool × Dev => acc.2.sansRings) _ (fun acc w => ?_) _ _).trans ?_
    · split
      · rfl
      · exact emit_sansRings t _ _ _
    · dsimp only
      split
      · rfl
      · exact touch_sansRings t q _ d

theorem load_sansRings (t : TimeUnit) (b : Nat) (f : Flight) (kind : Nat) (x : Desc) (sparse : Option Nat) (d : Dev) :
    (d.load t b f kind x sparse).2.sansRings = d.sansRings := by
  unfold Dev.load
  dsimp only
  split
  · exact (sealLoad_sansRings t b f _ x sparse _).trans (foldl_sansRings _ (fun d w => touchBrick_sansRings t _ x w d) _ _)
  · exact touch_sansRings t _ _ d

theorem storePlain_sansRings (t : TimeUnit) (q : Req) (x : Desc) (code : Nat → Nat × Bool) (d : Dev) :
    (d.storePlain t q x code).sansRings = d.sansRings := by
  unfold Dev.storePlain
  dsimp only
  split <;> exact putBytes_sansRings t q _ d

theorem accumulateAll_sansRings (t : TimeUnit) (q : Req) (z : Desc) (acc : Nat) (src : Nat → Nat × Bool) (d : Dev) :
    (d.accumulateAll t q z acc src).sansRings = d.sansRings := by
  refine foldl_sansRings _ (fun d xs => ?_) _ _
  unfold Dev.accumulate
  dsimp only
  split
  · exact atomic_sansRings t q _ _ _ _ _ d
  · exact (write_sansRings t q _ _ _ _ _).trans (readMask_sansRings t q _ _ _ d)

end Sys2Proof.Machine
end

section
/-! Proofs of what peers ask of this device and of what they answer it: RD, WR and AT, RDR and WACK (R371, R376, R380, R381). -/

namespace Sys2Proof.Machine

/-! ### A packet for this device (R376) -/

section
variable {d : Dev} {l : Nat} {p : Packet} {types : Nat → Bool}

theorem consume_here {act : Dev → Dev} (hvalid : d.fab.valid = true) (haddr : p.daddr = d.fab.addr) : d.consume l p act = act d := by
  simp [Dev.consume, hvalid, haddr]

theorem received_fab (d : Dev) (l : Nat) (p : Packet) : (d.received l p).fab = d.fab := by
  rw [Dev.received, fab_of_sansRings (sansRings_of _ _ (service_sansTraffic l _)), Dev.modLink_fab]

/-- A device acts on the next packet on a link, of a type that is routed, once the packet has come to its address. -/
theorem arrive_here {act : Dev → Dev} (hnext : d.nextOn l p = true) (haddr : p.daddr = d.fab.addr) (htypes : types p.typ.toNat = true)
    (hrouted : 4 ≤ p.typ.toNat) (hknown : knownType p.typ.toNat = true) :
    d.arrive l p types (fun e => e.consume l p act) = act (d.received l p) := by
  have hvalid : d.fab.valid = true := by
    have hmay := hnext
    simp only [Dev.nextOn, Bool.and_eq_true, Bool.or_eq_true, decide_eq_true_eq, hknown, Bool.not_true, Bool.false_eq_true, or_false] at hmay
    exact hmay.2.resolve_right (Nat.not_lt.mpr hrouted)
  rw [arrive_next hnext htypes, consume_here ((congrArg _ (received_fab d l p)).trans hvalid) (haddr.trans (congrArg _ (received_fab d l p)).symm)]

end

/-! ### The checks of a request (R380) -/

/-- The partition that link `l` maps a packet's to (R380). -/
def Dev.mappedPart (d : Dev) (l : Nat) (p : Packet) : Nat := fld (d.link l).pmap.toNat (4 * p.part.toNat) 4

/-- A request of `n` bytes at `a` passes the checks. -/
def Dev.passes (d : Dev) (l : Nat) (p : Packet) (a n : Nat) : Prop :=
  (d.link l).pmapEn.toNat.testBit p.part.toNat = true ∧ 0x100000000 ≤ a ∧
  ((d.part (d.mappedPart l p)).en = true ∧ (d.part (d.mappedPart l p)).inside (p.typ != 0x10) a n = true) ∧
  (p.typ = 0x12 → ∃ k o, regionOf a = .hbm k o)

section
variable {d : Dev} {l : Nat} {p : Packet} {a n : Nat}

theorem requestOk_passes (h : d.passes l p a n) : d.requestOk l p a n = some (d.mappedPart l p) := by
  obtain ⟨hmap, hlow, ⟨hen, hin⟩, hat⟩ := h
  rw [Dev.mappedPart] at hen hin
  unfold Dev.requestOk
  simp only [hmap, hen, hin, Nat.not_lt.mpr hlow, Bool.not_true, Bool.and_self, Bool.false_eq_true, if_false]
  refine if_neg ?_
  rintro ⟨htyp, hhbm⟩
  obtain ⟨k, o, hr⟩ := hat htyp
  simp [hr] at hhbm

/-- A request that the checks let through passes: each check that fails refuses. -/
theorem passes_of_requestOk {q : Nat} (h : d.requestOk l p a n = some q) : d.passes l p a n := by
  simp only [Dev.requestOk, Option.ite_none_left_eq_some] at h
  obtain ⟨hmap, hlow, hin, hat, -⟩ := h
  rw [Bool.not_eq_true, Bool.not_eq_false', Bool.and_eq_true] at hin
  refine ⟨by simpa using hmap, Nat.not_lt.mp hlow, hin, fun htyp => ?_⟩
  generalize regionOf a = r at hat
  cases r with
  | hbm k o => exact ⟨k, o, rfl⟩
  | _ => exact absurd ⟨htyp, rfl⟩ hat

theorem requestOk_refuses (h : ¬d.passes l p a n) : d.requestOk l p a n = none :=
  Option.eq_none_iff_forall_ne_some.mpr (fun _ hq => h (passes_of_requestOk hq))

end

/-! ### Answers leave memory and records (R371, R377) -/

/-- Nothing has been written: neither memory nor a record. -/
def Dev.unwritten (d e : Dev) : Prop := e.mem = d.mem ∧ e.records = d.records

theorem Dev.unwritten.trans {d e e' : Dev} (h : d.unwritten e) (h' : e.unwritten e') : d.unwritten e' :=
  ⟨h'.1.trans h.1, h'.2.trans h.2⟩

theorem unwritten_modLink (d : Dev) (l : Nat) (f : Link → Link) : d.unwritten (d.modLink l f) :=
  ⟨Dev.modLink_mem .., Dev.modLink_records ..⟩

theorem chargePath_mem (l : Nat) (p : Packet) (d : Dev) : (d.chargePath l p).mem = d.mem := by
  unfold Dev.chargePath
  split
  · rfl
  · unfold Dev.draw
    split
    · rfl
    · exact Dev.modPart_mem _ _ _

theorem sendWaiting_mem (l fuel : Nat) (d : Dev) : (d.sendWaiting l fuel).mem = d.mem := by
  induction fuel generalizing d with
  | zero => rfl
  | succ fuel ih =>
    unfold Dev.sendWaiting
    dsimp only
    split
    · rfl
    · split
      · rfl
      · rw [ih, Dev.modLink_mem]
        split
        · exact chargePath_mem l _ d
        · rfl

theorem unwritten_sendOn (l : Nat) (p : Packet) (d : Dev) : d.unwritten (d.sendOn l p) := by
  refine ⟨?_, records_of (sendOn_sansTraffic l p d)⟩
  unfold Dev.sendOn
  split
  · rw [Dev.service, sendWaiting_mem, Dev.modLink_mem]
  · exact Dev.modLink_mem _ _ _

theorem unwritten_respond (l : Nat) (p : Packet) (d : Dev) : d.unwritten (d.respond l p) := by
  unfold Dev.respond
  split
  · exact unwritten_sendOn _ p d
  · exact unwritten_modLink d l _

theorem unwritten_answerRd (l : Nat) (p : Packet) (refused : Bool) (bs : List Byte) (ps : List Bool) (d : Dev) :
    d.unwritten (d.answerRd l p refused bs ps) := by
  unfold Dev.answerRd
  dsimp only
  split
  · exact unwritten_respond l _ d
  · exact (unwritten_respond l _ d).trans (unwritten_respond l _ _)

/-! ### Requests of peers (R371, R380) -/

theorem responseTo_of_fab {d e : Dev} (h : e.fab = d.fab) (p : Packet) (typ arg : Nat) : responseTo e p typ arg = responseTo d p typ arg := by
  simp only [responseTo, h]

/-- The bytes that a request asks for or brings (R371). -/
def askedBytes (p : Packet) : Nat := if p.typ = 0x10 then rdLength p else p.payload.length

section
variable (t : TimeUnit) {d : Dev} (job : Nat) (wt : Await) {l : Nat} {p : Packet}

section
variable (h : d.passes l p (fld p.arg.toNat 0 52) (askedBytes p))
include h

theorem servePeer_rd (htyp : p.typ = 0x10) : d.servePeer t job wt l p =
    (d.read t (jobReq job wt (peerReq l (d.mappedPart l p))) (fld p.arg.toNat 0 52) (askedBytes p)).2.answerRd l p false
      (d.read t (jobReq job wt (peerReq l (d.mappedPart l p))) (fld p.arg.toNat 0 52) (askedBytes p)).1.1
      (d.read t (jobReq job wt (peerReq l (d.mappedPart l p))) (fld p.arg.toNat 0 52) (askedBytes p)).1.2 := by
  have hok := requestOk_passes h
  simp only [askedBytes, htyp, if_true] at hok ⊢
  simp only [Dev.servePeer, htyp, if_true, hok]

theorem servePeer_wr (htyp : p.typ = 0x11) :
    let y := d.write t (jobReq job wt (peerReq l (d.mappedPart l p))) (fld p.arg.toNat 0 52) p.payload p.poisonBits (packetMask p)
    d.servePeer t job wt l p = y.respond l (responseTo y p 0x19 0) := by
  intro y
  have hok := requestOk_passes h
  have hne : ¬(0x11 : BitVec 8) = 0x10 := by decide
  simp only [askedBytes, htyp, if_neg hne] at hok
  rw [responseTo_of_fab (fab_of_sansRings (write_sansRings ..))]
  simp only [Dev.servePeer, htyp, if_neg hne, if_true, hok, y]

theorem servePeer_at (htyp : p.typ = 0x12) :
    let y := d.atomic t (jobReq job wt (peerReq l (d.mappedPart l p))) (fld p.arg.toNat 52 4) (fld p.arg.toNat 0 52) p.payload
      p.poisonBits (packetMask p)
    d.servePeer t job wt l p = y.respond l (responseTo y p 0x19 0) := by
  intro y
  have hok := requestOk_passes h
  have hne : ¬(0x12 : BitVec 8) = 0x10 := by decide
  have hne' : ¬(0x12 : BitVec 8) = 0x11 := by decide
  simp only [askedBytes, htyp, if_neg hne] at hok
  rw [responseTo_of_fab (fab_of_sansRings (atomic_sansRings ..))]
  simp only [Dev.servePeer, htyp, if_neg hne, if_neg hne', hok, y]

end

/-- A request that fails a check is refused with its own kind of response, and counted (R371, R380). -/
theorem servePeer_refused (h : ¬d.passes l p (fld p.arg.toNat 0 52) (askedBytes p)) :
    d.servePeer t job wt l p = (d.refuseRequest l p).refusal l := by
  have hok := requestOk_refuses h
  rw [askedBytes] at hok
  simp only [Dev.servePeer, hok]

end

theorem refuseRequest_rd {p : Packet} (htyp : p.typ = 0x10) (l : Nat) (d : Dev) :
    d.refuseRequest l p = d.answerRd l p true (List.replicate (askedBytes p) 0) [] := by
  simp only [Dev.refuseRequest, askedBytes, htyp, if_true]

theorem refuseRequest_wack {p : Packet} (htyp : p.typ = 0x11 ∨ p.typ = 0x12) (l : Nat) (d : Dev) :
    d.refuseRequest l p = d.respond l (responseTo d p 0x19 1) := by
  have hne : ¬p.typ = 0x10 := by rcases htyp with h | h <;> simp [h]
  rw [Dev.refuseRequest, if_neg hne, if_pos htyp]

theorem unwritten_refuseRequest (l : Nat) (p : Packet) (d : Dev) : d.unwritten (d.refuseRequest l p) := by
  unfold Dev.refuseRequest
  split
  · exact unwritten_answerRd l p true _ _ d
  · split
    · exact unwritten_respond l _ d
    · exact ⟨rfl, rfl⟩

/-- Settles O50: the next request on a link is a job of this device, and its checks select what serving it does. -/
theorem peerRequestsAreCheckedInOrder : Obligations.PeerRequestsAreCheckedInOrder := by
  constructor
  · intro s l p hnext haddr d t e takes
    refine ⟨fun htyp => ?_, fun htyp => ?_, fun htyp => ?_, request_whole (j := .peer l p)⟩
    all_goals
      have harrive {types : Nat → Bool} (htypes : types p.typ.toNat = true) :=
        arrive_here (act := Dev.request t (.peer l p)) hnext haddr htypes (by rw [htyp]; decide) (by rw [htyp]; rfl)
    · exact run_of_eq (harrive (types := (· == 0x10)) (by rw [htyp]; rfl))
    · exact run_of_eq (harrive (types := (· == 0x11)) (by rw [htyp]; rfl))
    · exact run_of_eq (harrive (types := (· == 0x12)) (by rw [htyp]; rfl))
  · intro t d job wt l p _ a n q req passes served x zeros wack
    refine ⟨rfl, fun h => ⟨servePeer_rd t job wt h, servePeer_wr t job wt h, servePeer_at t job wt h⟩, fun h => ?_,
      fun e => congrArg Link.cnt (Dev.link_modLink e l.isLt _)⟩
    have hserved : served = (d.refuseRequest l p).refusal l := servePeer_refused t job wt h
    obtain ⟨hmem, hrecords⟩ := (unwritten_refuseRequest l p d).trans (unwritten_modLink _ l (fun k => { k with cnt := vmod k.cnt 1 (fun c => c.addHi 1) }))
    exact ⟨fun htyp => hserved.trans (congrArg _ (refuseRequest_rd htyp l d)),
      fun htyp => hserved.trans (congrArg _ (refuseRequest_wack htyp l d)),
      (congrArg Dev.mem hserved).trans hmem, (congrArg Dev.records hserved).trans hrecords⟩

/-! ### Responses (R371, R381) -/

/-- The first 512 bytes that an RDR brings for a read of `n` bytes: zeros where it refuses (R371). -/
def firstBytes (p : Packet) (n : Nat) : List Byte :=
  (upTo (min 512 n)).map (fun i => if bit p.arg.toNat 0 then 0 else p.payload.getD i 0)

/-- Their poison bits. -/
def firstPoison (p : Packet) (n : Nat) : List Bool :=
  (upTo (min 512 n)).map (fun i => !bit p.arg.toNat 0 && p.poisonBits.getD i false)

/-- What the first half of a read's answer leaves among a link's outstanding requests: nothing of a read of up to 512 bytes. -/
def Link.answered (w : Outstanding) (k : Link) : Link :=
  { k with waiting := if w.len ≤ 512 then k.waiting.filter (fun y => y != w)
                      else k.waiting.map (fun y => if y = w then { y with half := true } else y) }

section
variable {d : Dev} {l : Nat} {p : Packet} {w : Outstanding} (hnext : d.nextOn l p = true) (haddr : p.daddr = d.fab.addr)
include hnext haddr

/-- An RDR at the start of its read's bytes. -/
theorem rdrPacket_first (htyp : p.typ = 0x18) (hoff : fld p.arg.toNat 1 5 = 0)
    (hfind : ((d.received l p).link (p.tag.toNat % 32)).waiting.find? (fun w => w.tag == p.tag.toNat && w.typ == 0x10) = some w) :
    rdrPacket l p d = ((d.received l p).modMem (·.putAll w.addr (firstBytes p w.len) (firstPoison p w.len) [])).modLink
      (p.tag.toNat % 32) (·.answered w) := by
  rw [rdrPacket, arrive_here hnext haddr (by rw [htyp]; rfl) (by rw [htyp]; decide) (by rw [htyp]; rfl)]
  simp [hfind, hoff, firstBytes, firstPoison, Link.answered]

/-- A WACK for an outstanding WR or AT ends it. -/
theorem wackPacket_ends (htyp : p.typ = 0x19) (after : Option (Nat × Nat) → Bool → Dev → Dev)
    (hfind : ((d.received l p).link (p.tag.toNat % 32)).waiting.find?
      (fun w => w.tag == p.tag.toNat && (w.typ == 0x11 || w.typ == 0x12)) = some w) :
    wackPacket l p after d = after w.flight (bit p.arg.toNat 0) ((d.received l p).modLink (p.tag.toNat % 32)
      (fun k => { k with waiting := k.waiting.filter (fun y => y != w) })) := by
  rw [wackPacket, arrive_here hnext haddr (by rw [htyp]; rfl) (by rw [htyp]; decide) (by rw [htyp]; rfl)]
  simp only [hfind]

/-- A WACK that nothing awaits is taken and does nothing. -/
theorem wackPacket_stray (htyp : p.typ = 0x19) (after : Option (Nat × Nat) → Bool → Dev → Dev)
    (hfind : ((d.received l p).link (p.tag.toNat % 32)).waiting.find?
      (fun w => w.tag == p.tag.toNat && (w.typ == 0x11 || w.typ == 0x12)) = none) :
    wackPacket l p after d = d.received l p := by
  rw [wackPacket, arrive_here hnext haddr (by rw [htyp]; rfl) (by rw [htyp]; decide) (by rw [htyp]; rfl)]
  simp only [hfind]

end

/-- The bytes of an RDR without poison stand in memory, good. -/
theorem spot_firstBytes (m : Memory) {p : Packet} (hgood : p.poisonBits = []) (a : Nat) {n i : Nat} (hn : i < n) (hi : i < 512) :
    (m.putAll a (firstBytes p n) (firstPoison p n) []).spot (a + i) = (if bit p.arg.toNat 0 then 0 else p.payload.getD i 0, false) := by
  have hin : i < min 512 n := Nat.lt_min.mpr ⟨hi, hn⟩
  have hlen : i < (firstBytes p n).length := by simpa [firstBytes, upTo] using hin
  have hpoison : (firstPoison p n).getD i false = false := by simp [firstPoison, upTo, hgood, hin]
  rw [Memory.spot_putAll_selected m _ hlen rfl, hpoison, if_neg Bool.false_ne_true]
  simp [firstBytes, upTo, hin]

/-- Settles O51: an RDR writes the bytes of the read that its tag names, a WACK takes its write from those outstanding. -/
theorem peerResponsesAreTaken : Obligations.PeerResponsesAreTaken := by
  intro s l p w hnext haddr d t home ws
  have hhome : home < 32 := Nat.mod_lt _ (by decide)
  refine ⟨fun htyp hfind hoff hgood => ?rdr, fun htyp => ⟨fun hfind => ⟨?ends, fun howner _ => ?quiet⟩, fun hfind => ?stray⟩⟩
  case rdr =>
    refine ⟨_, run_of_eq (congrArg (Dev.goOn t) (rdrPacket_first hnext haddr htyp hoff hfind)), fun i hn hi => ?_, fun hshort => ?_,
      fun hlong => ?_⟩
    · obtain ⟨hbyte, hpoison⟩ := Prod.ext_iff.mp (spot_firstBytes d.mem hgood w.addr hn hi)
      exact ⟨hpoison, hbyte⟩
    · rw [Dev.link_modLink _ hhome, Dev.link_modMem]
      exact if_pos hshort
    · rw [Dev.link_modLink _ hhome, Dev.link_modMem]
      exact if_neg (Nat.not_le.mpr hlong)
  case ends => exact run_of_eq (congrArg (Dev.goOn t) (wackPacket_ends hnext haddr htyp Dev.signerAnswer hfind))
  case quiet => exact if_pos (Or.inl howner)
  case stray => exact run_of_eq (congrArg (Dev.goOn t) (wackPacket_stray hnext haddr htyp Dev.signerAnswer hfind))

end Sys2Proof.Machine
end

section
/-! Proofs of the collective engines: beginning, completion, the watchdog, and the status record (R386, R389, R399). -/

namespace Sys2Proof.Machine

/-! ### What stands of collectives and flights -/

/-- Of each flight of a bay, whether it has left its queue and whether its results are written. -/
def Bay.marks (y : Bay) : List (Nat × Bool × Bool) := y.flights.map (fun f => (f.id, f.begun, f.done))

/-- The engines' collectives, and the marks of a bay's flights. -/
def Dev.collView (d : Dev) (b : Nat) : List Coll × List (Nat × Bool × Bool) := (d.colls, (d.bay b).marks)

theorem collView_of_sansOccs {d e : Dev} (h : d.sansOccs = e.sansOccs) (b : Nat) : d.collView b = e.collView b :=
  Prod.ext (congrArg (·.colls) h) (by simp only [Dev.collView, Dev.bay, bays_of_sansOccs h])

theorem collView_of_sansRings {d e : Dev} (h : d.sansRings = e.sansRings) (b : Nat) : d.collView b = e.collView b :=
  collView_of_sansOccs (sansOccs_of_sansRings h) b

theorem collView_had (t : TimeUnit) (d : Dev) (effect : Dev → Dev) (b : Nat) :
    (d.had t effect).collView b = (effect d.calm).collView b := collView_of_sansRings (flushOwed_sansRings t (effect d.calm)) b

/-- Whether the flight `id` has left its queue, and whether its results are written. -/
def Bay.hasBegun (id : Nat) (y : Bay) : Prop := ∀ g ∈ y.flights, g.id = id → g.begun = true
def Bay.hasDone (id : Nat) (y : Bay) : Prop := ∀ g ∈ y.flights, g.id = id → g.done = true

theorem Bay.hasBegun_iff {id : Nat} {y : Bay} : y.hasBegun id ↔ ∀ m ∈ y.marks, m.1 = id → m.2.1 = true := by
  simp [Bay.hasBegun, Bay.marks]

/-- What each step of a fold brings about for its own element, and the others keep, stands in the end for every element of the list. -/
theorem foldl_brings {α β : Type} {P : α → β → Prop} {f : β → α → β} (hown : ∀ b x, P x (f b x)) (hkeep : ∀ b x y, P x b → P x (f b y))
    {l : List α} {x : α} (hx : x ∈ l) (b : β) : P x (l.foldl f b) := by
  have hstay (l : List α) (b : β) (h : P x b) : P x (l.foldl f b) := by
    induction l generalizing b with
    | nil => exact h
    | cons y rest ih => exact ih _ (hkeep b x y h)
  induction l generalizing b with
  | nil => exact absurd hx List.not_mem_nil
  | cons y rest ih =>
    rcases List.mem_cons.mp hx with rfl | hrest
    · exact hstay rest _ (hown b x)
    · exact ih hrest _

theorem bay_modBay_brings {p : Bay → Prop} {f : Bay → Bay} (hf : ∀ y, p y → p (f y)) {d : Dev} (n : Nat) {b : Nat} (hb : b < 64)
    (h : p (d.bay b)) : p ((d.modBay n f).bay b) := by
  by_cases he : b = n
  · subst he
    rw [Dev.bay_modBay d hb]
    exact hf _ h
  · rwa [Dev.bay_modBay_ne d he]

/-- A bay change made for each pair of a list brings about, for each pair in it, what its own change does and the others keep. -/
theorem bay_foldl_brings {P : Nat → Bay → Prop} {f : Nat → Bay → Bay} (hown : ∀ id y, P id (f id y))
    (hkeep : ∀ id j y, P id y → P id (f j y)) {l : List (Nat × Nat)} {x : Nat × Nat} (hx : x ∈ l) (hb : x.1 < 64) (d : Dev) :
    P x.2 ((l.foldl (fun (d : Dev) e => d.modBay e.1 (f e.2)) d).bay x.1) := by
  refine foldl_brings (P := fun x d => x.1 < 64 → P x.2 (Dev.bay d x.1)) ?_ ?_ hx d hb
  · intro d x hb
    rw [Dev.bay_modBay d hb]
    exact hown _ _
  · exact fun d x y h hb => bay_modBay_brings (hkeep x.2 y.2) y.1 hb (h hb)

theorem mem_modFlight {y : Bay} {j : Nat} {g : Flight → Flight} {f : Flight} (h : f ∈ (y.modFlight j g).flights) :
    ∃ f0 ∈ y.flights, f = if f0.id = j then g f0 else f0 := by
  obtain ⟨f0, hf0, rfl⟩ := List.mem_map.mp h
  exact ⟨f0, hf0, rfl⟩

theorem hasBegun_beginFlight {id j : Nat} {y : Bay} (h : j = id ∨ y.hasBegun id) : (y.beginFlight j).hasBegun id := by
  refine beginNext_all ?_ (fun f hf hid => ?_)
  · exact fun _ _ _ => rfl
  obtain ⟨f0, hf0, rfl⟩ := mem_modFlight hf
  by_cases hj : f0.id = j
  · rw [if_pos hj]
  · rw [if_neg hj] at hid ⊢
    exact h.elim (fun he => absurd (hid.trans he.symm) hj) (fun h => h f0 hf0 hid)

/-- What `Dev.finish` does in its bay. -/
def Bay.finished (id : Nat) (y : Bay) : Bay := y.modFlight id (fun f => { f with done := true })

theorem hasDone_finished {id j : Nat} {y : Bay} (h : j = id ∨ y.hasDone id) : (y.finished j).hasDone id := by
  intro f hf hid
  obtain ⟨f0, hf0, rfl⟩ := mem_modFlight hf
  by_cases hj : f0.id = j
  · rw [if_pos hj]
  · rw [if_neg hj] at hid ⊢
    exact h.elim (fun he => absurd (hid.trans he.symm) hj) (fun h => h f0 hf0 hid)

/-! ### Codebooks (R170) -/

theorem marks_keepBook (id : Nat) (r : Option (List Byte × List Bool)) (y : Bay) :
    (y.modFlight id (fun f => { f with book := r })).marks = y.marks := by
  simp only [Bay.marks, Bay.modFlight, List.map_map]
  refine List.map_congr_left (fun f _ => ?_)
  simp only [Function.comp]
  split <;> rfl

theorem collView_flightBook (t : TimeUnit) (b : Nat) (f : Flight) (d : Dev) (c : Nat) : (d.flightBook t b f).2.collView c = d.collView c := by
  unfold Dev.flightBook
  split
  · rfl
  · dsimp only
    rw [← collView_of_sansRings (fetch_sansRings t (f.req 0x05 b) f.cfg.codebook.toNat 32 d) c]
    rw [Dev.collView, Dev.modBay_colls, bay_modBay_keeps Bay.marks _ b _ (marks_keepBook f.id _) c, Dev.collView]

theorem collView_collBook (t : TimeUnit) (b : Nat) (f : Flight) (x : Desc) (d : Dev) (c : Nat) :
    (d.collBook t b f x).2.collView c = d.collView c := by
  unfold Dev.collBook
  split
  · exact collView_flightBook t b f d c
  · rfl

/-! ### Sending (R372, R388) -/

theorem sendChunk_sansOccs (c : Coll) (r lo hi incl dropc : Nat) (byte : Nat → Nat) (d : Dev) :
    (d.sendChunk c r lo hi incl dropc byte).sansOccs = d.sansOccs := by
  refine foldl_sansOccs (fun d k => ?_) _ _
  split
  · rfl
  · dsimp only [Dev.sendPath]
    split
    · rfl
    · exact sendRouted_sansOccs _ d

theorem sendFinal_sansOccs (c : Coll) (r lo hi : Nat) (d : Dev) : (d.sendFinal c r lo hi).sansOccs = d.sansOccs :=
  sendChunk_sansOccs ..

/-! ### Beginning (R386, R388) -/

/-- What names a collective, and whether it runs. -/
def Coll.badge (c : Coll) : Bool × OccKey × Nat × List (Nat × Nat) := (c.running, c.occ, c.seq, c.issued)

theorem putFinal_badge (c : Coll) (lo : Nat) (bs : List Nat) : (c.putFinal lo bs).badge = c.badge := rfl

theorem badge_finals (c : Coll) (h : Shape) (book : Book) (lo hi : Nat) : (c.finals h book lo hi).badge = c.badge :=
  foldl_keeps Coll.badge _ (fun c _ => putFinal_badge c _ _) _ _

theorem sendFinals_sansOccs (c : Coll) (rank : Nat → Nat) (lo hi : Nat) (ks : List Nat) (d : Dev) :
    (ks.foldl (fun (d : Dev) k => d.sendFinal c (rank k) lo hi) d).sansOccs = d.sansOccs :=
  foldl_sansOccs (fun d k => sendFinal_sansOccs c (rank k) lo hi d) ks d

theorem treeUp_keeps (book : Book) (bays : List (Nat × Flight × Desc × Desc)) (h : Shape) (wire : List Nat) (c : Coll) (d : Dev) :
    (d.treeUp book bays h wire c).1.badge = c.badge ∧ (d.treeUp book bays h wire c).2.sansOccs = d.sansOccs := by
  unfold Dev.treeUp
  split
  · dsimp only
    constructor
    · exact badge_finals c h book 0 h.units
    · exact sendFinals_sansOccs _ (fun k => k) _ _ _ d
  · dsimp only
    exact ⟨rfl, sendChunk_sansOccs c _ _ _ _ _ _ d⟩

/-- What a member sends as it starts leaves the collective's name, and of the device all but links and meters. -/
theorem collFirst_keeps (book : Book) (bays : List (Nat × Flight × Desc × Desc)) (h : Shape) (raw : Option (List Nat)) (c : Coll) (d : Dev) :
    (d.collFirst book bays h raw c).1.badge = c.badge ∧ (d.collFirst book bays h raw c).2.sansOccs = d.sansOccs := by
  unfold Dev.collFirst
  dsimp only
  split
  · refine ⟨rfl, ?_⟩
    split
    · rfl
    · exact sendFinal_sansOccs ..
  · split
    · constructor
      · rfl
      · exact sendFinals_sansOccs _ (fun k => backRank _ _ k) _ _ _ d
    · exact ⟨rfl, rfl⟩
  · dsimp only
    exact ⟨rfl, sendChunk_sansOccs c _ _ _ _ _ _ d⟩
  · exact ⟨rfl, rfl⟩
  · split
    · refine ⟨?_, rfl⟩
      split
      · exact badge_finals ..
      · rfl
    · split
      · split
        · obtain ⟨hbadge, hdev⟩ := treeUp_keeps book bays h (ownWire c h raw) (c.learn c.ownCounts.1 c.ownCounts.2) d
          exact ⟨hbadge.trans rfl, hdev⟩
        · exact ⟨rfl, rfl⟩
      · dsimp only
        exact ⟨rfl, sendChunk_sansOccs (c.learn c.ownCounts.1 c.ownCounts.2) _ _ _ _ _ _ d⟩

/-- The POISON_BITE record of a poisoned byte of an operand that a sweep has read (R353, R388). -/
def Dev.bitten (t : TimeUnit) (c : Coll) (f : Flight) (s : Desc) (d : Dev) : Bool × Dev :=
  match d.operandBite s with
  | none => (false, d)
  | some (a, n) =>
    let r := biteRecord (plainSrc 0x0A c.viaduct) 2 a n (opc f.word.toNat) (d.mbOf f)
    (true, d.emit t f.part { f.record 0x02 (plainSrc 0x0A c.viaduct) with
      poison := true, addr := r.addr, count := r.count, detail := r.detail, desc := BitVec.ofNat 8 s.slot })

theorem bitten_sansRings (t : TimeUnit) (c : Coll) (f : Flight) (s : Desc) (d : Dev) : (d.bitten t c f s).2.sansRings = d.sansRings := by
  unfold Dev.bitten
  split
  · rfl
  · exact emit_sansRings t _ _ d

theorem sweep_cons (t : TimeUnit) (c : Coll) (b : Nat) (f : Flight) (s x : Desc) (rest : List (Nat × Flight × Desc × Desc)) (d : Dev) :
    (d.sweep t c ((b, f, s, x) :: rest)).2 = (((d.load t b f 0x06 s (sparseTag f.cfg)).2.bitten t c f s).2.sweep t c rest).2 := rfl

theorem sweep_sansRings (t : TimeUnit) (c : Coll) (bays : List (Nat × Flight × Desc × Desc)) (d : Dev) :
    (d.sweep t c bays).2.sansRings = d.sansRings := by
  induction bays generalizing d with
  | nil => rfl
  | cons y rest ih =>
    obtain ⟨b, f, s, x⟩ := y
    rw [sweep_cons, ih, bitten_sansRings, load_sansRings]

/-- A collective and the device, with the collective in its place. -/
def Dev.placed (n : Nat) (r : Coll × Dev) : Dev := { r.2 with colls := r.2.colls.set n r.1 }

theorem collView_placed (n : Nat) (r : Coll × Dev) (b : Nat) :
    (Dev.placed n r).collView b = ((r.2.collView b).1.set n r.1, (r.2.collView b).2) := rfl

/-- What the sweep of a collective that begins reads, or nothing where it reads nothing (R386). -/
def Dev.swept (t : TimeUnit) (c : Coll) (d : Dev) : (List Loaded × Bool × Bool) × Dev :=
  if c.reads then d.sweep t c (d.collBays c) else (([], false, false), d)

theorem swept_sansRings (t : TimeUnit) (c : Coll) (d : Dev) : (d.swept t c).2.sansRings = d.sansRings := by
  unfold Dev.swept
  split
  · exact sweep_sansRings t c _ d
  · rfl

/-- A collective begins with its sweep, its codebook and its first packets. -/
theorem collBegin_eq {t : TimeUnit} {n : Nat} {c : Coll} {d : Dev} {h : Shape} {b : Nat} {f : Flight} {s x : Desc}
    {rest : List (Nat × Flight × Desc × Desc)} (hshape : collShape c.op (d.collBays c) = some h)
    (hbays : d.collBays c = (b, f, s, x) :: rest) :
    ∃ (raw : Option (List Nat)) (c1 : Coll), c1.badge = (true, c.occ, c.seq, c.issued) ∧
      Dev.collBegin t n c d =
        Dev.placed n (((d.swept t c).2.collBook t b f x).2.collFirst ((d.swept t c).2.collBook t b f x).1 (d.collBays c) h raw c1) := by
  unfold Dev.collBegin Dev.swept
  rw [hbays] at hshape ⊢
  simp only [hshape]
  exact ⟨_, _, rfl, rfl⟩

/-- A collective whose bays have a shape begins: it runs under its own name, in its place, and its sweep and its first packets leave the
flights. -/
theorem collBegin_begins {t : TimeUnit} {n : Nat} {c : Coll} {d : Dev} (hshape : (collShape c.op (d.collBays c)).isSome)
    (hbays : d.collBays c ≠ []) :
    ∃ c', c'.badge = (true, c.occ, c.seq, c.issued) ∧
      ∀ b, (Dev.collBegin t n c d).collView b = (d.colls.set n c', (d.bay b).marks) := by
  obtain ⟨h, hshape⟩ := Option.isSome_iff_exists.mp hshape
  obtain ⟨⟨b, f, s, x⟩, rest, hlist⟩ := List.exists_cons_of_ne_nil hbays
  obtain ⟨raw, c1, hbadge, hbegin⟩ := collBegin_eq (t := t) (n := n) hshape hlist
  obtain ⟨hnamed, hfirst⟩ := collFirst_keeps ((d.swept t c).2.collBook t b f x).1 (d.collBays c) h raw c1
    ((d.swept t c).2.collBook t b f x).2
  refine ⟨_, hnamed.trans hbadge, fun k => ?_⟩
  rw [hbegin, collView_placed, collView_of_sansOccs hfirst k, collView_collBook, collView_of_sansRings (swept_sansRings t c d) k]
  rfl

/-- A step of a collective that nothing makes wait is made whole. -/
theorem collTry_whole {t : TimeUnit} {n : Nat} {c : Coll} {step : Coll → Dev → Dev} {d : Dev} (h : d.whole t c.await (step c) = true) :
    d.collTry t n c step = d.had t (step c) := by
  simp only [Dev.collTry, attempt_whole (effect := fun w => step { c with await := w }) h]

/-- The COLLs of a collective leave their queues. -/
def Dev.collLeaves (c : Coll) (d : Dev) : Dev := c.issued.foldl (fun (d : Dev) x => d.modBay x.1 (·.beginFlight x.2)) d

theorem collLeaves_colls (c : Coll) (d : Dev) : (d.collLeaves c).colls = d.colls :=
  foldl_keeps (·.colls) _ (fun d _ => Dev.modBay_colls d _ _) _ _

theorem hasBegun_collLeaves {c : Coll} {x : Nat × Nat} (hx : x ∈ c.issued) (hb : x.1 < 64) (d : Dev) :
    ((d.collLeaves c).bay x.1).hasBegun x.2 := by
  unfold Dev.collLeaves
  refine bay_foldl_brings (P := Bay.hasBegun) (f := fun id y => y.beginFlight id) ?_ ?_ hx hb d
  · exact fun _ _ => hasBegun_beginFlight (Or.inl rfl)
  · exact fun _ _ _ h => hasBegun_beginFlight (Or.inr h)

theorem collEngineStart_whole {t : TimeUnit} {n : Nat} {c : Coll} {d : Dev} (hc : d.colls[n]? = some c) (hready : d.collReady t c = true)
    (hreads : d.collAwaits c = false) (h : (d.collLeaves c).whole t c.await (Dev.collBegin t n c) = true) :
    collEngineStart n t d = (d.collLeaves c).had t (Dev.collBegin t n c) := by
  rw [← collTry_whole (n := n) (step := fun c => Dev.collBegin t n c) h]
  simp [collEngineStart, hc, hready, hreads, Dev.collLeaves]

/-! ### Completion (R389, R393, R420) -/

theorem storeStream_sansRings (t : TimeUnit) (q : Req) (x : Desc) (acc spoil : Bool) (byte : Nat → Nat) (d : Dev) :
    (d.storeStream t q x acc spoil byte).sansRings = d.sansRings := by
  unfold Dev.storeStream
  dsimp only
  split
  · exact foldl_sansRings _ (fun d w => (putBytes_sansRings t q _ _).trans (putBytes_sansRings t q _ d)) _ _
  · split
    · exact accumulateAll_sansRings t q x 1 _ d
    · exact storePlain_sansRings t q x _ d

/-- A collective that is abandoned has poison stored for it, and its status record (R399). -/
theorem collFinish_abandoned {c : Coll} (hend : c.ending.isSome) (t : TimeUnit) (n : Nat) (d : Dev) :
    ∃ e : Dev, e.sansRings = d.sansRings ∧ Dev.collFinish t n c d = e.collClose n c := by
  obtain ⟨⟨cause, who⟩, hend⟩ := Option.isSome_iff_exists.mp hend
  unfold Dev.collFinish
  dsimp only
  split
  · simp only [hend]
    refine ⟨_, (store_sansRings ..).trans ?_, rfl⟩
    split
    · rfl
    · exact foldl_sansRings _ (fun d e => storeStream_sansRings ..) _ _
  · exact ⟨d, rfl, rfl⟩

theorem emitIf_sansRings (p : Prop) [Decidable p] (t : TimeUnit) (q : Option Nat) (r : EvRec) (s : Option W64) (d : Dev) :
    (if p then d.emitStep t q r s else d).sansRings = d.sansRings := by
  split
  · exact emitStep_sansRings t q r s d
  · rfl

/-- A collective that ends stores what it has for its bays and its status record, which leaves the collectives and the flights, and
closes. -/
theorem collFinish_closes (t : TimeUnit) (n : Nat) (c : Coll) (d : Dev) :
    ∃ e : Dev, (∀ b, e.collView b = d.collView b) ∧ Dev.collFinish t n c d = e.collClose n c := by
  cases hend : c.ending with
  | some x =>
    obtain ⟨e, hrings, hclose⟩ := collFinish_abandoned (Option.isSome_iff_exists.mpr ⟨x, hend⟩) t n d
    exact ⟨e, collView_of_sansRings hrings, hclose⟩
  | none =>
    unfold Dev.collFinish
    dsimp only
    split
    next h b f s x rest _ _ =>
      simp only [hend]
      refine ⟨_, fun k => Eq.trans (collView_of_sansRings ?_ k) (collView_collBook t b f x d k), rfl⟩
      rw [emitIf_sansRings, store_sansRings]
      split
      · rfl
      · exact foldl_sansRings _ (fun d e => storeStream_sansRings ..) _ _
    · exact ⟨d, fun _ => rfl, rfl⟩

/-- A collective that has ended is gone, and the results of its COLLs are written. -/
def Coll.goneIn (c : Coll) (colls : List Coll) (n : Nat) (d : Dev) : Prop :=
  d.colls = colls.eraseIdx n ∧ ∀ x ∈ c.issued, x.1 < 64 → (d.bay x.1).hasDone x.2

theorem collClose_gone (n : Nat) (c : Coll) (d : Dev) : c.goneIn d.colls n (d.collClose n c) := by
  constructor
  · exact foldl_keeps (·.colls) _ (fun d _ => Dev.modBay_colls d _ _) _ _
  · intro x hx hb
    refine bay_foldl_brings (P := Bay.hasDone) (f := Bay.finished) ?_ ?_ hx hb _
    · exact fun _ _ => hasDone_finished (Or.inl rfl)
    · exact fun _ _ _ h => hasDone_finished (Or.inr h)

theorem collClose_parts (n : Nat) (c : Coll) (d : Dev) : (d.collClose n c).parts = d.parts :=
  foldl_keeps (·.parts) _ (fun d _ => Dev.modBay_parts d _ _) _ _

theorem Bay.hasDone_iff {id : Nat} {y : Bay} : y.hasDone id ↔ ∀ m ∈ y.marks, m.1 = id → m.2.2 = true := by
  simp [Bay.hasDone, Bay.marks]

theorem goneIn_of_collView {c : Coll} {colls : List Coll} {n : Nat} {d e : Dev} (h : ∀ b, e.collView b = d.collView b)
    (hgone : c.goneIn colls n d) : c.goneIn colls n e := by
  obtain ⟨hcolls, hdone⟩ := hgone
  refine ⟨(congrArg Prod.fst (h 0)).trans hcolls, fun x hx hb => ?_⟩
  have hmarks : (e.bay x.1).marks = (d.bay x.1).marks := congrArg Prod.snd (h x.1)
  rw [Bay.hasDone_iff, hmarks]
  exact Bay.hasDone_iff.mp (hdone x hx hb)

/-- A collective whose last step nothing makes wait ends, and is gone. -/
theorem had_collFinish_gone (t : TimeUnit) (n : Nat) (c : Coll) (d : Dev) : c.goneIn d.colls n (d.had t (Dev.collFinish t n c)) := by
  refine goneIn_of_collView (collView_had t d _) ?_
  obtain ⟨e, hview, hclose⟩ := collFinish_closes t n c d.calm
  have hcolls : e.colls = d.colls := congrArg Prod.fst (hview 0)
  rw [hclose, ← hcolls]
  exact collClose_gone n c e

theorem collComplete_whole {t : TimeUnit} {n : Nat} {c : Coll} {d : Dev} (hc : d.colls[n]? = some c) (hrun : c.running = true)
    (htodo : c.todo = []) (hreads : d.collAwaits c = false) (h : d.whole t c.await (Dev.collFinish t n c) = true) :
    collComplete n t d = d.had t (Dev.collFinish t n c) := by
  rw [← collTry_whole (n := n) (step := fun c => Dev.collFinish t n c) h]
  simp [collComplete, hc, hrun, htodo, hreads]

/-! ### The watchdog (R399) -/

theorem occ_map_of_parts {α : Type} {p : Occ → α} (hp : ∀ o, p o.sansTraffic = p o) {d e : Dev}
    (h : d.sansTraffic.parts = e.sansTraffic.parts) (k : OccKey) : (d.occ k).map p = (e.occ k).map p := by
  have hocc := congrArg (Option.map p) (occ_of_parts h k)
  simp only [Option.map_map] at hocc
  rwa [show p ∘ Occ.sansTraffic = p from funext hp] at hocc

/-- The last step of an abandoned collective leaves its occurrence as it stood. -/
theorem had_collFinish_parts {c : Coll} (hend : c.ending.isSome) (t : TimeUnit) (n : Nat) (d : Dev) :
    (d.had t (Dev.collFinish t n c)).sansTraffic.parts = d.sansTraffic.parts := by
  obtain ⟨e, hrings, hclose⟩ := collFinish_abandoned hend t n d.calm
  have hflush : (d.had t (Dev.collFinish t n c)).sansTraffic.parts = (Dev.collFinish t n c d.calm).sansTraffic.parts :=
    parts_of_sansRings (flushOwed_sansRings t (Dev.collFinish t n c d.calm))
  rw [hflush, hclose, sansTraffic_parts, collClose_parts, ← sansTraffic_parts]
  exact parts_of_sansRings hrings

/-- A collective that is abandoned: nothing more comes for it. -/
def Coll.ended (cause who : Nat) (c : Coll) : Coll := { c with ending := some (cause, who), todo := [], held := [] }

/-- A collective is given up: it sends nothing more, and its occurrence is withdrawn. -/
def Dev.giveUp (t : TimeUnit) (n cause who : Nat) (c : Coll) (d : Dev) : Dev :=
  (({ d with colls := d.colls.set n (c.ended cause who) } : Dev).dropPackets c).withdraw t latePeer noSlot c.occ

theorem abandon_eq {t : TimeUnit} {n cause who : Nat} {c : Coll} {d : Dev} (hc : d.colls[n]? = some c) :
    d.abandon t n cause who = collComplete n t (d.giveUp t n cause who c) := by
  simp only [Dev.abandon, hc, Dev.giveUp, Coll.ended]

theorem giveUp_colls (t : TimeUnit) (n cause who : Nat) (c : Coll) (d : Dev) :
    (d.giveUp t n cause who c).colls = d.colls.set n (c.ended cause who) :=
  congrArg (·.colls) (withdraw_sansOccs t latePeer noSlot c.occ (({ d with colls := d.colls.set n (c.ended cause who) } : Dev).dropPackets c))

theorem giveUp_occ {c : Coll} {d : Dev} {o : Occ} (ho : d.occ c.occ = some o) (hopen : o.open = true) (hpart : c.occ.part < 16)
    (t : TimeUnit) (n cause who : Nat) :
    ((d.giveUp t n cause who c).occ c.occ).map (fun o => (o.withdrawn, o.expect)) = some (true, some noSlot) := by
  have hkey := occ_key ho
  rw [← hkey] at ho hpart
  obtain ⟨hocc, -⟩ := withdrawalWritesALateRecord t (({ d with colls := d.colls.set n (c.ended cause who) } : Dev).dropPackets c) o latePeer
    noSlot ho hopen hpart (by decide)
  have hmarks := congrArg (Option.map (fun x => (x.1, x.2.1))) hocc
  rw [hkey, Option.map_map] at hmarks
  exact hmarks

/-- The ABANDON notices to a collective's other members. -/
def Dev.tellAbandon (c : Coll) (d : Dev) : Dev :=
  ((upTo c.ps.n).filter (· != c.ps.rank)).foldl (fun (e : Dev) r =>
    e.sendRouted (notice e 6 0 d.fab.addr.toNat c.ps.id 0 c.seq (c.ps.members.getD r 0))) d

theorem tellAbandon_colls (c : Coll) (d : Dev) : (d.tellAbandon c).colls = d.colls :=
  congrArg (·.colls) (foldl_sansOccs (fun d _ => sendRouted_sansOccs _ d) _ d)

theorem tellAbandon_parts (c : Coll) (d : Dev) : (d.tellAbandon c).sansTraffic.parts = d.sansTraffic.parts :=
  foldl_keeps (·.sansTraffic.parts) _ (fun d _ => (sendRouted_keeps _ d).2) _ d

theorem collWatchdog_due {t : TimeUnit} {n : Nat} {c : Coll} {d : Dev} (hc : d.colls[n]? = some c) (hdue : d.watchdogDue t c = true) :
    collWatchdog n t d = collComplete n t ((d.tellAbandon c).giveUp t n 1 d.fab.addr.toNat c) := by
  rw [← abandon_eq ((congrArg (·[n]?) (tellAbandon_colls c d)).trans hc)]
  simp [collWatchdog, hc, hdue, Dev.tellAbandon]

theorem running_of_watchdogDue {t : TimeUnit} {c : Coll} {d : Dev} (h : d.watchdogDue t c = true) : c.running = true := by
  simp only [Dev.watchdogDue, Bool.and_eq_true] at h
  obtain ⟨⟨⟨hrun, -⟩, -⟩, -⟩ := h
  exact hrun

/-! ### The status record (R389) -/

theorem ofBytes_drop (r : List Nat) (i : Nat) : ofBytes r / 256 ^ i = ofBytes (r.drop i) := by
  induction i generalizing r with
  | zero => simp
  | succ i ih =>
    cases r with
    | nil => simp [ofBytes]
    | cons b bs =>
      rw [ofBytes, List.drop_succ_cons, ← ih bs, Nat.pow_succ', ← Nat.div_div_eq_div_mul]
      congr 1
      omega

theorem ofBytes_take (r : List Nat) (k : Nat) : ofBytes r % 256 ^ k = ofBytes (r.take k) := by
  induction k generalizing r with
  | zero => simp [ofBytes, Nat.mod_one]
  | succ k ih =>
    cases r with
    | nil => simp [ofBytes]
    | cons b bs =>
      rw [ofBytes, List.take_succ_cons, ofBytes, ← ih bs, Nat.pow_succ', Nat.mod_mul]
      congr 1
      · omega
      · congr 2
        omega

/-- A field of whole bytes of a record. -/
theorem fld_ofBytes (r : List Nat) (i k : Nat) : fld (ofBytes r) (8 * i) (8 * k) = ofBytes ((r.drop i).take k) := by
  rw [fld, Nat.shiftRight_eq_div_pow, Nat.pow_mul, Nat.pow_mul, ofBytes_drop, ofBytes_take]

section
variable (c : Coll) (state cause who : Nat)

theorem status_length : (c.status state cause who).length = 32 := by
  simp [Coll.status, toBytes_length]

variable {c state cause who}

/-- A number that stands whole in a status record. -/
theorem status_number (i k : Nat) {v : Nat} (h : ((c.status state cause who).drop i).take k = toBytes k v) :
    fld (ofBytes (c.status state cause who)) (8 * i) (8 * k) = v % 256 ^ k := by
  rw [fld_ofBytes, h, ofBytes_toBytes]

theorem status_byte (i : Nat) {v : Nat} (hv : v < 256) (h : ((c.status state cause who).drop i).take 1 = [v]) :
    fld (ofBytes (c.status state cause who)) (8 * i) 8 = v := by
  rw [show (8 : Nat) = 8 * 1 from rfl, fld_ofBytes, h]
  exact Nat.mod_eq_of_lt hv

theorem status_step : fld (ofBytes (c.status state cause who)) 0 64 = c.step.toNat :=
  (status_number 0 8 rfl).trans (Nat.mod_eq_of_lt (c.step.isLt.trans_eq (by norm_num)))

end

/-- A collective that begins runs under its own name, and its COLLs have left their queues (R386). -/
theorem had_collBegin_begins {t : TimeUnit} {n : Nat} {c : Coll} {d : Dev} (hc : d.colls[n]? = some c)
    (hshape : (collShape c.op ((d.collLeaves c).collBays c)).isSome) (hbays : (d.collLeaves c).collBays c ≠ []) :
    (∃ c', ((d.collLeaves c).had t (Dev.collBegin t n c)).colls[n]? = some c' ∧ c'.running = true ∧ c'.occ = c.occ ∧ c'.seq = c.seq ∧
      c'.issued = c.issued) ∧
    ∀ x ∈ c.issued, x.1 < 64 → (((d.collLeaves c).had t (Dev.collBegin t n c)).bay x.1).hasBegun x.2 := by
  obtain ⟨hn, -⟩ := List.getElem?_eq_some_iff.mp hc
  obtain ⟨c', hbadge, hbegun⟩ := collBegin_begins (t := t) (n := n) (d := (d.collLeaves c).calm) hshape hbays
  have hview (b : Nat) : ((d.collLeaves c).had t (Dev.collBegin t n c)).collView b =
      ((d.collLeaves c).colls.set n c', ((d.collLeaves c).bay b).marks) :=
    (collView_had t (d.collLeaves c) _ b).trans (hbegun b)
  have hcolls : ((d.collLeaves c).had t (Dev.collBegin t n c)).colls = d.colls.set n c' :=
    (congrArg Prod.fst (hview 0)).trans (congrArg (List.set · n c') (collLeaves_colls c d))
  obtain ⟨hrun, hocc, hseq, hissued⟩ : c'.running = true ∧ c'.occ = c.occ ∧ c'.seq = c.seq ∧ c'.issued = c.issued := by
    simpa [Coll.badge] using hbadge
  refine ⟨⟨c', by rw [hcolls, List.getElem?_set_self hn], hrun, hocc, hseq, hissued⟩, fun x hx hb => ?_⟩
  have hmarks : (((d.collLeaves c).had t (Dev.collBegin t n c)).bay x.1).marks = ((d.collLeaves c).bay x.1).marks :=
    congrArg Prod.snd (hview x.1)
  rw [Bay.hasBegun_iff, hmarks]
  exact Bay.hasBegun_iff.mp (hasBegun_collLeaves hx hb d)

/-- A collective whose watchdog has run out, as it stands once it is given up (R399). -/
def Dev.forsaken (t : TimeUnit) (n : Nat) (c : Coll) (d : Dev) : Dev := (d.tellAbandon c).giveUp t n 1 d.fab.addr.toNat c

theorem forsaken_colls (t : TimeUnit) (n : Nat) (c : Coll) (d : Dev) :
    (d.forsaken t n c).colls = d.colls.set n (c.ended 1 d.fab.addr.toNat) :=
  (giveUp_colls ..).trans (congrArg (List.set · n (c.ended 1 d.fab.addr.toNat)) (tellAbandon_colls c d))

theorem forsaken_occ {c : Coll} {d : Dev} {o : Occ} (ho : d.occ c.occ = some o) (hopen : o.open = true) (hpart : c.occ.part < 16)
    (t : TimeUnit) (n : Nat) :
    ((d.forsaken t n c).occ c.occ).map (fun o => (o.withdrawn, o.expect)) = some (true, some noSlot) := by
  have htold := occ_map_of_parts (p := Occ.open) (fun _ => rfl) (tellAbandon_parts c d) c.occ
  rw [ho, Option.map_some, hopen, Option.map_eq_some_iff] at htold
  obtain ⟨o', ho', hopen'⟩ := htold
  exact giveUp_occ ho' hopen' hpart t n 1 d.fab.addr.toNat

/-- A collective that is given up ends as soon as nothing makes it wait, and its occurrence stays withdrawn. -/
theorem forsaken_ends {t : TimeUnit} {n : Nat} {c : Coll} {d : Dev} {o : Occ} (hc : d.colls[n]? = some c) (hdue : d.watchdogDue t c = true)
    (ho : d.occ c.occ = some o) (hopen : o.open = true) (hpart : c.occ.part < 16)
    (hreads : (d.forsaken t n c).collAwaits (c.ended 1 d.fab.addr.toNat) = false)
    (hwhole : (d.forsaken t n c).whole t c.await (Dev.collFinish t n (c.ended 1 d.fab.addr.toNat)) = true) :
    c.goneIn d.colls n (collComplete n t (d.forsaken t n c)) ∧
      ((collComplete n t (d.forsaken t n c)).occ c.occ).map (·.withdrawn) = some true := by
  obtain ⟨hn, -⟩ := List.getElem?_eq_some_iff.mp hc
  have hc1 : (d.forsaken t n c).colls[n]? = some (c.ended 1 d.fab.addr.toNat) := by rw [forsaken_colls, List.getElem?_set_self hn]
  have hrun : (c.ended 1 d.fab.addr.toNat).running = true := running_of_watchdogDue (c := c) hdue
  rw [collComplete_whole hc1 hrun rfl hreads hwhole]
  obtain ⟨hleft, hdone⟩ := had_collFinish_gone t n (c.ended 1 d.fab.addr.toNat) (d.forsaken t n c)
  refine ⟨⟨hleft.trans (by rw [forsaken_colls, List.eraseIdx_set_eq]), hdone⟩, ?_⟩
  have hparts := had_collFinish_parts (c := c.ended 1 d.fab.addr.toNat) rfl t n (d.forsaken t n c)
  rw [occ_map_of_parts (p := (·.withdrawn)) (fun _ => rfl) hparts]
  have hmark := congrArg (Option.map Prod.fst) (forsaken_occ ho hopen hpart t n)
  rwa [Option.map_map] at hmark

/-- Settles O40: a step that nothing makes wait is the effect itself, and the stores, sweeps and packets of a collective leave the engines
and the flights alone. -/
theorem collectivesBeginCompleteOrAreAbandoned : Obligations.CollectivesBeginCompleteOrAreAbandoned := by
  intro s n c hc d t gone
  refine ⟨?_, ?_, ?_, ?_⟩
  · intro hready hreads e d' hwhole hshape hbays
    exact ⟨run_of_eq (collEngineStart_whole hc hready hreads hwhole), had_collBegin_begins hc hshape hbays⟩
  · intro hrun htodo hreads hwhole
    exact ⟨run_of_eq (collComplete_whole hc hrun htodo hreads hwhole), had_collFinish_gone t n c d⟩
  · intro o hdue ho hopen hpart
    exact ⟨d.forsaken t n c, run_of_eq (collWatchdog_due hc hdue), forsaken_colls t n c d, forsaken_occ ho hopen hpart t n,
      forsaken_ends hc hdue ho hopen hpart⟩
  · intro state cause who hstate hcause
    exact ⟨status_length c state cause who, status_step, status_number 8 2 rfl, status_number 10 2 rfl, status_number 12 2 rfl,
      status_number 14 2 rfl, status_byte 16 hstate rfl, status_byte 17 hcause rfl, status_number 18 2 rfl⟩

end Sys2Proof.Machine
end

section
/-! Writing records never makes the job at hand wait: the serving core posts its ring writes, and reads at once only what this device's
memory answers (R302, R321, R381, R441, R448). -/

namespace Sys2Proof.Machine

/-! ### Meters and errors (R311, R347, R348) -/

@[simp] theorem draw_stall (k : OccKey) (code index n : Nat) (d : Dev) : (d.draw k code index n).stall = d.stall := by
  unfold Dev.draw
  split
  · rfl
  · exact Dev.modPart_stall ..

@[simp] theorem owe_stall (q : Option Nat) (r : EvRec) (d : Dev) : (d.owe q r).stall = d.stall := rfl

@[simp] theorem logCorrection_stall (t : TimeUnit) (q : Option Nat) (k : IntegBlock) (a sym : Nat) (scrub : Bool) (c : Nat) (d : Dev) :
    (d.logCorrection t q k a sym scrub c).stall = d.stall := by
  simp only [Dev.logCorrection]
  split
  · split
    · rw [owe_stall, Dev.modInteg_stall]
    · rw [Dev.modInteg_stall]
  · split <;> rw [owe_stall, Dev.modInteg_stall]

@[simp] theorem corrected_stall (t : TimeUnit) (q : Option Nat) (k : IntegBlock) (a sym : Nat) (scrub : Bool) (c : Nat) (d : Dev) :
    (d.corrected t q k a sym scrub c).stall = d.stall := by
  rw [Dev.corrected, logCorrection_stall, Dev.modInteg_stall]

@[simp] theorem uncorrected_stall (q : Option Nat) (k : IntegBlock) (src : Nat) (es : List MemErr) (d : Dev) :
    (d.uncorrected q k src es).stall = d.stall := by
  cases es with
  | nil => rfl
  | cons e rest => simp [Dev.uncorrected]

@[simp] theorem checkBytes_stall (t : TimeUnit) (q : Option Nat) (k : IntegBlock) (light scrub : Bool) (as : List Nat) (d : Dev) :
    (d.checkBytes t q k light scrub as).2.stall = d.stall := by
  induction as generalizing d with
  | nil => rfl
  | cons a rest ih =>
    simp only [Dev.checkBytes]
    split
    · rw [ih, corrected_stall, Dev.modMem_stall]
    · rw [ih, Dev.modMem_stall]
    · exact ih d

@[simp] theorem dieReport_stall (t : TimeUnit) (s x : Nat) (light : Bool) (d : Dev) : (d.dieReport t s x light).2.stall = d.stall := by
  simp only [Dev.dieReport]
  split <;> simp

@[simp] theorem checkSector_stall (t : TimeUnit) (q : Option Nat) (s : Nat) (scrub : Bool) (kind lost x : Nat) (d : Dev) :
    (d.checkSector t q s scrub kind lost x).2.stall = d.stall := by
  have hdie := dieReport_stall t s x (d.isLight (d.regionAt x)) d
  simp only [Dev.checkSector]
  split
  next h => simpa [h] using hdie
  next h =>
    rw [h] at hdie
    split
    · exact hdie
    · split <;> simpa using hdie

@[simp] theorem checkSectors_stall (t : TimeUnit) (q : Option Nat) (s : Nat) (scrub : Bool) (kind : Nat) (lost : Nat → Nat) (xs : List Nat)
    (d : Dev) : (d.checkSectors t q s scrub kind lost xs).2.stall = d.stall := by
  induction xs generalizing d with
  | nil => rfl
  | cons x rest ih => simp only [Dev.checkSectors, ih, checkSector_stall]

@[simp] theorem checkWords_stall (t : TimeUnit) (q : Option Nat) (a n : Nat) (need : Nat → Bool) (scrub : Bool) (kind : Nat) (d : Dev) :
    (d.checkWords t q a n need scrub kind).2.stall = d.stall := by
  simp only [Dev.checkWords]
  split <;> simp

@[simp] theorem mergeReads_stall (t : TimeUnit) (q : Req) (s : Nat) (lost : Nat → Nat) (xs : List Nat) (d : Dev) :
    (d.mergeReads t q s lost xs).stall = d.stall := by
  simp [Dev.mergeReads]

@[simp] theorem writeReports_stall (t : TimeUnit) (q : Req) (s a : Nat) (poison : List Bool) (n : Nat) (xs : List Nat) (d : Dev) :
    (d.writeReports t q s a poison n xs).2.stall = d.stall := by
  simp only [Dev.writeReports]
  split
  · rfl
  · rw [uncorrected_stall]
    refine foldl_keeps (fun acc : List Nat × Dev => acc.2.stall) _ (fun acc x => ?_) _ _
    split
    · exact dieReport_stall t s x false acc.2
    · split
      · exact dieReport_stall t s x false acc.2
      · exact Dev.modStack_stall acc.2 s _

/-! ### Packets (R372, R379) -/

@[simp] theorem chargePath_stall (l : Nat) (p : Packet) (d : Dev) : (d.chargePath l p).stall = d.stall := by
  unfold Dev.chargePath
  split <;> simp

@[simp] theorem sendWaiting_stall (l fuel : Nat) (d : Dev) : (d.sendWaiting l fuel).stall = d.stall := by
  induction fuel generalizing d with
  | zero => rfl
  | succ fuel ih =>
    simp only [Dev.sendWaiting]
    split
    · rfl
    · split
      · rfl
      · rw [ih, Dev.modLink_stall]
        split <;> simp

@[simp] theorem sendOn_stall (l : Nat) (p : Packet) (d : Dev) : (d.sendOn l p).stall = d.stall := by
  unfold Dev.sendOn Dev.service
  split <;> simp

@[simp] theorem sendWr_stall (q : Req) (l typ code : Nat) (data : List Byte) (poison mask : List Bool) (base : Nat) (pc : Nat × Nat) (d : Dev) :
    (d.sendWr q l typ code data poison mask base pc).stall = d.stall := by
  simp [Dev.sendWr]

/-! ### Requests of firmware, which belongs to no partition and no occurrence (R311) -/

section
variable {q : Req} (hocc : q.occ = none) (hpart : q.part = none)
include hocc

theorem chargeBlock_unclaimed (code index : Nat) (d : Dev) : d.chargeBlock q code index = d := by
  simp [Dev.chargeBlock, hocc]

include hpart

theorem chargeHbm_unclaimed (t : TimeUnit) (s a n : Nat) (cost : Nat → Nat) (d : Dev) : d.chargeHbm t q s a n cost = d :=
  foldl_keeps id _ (fun d _ => by simp [Dev.chargeOne, hocc, hpart]) _ d

/-- A write that memory takes at once makes nothing wait. -/
theorem saveReq_stall {d : Dev} {a : Nat} {data : List Byte} (hnow : d.mustWait a data.length = false) (t : TimeUnit)
    (poison mask : List Bool) : (d.saveReq t q a data poison mask).stall = d.stall := by
  unfold Dev.saveReq
  cases hr : d.regionAt a
  all_goals simp only [hnow, Bool.false_eq_true, if_false, chargeHbm_unclaimed hocc hpart, chargeBlock_unclaimed hocc]
  case host => exact foldl_keeps Dev.stall (fun e x => e.answer 4 _ _ _) (fun _ _ => rfl) _ _
  case peer =>
    split
    · exact foldl_keeps Dev.stall _ (fun d pc => sendWr_stall q _ _ _ _ _ _ _ pc d) _ _
    · rfl
  all_goals simp [Dev.countHole]

/-- A read that this device's memory answers at once makes nothing wait. -/
theorem loadReq_stall {d : Dev} {a n : Nat} (hnow : d.answersNow a n = true) (t : TimeUnit) (need : Nat → Bool) :
    (d.loadReq t q a n need).2.stall = d.stall := by
  -- the checks of a read some of whose granules are dead
  have hchecks (gs : List Nat) (lo len : Nat → Nat) : (gs.foldl (fun (acc : List MemErr × Dev) g =>
      (acc.1 ++ (acc.2.checkWords t none (lo g) (len g) need false 0).1, (acc.2.checkWords t none (lo g) (len g) need false 0).2))
        ([], d)).2.stall = d.stall := by
    refine foldl_keeps (fun acc : List MemErr × Dev => acc.2.stall) _ (fun acc g => ?_) gs ([], d)
    exact checkWords_stall ..
  simp only [Dev.answersNow, Bool.and_eq_true, Bool.not_eq_true'] at hnow
  obtain ⟨hserved, hhere⟩ := hnow
  unfold Dev.loadReq
  cases hr : d.regionAt a
  all_goals simp only [hr, hserved, Bool.false_eq_true, if_false, regionBlock, chargeHbm_unclaimed hocc hpart,
    chargeBlock_unclaimed hocc, hpart] at hhere ⊢
  case hole | control => rfl
  all_goals
    simp only [uncorrected_stall, Dev.modStack_stall]
    split
    · exact checkWords_stall ..
    · exact hchecks ..

end

/-! ### Rings and records (R10, R441, R447, R448) -/

@[simp] theorem post_stall (t : TimeUnit) (q a : Nat) (bs : List Nat) (ps : List Bool) (d : Dev) :
    (d.post t q a bs ps).stall = d.stall := by
  simp only [Dev.post]
  split
  · rfl
  next h =>
    obtain ⟨hnow, -⟩ := not_or.mp h
    refine saveReq_stall rfl rfl ?_ t ps []
    simpa [byteList] using hnow

@[simp] theorem readCons_stall (t : TimeUnit) (q r : Nat) (d : Dev) : (d.readCons t q r).stall = d.stall := by
  simp only [Dev.readCons]
  split
  · rfl
  · split
    next h => exact (Dev.modPart_stall ..).trans (loadReq_stall rfl rfl h t _)
    next => split <;> rfl

@[simp] theorem eventPut_stall (t : TimeUnit) (q : Nat) (r : EvRec) (d : Dev) : (d.eventPut t q r).stall = d.stall := by
  simp only [Dev.eventPut, Dev.ringPut]
  split
  · simp
  · split <;> split <;> simp

@[simp] theorem adminPut_stall (t : TimeUnit) (r : EvRec) (d : Dev) : (d.adminPut t r).stall = d.stall := by
  unfold Dev.adminPut
  split
  · split <;> rfl
  · split <;> simp

@[simp] theorem ibi_stall (t : TimeUnit) (d : Dev) (cls : Nat) : (d.ibi t cls).stall = d.stall := by
  unfold Dev.ibi
  split <;> simp

@[simp] theorem putRecord_stall (t : TimeUnit) (q : Option Nat) (r : EvRec) (s : Option W64) (d : Dev) :
    (d.putRecord t q r s).stall = d.stall := by
  cases q with
  | some q => simp [Dev.putRecord, Dev.stamp]
  | none =>
    simp only [Dev.putRecord]
    split
    · refine (foldl_keeps Dev.stall _ (fun d q => ?_) _ _).trans ?_
      · split <;> simp
      · simp [Dev.stamp]
    · simp [Dev.stamp]

/-- Writing the records that an effect owes leaves what its job waits for as it was. -/
@[simp] theorem flushOwed_stall (t : TimeUnit) (d : Dev) : (d.flushOwed t).stall = d.stall := by
  have hsettle (fuel : Nat) (d : Dev) : (d.settle t fuel).stall = d.stall := by
    induction fuel generalizing d with
    | zero => rfl
    | succ fuel ih =>
      simp only [Dev.settle]
      split
      · rfl
      · rw [ih, putRecord_stall]
  unfold Dev.flushOwed
  split
  · rfl
  · exact hsettle _ d

end Sys2Proof.Machine
end

section
/-! Proofs of drains, restores, the signer, quotes and repair records (R406, R407, R409, R412 to R414, R427 to R429, R464 to R466). -/

namespace Sys2Proof.Machine

/-! ### What writes at a holder leave of the piers (R381, R406) -/

theorem pier_of_sansRings {d e : Dev} (h : d.sansRings = e.sansRings) (p : Nat) : d.pier p = e.pier p := congrArg (·.pier p) h

theorem pier_sendOn (l : Nat) (x : Packet) (d : Dev) (p : Nat) : (d.sendOn l x).pier p = d.pier p :=
  pier_of_sansRings (sansRings_of _ _ (sendOn_sansTraffic l x d)) p

theorem pier_holderWrite (t : TimeUnit) (q : Req) (owner : Nat × Nat) (psid holder a : Nat) (bs : List Nat) (ps mask : List Bool) (d : Dev)
    (p : Nat) : (d.holderWrite t q owner psid holder a bs ps mask).pier p = d.pier p := by
  simp only [Dev.holderWrite]
  split
  · exact pier_of_sansRings (store_sansRings ..) p
  · split
    · exact Dev.pier_modLink ..
    · refine foldl_keeps (Dev.pier · p) _ (fun d pc => ?_) _ d
      rw [pier_sendOn, Dev.pier_modLink]

/-! ### The end of a drain (R406, R413) -/

section
variable {p : Nat} {d : Dev} {x : Drain}

/-- A drain's completion token changes bays only. -/
theorem drainToken_keeps {α : Type} (g : Dev → α) (hg : ∀ d b (f : Bay → Bay), g (d.modBay b f) = g d) (te : TEntry) (c : Nat) (d : Dev) :
    g (d.drainToken te c) = g d := foldl_keeps g _ (fun d b => hg d b _) _ d

theorem pier_endDrain (hp : p < 4) (d : Dev) (x : Drain) (f : Pier → Pier) :
    (d.endDrain p x f).pier p = f { d.pier p with drains := (d.pier p).drains.filter (fun y => y.occ != x.occ) } :=
  (drainToken_keeps (Dev.pier · p) (fun d b f => Dev.pier_modBay d b p f) _ _ _).trans (Dev.pier_modPier d hp _)

theorem box_endDrain (d : Dev) (x : Drain) (f : Pier → Pier) : (d.endDrain p x f).box = d.box :=
  (drainToken_keeps Dev.box Dev.modBay_box _ _ _).trans (Dev.modPier_box ..)

theorem bond_endDrain (d : Dev) (x : Drain) (f : Pier → Pier) : (d.endDrain p x f).bond = d.bond :=
  (drainToken_keeps Dev.bond Dev.modBay_bond _ _ _).trans (Dev.modPier_bond ..)

theorem testBit_setToken {c : Nat} (hc : c < 64) (y : Bay) : (y.setToken c).tokens.toNat.testBit c = true := by
  rw [Bay.setToken, BitVec.toNat_or, Nat.testBit_or, BitVec.toNat_ofNat, Nat.mod_eq_of_lt (Nat.pow_lt_pow_right (by decide) hc),
    Nat.testBit_two_pow_self, Bool.or_true]

theorem token_endDrain {b : Nat} (hin : b ∈ x.te.bays) (hb : b < 64) (d : Dev) (f : Pier → Pier) :
    ((d.endDrain p x f).bay b).tokens.toNat.testBit (wtToken x.table) = true := by
  rw [Dev.endDrain, Dev.drainToken, bay_foldl_modBay (Bay.setToken_idem _) _ _ hb, if_pos hin]
  exact testBit_setToken (Nat.mod_lt _ (by decide)) _

theorem pier_voidDrain (hp : p < 4) (t : TimeUnit) (d : Dev) (x : Drain) (cause : Nat) (index : Option Nat) (expect : Nat) :
    (d.voidDrain t p x cause index expect).pier p =
      { d.pier p with drains := (d.pier p).drains.filter (fun y => y.occ != x.occ), wbCnt := (d.pier p).wbCnt.addHi 1 } := by
  simp only [Dev.voidDrain, pier_endDrain hp, pier_of_sansRings (emit_sansRings ..), Dev.drainWrite, pier_holderWrite]

/-! ### Drains that go on (R407, R413) -/

theorem mem_putDrain (hp : p < 4) {x y : Drain} (hy : y ∈ (d.pier p).drains) (hocc : y.occ = x.occ) :
    x ∈ ((d.putDrain p x).pier p).drains := by
  rw [Dev.putDrain, Dev.pier_modPier d hp]
  exact List.mem_map.mpr ⟨y, hy, if_pos hocc⟩

variable {q : Nat} {t : TimeUnit}

theorem drainQueued_begins (hidle : d.draining q = false) (hpaused : d.hold.paused = false)
    (hx : (d.pier p).drains.find? (fun x => x.occ.part == q && !x.running && !x.table.isEmpty) = some x) {d1 : Dev}
    (hd1 : d.putDrain p { x with running := true } = d1) : drainQueued p q t d = d1.drainRun t p q (d1.drainFuel p) := by
  have hfits := List.find?_some hx
  simp only [Bool.and_eq_true, beq_iff_eq, Bool.not_eq_true'] at hfits
  obtain ⟨⟨hpart, -⟩, htable⟩ := hfits
  simp [drainQueued, hx, Dev.drainBegin, hpart, hidle, htable, hpaused, hd1]

theorem drainRun_step (hx : (d.pier p).drains.find? (fun x => x.running && x.occ.part == q) = some x) (hpaused : d.hold.paused = false)
    (hphase : x.phase < 5) (hwaits : d.drainWaits p x = false) (hwhole : d.whole t x.await (fun d => d.drainStep t p x) = true) (fuel : Nat) :
    d.drainRun t p q (fuel + 1) = (d.had t (fun d => d.drainStep t p x)).drainRun t p q fuel := by
  have hattempt := attempt_whole (effect := fun w d => d.drainStep t p { x with await := w }) hwhole
  simp [Dev.drainRun, hx, hpaused, Nat.not_le.mpr hphase, hwaits, hattempt]

/-- A drain whose last header has been written takes no further step. -/
theorem drainRun_written (hx : (d.pier p).drains.find? (fun x => x.running && x.occ.part == q) = some x) (hphase : 5 ≤ x.phase) (fuel : Nat) :
    d.drainRun t p q fuel = d := by
  cases fuel with
  | zero => rfl
  | succ fuel => simp [Dev.drainRun, hx, hphase]

/-- The signature that a drain queues as it ends (R409, R414). -/
def Dev.waybillJob (p q : Nat) (x : Drain) (d : Dev) : SignJob :=
  .waybill p q (wtBuddy x.table) (wtSlot x.table x.step) ((d.wbHeader p x 1 x.ltime x.sums).take 512) none

theorem drainComplete_ends (hx : (d.pier p).drains.find? (fun x => x.running && x.occ.part == q) = some x) (hpaused : d.hold.paused = false)
    (hphase : 5 ≤ x.phase) (hawait : d.awaits (64 + p) q = false) (hid : d.box.idState ≠ 2) {d' : Dev}
    (hd' : d.endDrain p x (fun k => { k with wbCnt := k.wbCnt.addLo 1 }) = d') :
    drainComplete p q t d = { d' with bond := { d'.bond with signer := d.bond.signer ++ [d.waybillJob p q x] } } := by
  have hbox : d'.box = d.box := hd' ▸ box_endDrain d x _
  have hbond : d'.bond = d.bond := hd' ▸ bond_endDrain d x _
  simp only [drainComplete, drainRun_written hx hphase, hx, hpaused, hawait, hd', hbox, hbond, if_neg hid, Nat.not_lt.mpr hphase,
    Bool.false_eq_true, or_self, if_false, Dev.waybillJob]

end

/-! ### The signer (R412, R414, R465, R466) -/

section
variable {t : TimeUnit} {d : Dev} {rest : List SignJob}

/-- A device whose signer has these jobs. -/
def Dev.signing (jobs : List SignJob) (d : Dev) : Dev := { d with bond := { d.bond with signer := jobs } }

theorem waybillSigned_writes {p q holder slot : Nat} {header : List Nat} (h : d.bond.signer = .waybill p q holder slot header none :: rest) :
    waybillSigned t d = (Dev.signing (.waybill p q holder slot header (some (d.reachesHolder holder)) :: rest)
      (d.signerWrite t 0 q holder (slot + 512) (rsaSign d.bond.keyN d.bond.keyD (header.set 2 1)))).signerOn t := by
  simp only [waybillSigned, h, Dev.signing]

theorem signerOn_waybill {p q holder slot : Nat} {header : List Nat} {ok : Bool}
    (h : d.bond.signer = .waybill p q holder slot header (some ok) :: rest) (hawait : d.awaits 72 0 = false) (hposts : d.signerPosts = false) :
    d.signerOn t = Dev.signing rest (if ok then d.signerWrite t 1 q holder (slot + 2) [3] else d) := by
  simp only [Dev.signerOn, h, hawait, hposts, Bool.false_eq_true, or_self, if_false, Dev.signing]

theorem waybillSigned_signed {p q holder slot : Nat} {header : List Nat} {ok : Bool}
    (h : d.bond.signer = .waybill p q holder slot header (some ok) :: rest) : waybillSigned t d = d.signerOn t := by
  simp only [waybillSigned, h]

theorem signerAnswer_signer {p q holder slot : Nat} {header : List Nat}
    (h : d.bond.signer = .waybill p q holder slot header (some true) :: rest) (refused : Bool) :
    (d.signerAnswer (some (72, 0)) refused).bond.signer = .waybill p q holder slot header (some !refused) :: rest := by
  cases refused <;> simp [Dev.signerAnswer, h]

theorem quoteDone_answers {nonce : List Nat} {ps : List Bool} {x : Option Nat} (h : d.bond.signer = .quote none (some (nonce, ps)) x :: rest) :
    quoteDone t d = (Dev.signing rest d).modBox (fun b => { b with reply := .data (d.quoteBytes t nonce) }) := by
  simp only [quoteDone, h, Dev.signing]

theorem quoteDone_stores {nonce : List Nat} {ps : List Bool} {a : Nat} (h : d.bond.signer = .quote (some a) (some (nonce, ps)) none :: rest) :
    quoteDone t d = ((Dev.signing (.quote (some a) (some (nonce, ps)) (some d.nextJob) :: rest) d).request t
      (.mem (.write (a + 64) (byteList (d.quoteBytes t nonce)) (quotePoison ps) [] boxReq.src d.adminPart))).signerOn t := by
  simp only [quoteDone, h, Dev.signing]

theorem quoteDone_stored {nonce : List Nat} {ps : List Bool} {a id : Nat}
    (h : d.bond.signer = .quote (some a) (some (nonce, ps)) (some id) :: rest) (hawait : d.awaits 79 id = false)
    (hheld : d.held.any (fun h => h.id == id) = false) :
    quoteDone t d = Dev.signing rest (d.modBox (fun b => { b with quoteState := 2 })) := by
  simp only [quoteDone, Dev.signerOn, h, hawait, hheld, Bool.false_eq_true, or_self, if_false, Dev.signing, Dev.modBox_bond]

end

/-! ### The end of a restore (R427 to R429) -/

section
variable {p : Nat} {t : TimeUnit} {d : Dev} {x : Restore}

/-- Partition `q`'s restore is off its pier's engine, with STATE `state`. -/
def Dev.restored (p q : Nat) (state : BitVec 2) (d : Dev) : Prop :=
  (∀ y ∈ (d.pier p).restores, y.part ≠ q) ∧ vget 0 (d.pier p).rstState q = state

theorem restored_of_pier {d e : Dev} {q : Nat} {state : BitVec 2} (h : e.pier p = d.pier p) : e.restored p q state ↔ d.restored p q state := by
  simp only [Dev.restored, h]

theorem restoreEnd_restored (hp : p < 4) {q : Nat} (hq : q < 16) (state cause : Nat) (d : Dev) :
    (d.restoreEnd p q state cause).restored p q (BitVec.ofNat 2 state) := by
  simp only [Dev.restored, Dev.restoreEnd, Dev.pier_modPier d hp, vget_vmod_same _ _ hq]
  simp

theorem restoreEnd_cause (hp : p < 4) {q : Nat} (hq : q < 16) (cause : Nat) (d : Dev) :
    vget 0 ((d.restoreEnd p q 3 cause).pier p).rstCause q = BitVec.ofNat 8 cause := by
  simp [Dev.restoreEnd, Dev.pier_modPier d hp, vget_vmod_same _ _ hq]

theorem restoreRefuse_restored (hp : p < 4) (hq : x.part < 16) (cause step : Nat) (index : Option Nat) (expect : Nat) (d : Dev) :
    (d.restoreRefuse t p x cause step index expect).restored p x.part 3 := restoreEnd_restored hp hq 3 cause _

/-- A refused restore's record (R429). -/
theorem restoreRefuse_wrote (t : TimeUnit) (p : Nat) (x : Restore) (cause step : Nat) (index : Option Nat) (expect : Nat) (d : Dev) :
    ∃ e : EvRec, d.wrote (d.restoreRefuse t p x cause step index expect) e ∧ e.cls = 0x11 ∧ e.part = BitVec.ofNat 4 x.part ∧
      fld e.detail.toNat 0 8 = cause % 256 := by
  obtain ⟨later, hlater⟩ := emit_wrote t (some x.part)
    (waybillRecord p cause (rsSlot x.order + (match index with | some i => 1024 + 128 * i | none => 0)) step index expect) d
  exact ⟨_, ⟨later, (Dev.modPier_records ..).trans hlater⟩, rfl, rfl, detail_cause cause (by simp)⟩

theorem restoreHead_refuses {h : (List Nat × List Bool) × Dev} {key : (List Byte × List Bool) × Dev} {cause expect : Nat}
    (hh : d.slotRead t p x 0 (1536 + 128 * rsShards x.order) = h)
    (hkey : h.2.fetch t (x.req p) (bytesAt x.order 32 8 % 2 ^ 52) 512 = key) (hstall : key.2.stall = [])
    (hfault : headFault x h.1.1 (natBytes key.1.1) = some (cause, expect)) :
    d.restoreHead t p x = key.2.restoreRefuse t p x cause (bytesAt h.1.1 8 8) none expect := by
  simp only [Dev.restoreHead, hh, hkey, hstall, hfault, List.isEmpty_nil, Bool.not_true, Bool.false_eq_true, if_false]

/-- Images that have come end their restore, with STATE 2 or STATE 3 (R427, R428). -/
theorem restoreImages_restored (hp : p < 4) (hq : x.part < 16) (hstall : (d.restoreImages t p x).stall = []) :
    ∃ state : BitVec 2, (state = 2 ∨ state = 3) ∧ (d.restoreImages t p x).restored p x.part state := by
  revert hstall
  simp only [Dev.restoreImages]
  split
  next hwaits =>
    intro hstall
    simp [hstall] at hwaits
  next =>
    intro _
    split
    · exact ⟨3, .inr rfl, restoreRefuse_restored hp hq ..⟩
    · split
      · exact ⟨3, .inr rfl, restoreRefuse_restored hp hq ..⟩
      · exact ⟨2, .inl rfl, restoreEnd_restored hp hq 2 0 _⟩

/-- The last step of a restore, which nothing makes wait, ends it. -/
theorem had_restoreStep_restored (hp : p < 4) (hq : x.part < 16) (hphase : x.phase = 2) {w : Await}
    (hwhole : d.whole t w (fun d => d.restoreStep t p x) = true) :
    ∃ state : BitVec 2, (state = 2 ∨ state = 3) ∧ (d.had t (fun d => d.restoreStep t p x)).restored p x.part state := by
  have himages (d : Dev) : d.restoreStep t p x = d.restoreImages t p x := by simp only [Dev.restoreStep, hphase]
  simp only [himages] at hwhole ⊢
  simp only [Dev.whole, flushOwed_stall, Bool.and_eq_true, List.isEmpty_iff] at hwhole
  obtain ⟨⟨-, hstall⟩, -⟩ := hwhole
  simp only [restored_of_pier (had_pier t d _ p)]
  exact restoreImages_restored hp hq hstall

/-! ### Restores that go on (R427, R428) -/

variable {q : Nat}

theorem restoreRun_step {last : Nat} (hx : (d.pier p).restores.find? (fun y => y.part == q) = some x) (hphase : x.phase ≤ last)
    (hreads : d.awaitsRead (68 + p) q = false) (hwhole : d.whole t x.await (fun d => d.restoreStep t p x) = true) (fuel : Nat) :
    d.restoreRun t p q last (fuel + 1) = (d.had t (fun d => d.restoreStep t p x)).restoreRun t p q last fuel := by
  have hattempt := attempt_whole (effect := fun w d => d.restoreStep t p { x with await := w }) hwhole
  simp [Dev.restoreRun, hx, Nat.not_lt.mpr hphase, hreads, hattempt]

/-- Without a restore on the engine nothing goes on. -/
theorem restoreRun_restored {state : BitVec 2} (h : d.restored p q state) (last fuel : Nat) : d.restoreRun t p q last fuel = d := by
  obtain ⟨hgone, -⟩ := h
  have hnone : (d.pier p).restores.find? (fun y => y.part == q) = none := List.find?_eq_none.mpr (by simpa using hgone)
  cases fuel with
  | zero => rfl
  | succ fuel => simp [Dev.restoreRun, hnone]

theorem restoreComplete_goesOn (hstate : vget 0 (d.pier p).rstState q = 1) (hx : (d.pier p).restores.find? (fun y => y.part == q) = some x) :
    restoreComplete p q t d = d.restoreRun t p q 2 3 := by
  have hany : (d.pier p).restores.any (fun y => y.part == q) = true :=
    List.any_eq_true.mpr ⟨x, List.mem_of_find?_eq_some hx, by simpa using List.find?_some hx⟩
  rw [restoreComplete, if_neg (not_not.mpr hstate), if_pos hany]

end

/-! ### Repair records (R463, R464) -/

theorem repairRecordWrite_begins {d : Dev} (hstage : d.box.stage = 3) (hpower : d.powered = true) (hdue : d.box.repPending = true)
    (hidle : d.box.repWriting = none) :
    repairRecordWrite d = d.modBox (fun b =>
      { b with repWriting := some (d.repairRecord (if d.box.repInForce.isEmpty then 1 else d.box.repSeq.toNat + 1)), repAgain := false }) := by
  simp [repairRecordWrite, hstage, hpower, hdue, hidle]

theorem repairRecordDone_inForce {d : Dev} {bs : List Nat} (h : d.box.repWriting = some bs) :
    repairRecordDone d = (d.flashPut (d.sectorBase (1 - d.box.repSector % 2)) (bs ++ List.replicate 49152 0xFF)).modBox (fun b =>
      { b with repWriting := none, repPending := b.repAgain, repAgain := false, repSector := 1 - d.box.repSector % 2,
               repSeq := w32 (ofBytes ((bs.drop 8).take 8)), repInForce := bs.drop 1024 }) := by
  simp only [repairRecordDone, h]

/-- Settles O53: each event takes the branch of its rule that the hypotheses select, and what ends a drain or a restore takes it off its
pier's engine; the records that it writes leave the piers alone. -/
theorem drainsRestoresAndSignaturesProceed : Obligations.DrainsRestoresAndSignaturesProceed := by
  intro s p q x r rest d t next signing
  refine ⟨?begins, ?runs, ?voids, ?signs, ?restores, ?head, ?refuses, ?quotes, ?repairs, ?inForce⟩
  case begins =>
    intro hidle hpaused hx d1
    exact ⟨run_of_eq (drainQueued_begins hidle hpaused hx rfl), mem_putDrain p.isLt (List.mem_of_find?_eq_some hx) rfl⟩
  case runs =>
    intro hx hpaused
    refine ⟨drainRun_step hx hpaused, fun hphase hawait hid => ?_⟩
    refine ⟨run_of_eq (drainComplete_ends hx hpaused hphase hawait hid rfl), ?_, ?_, fun b hin hb => token_endDrain hin hb d _⟩
    · rw [pier_endDrain p.isLt]
    · rw [pier_endDrain p.isLt]
      simp
  case voids =>
    intro cause index expect v
    have hpier : v.pier p = _ := pier_voidDrain p.isLt t d x cause index expect
    rw [hpier]
    exact ⟨rfl, by simp⟩
  case signs =>
    intro holder slot header
    exact ⟨fun h => run_of_eq (waybillSigned_writes h),
      fun ok h hawait hposts => run_of_eq ((waybillSigned_signed h).trans (signerOn_waybill h hawait hposts)),
      fun refused h => signerAnswer_signer h refused⟩
  case restores =>
    intro hstate hr hreads hwhole d'
    have hpart : r.part = q := by simpa using List.find?_some hr
    have hstep (hphase : r.phase ≤ 2) : restoreComplete p q t d = d'.restoreRun t p q 2 2 :=
      (restoreComplete_goesOn hstate hr).trans (restoreRun_step hr hphase hreads hwhole 2)
    refine ⟨fun hphase => run_of_eq (hstep (by omega)), fun hphase => ?_⟩
    obtain ⟨state, hends, hover⟩ := had_restoreStep_restored p.isLt (hpart ▸ q.isLt) hphase hwhole
    rw [hpart] at hover
    exact ⟨run_of_eq ((hstep (by omega)).trans (restoreRun_restored hover 2 2)), hover.2 ▸ hends⟩
  case head =>
    intro h key cause expect hstall hfault
    exact restoreHead_refuses rfl rfl hstall hfault
  case refuses =>
    intro cause step index expect hpart d'
    obtain ⟨hgone, hstate⟩ := restoreRefuse_restored (t := t) (d := d) p.isLt hpart cause step index expect
    exact ⟨hstate, restoreEnd_cause p.isLt hpart cause _, hgone, restoreRefuse_wrote t p r cause step index expect d⟩
  case quotes =>
    intro nonce ps a id x
    exact ⟨fun h => run_of_eq (quoteDone_answers h), fun h => run_of_eq (quoteDone_stores h),
      fun h hawait hheld => run_of_eq (quoteDone_stored h hawait hheld)⟩
  case repairs =>
    intro hstage hpower hdue hidle
    exact runDev_of_eq (repairRecordWrite_begins hstage hpower hdue hidle)
  case inForce =>
    intro bs h k
    exact runDev_of_eq (repairRecordDone_inForce h)

end Sys2Proof.Machine
end

section
/-! Proofs of configuration requests, function-level reset and PERST (R432, R440, R452, R494). -/

namespace Sys2Proof.Machine

/-! ### Changes of a partition and of a port -/

/-- Changes that agree on the entry that they change are one change. -/
theorem vmod_congr {α : Type} {n : Nat} (x : α) (v : Vector α n) {i : Nat} {f g : α → α} (h : f (vget x v i) = g (vget x v i)) :
    vmod v i f = vmod v i g := by
  ext1 j hj
  simp only [vmod, Vector.getElem_ofFn]
  split
  · next he => subst he; rwa [vget_lt _ _ hj] at h
  · rfl

theorem modPart_congr (d : Dev) {q : Nat} {f g : Part → Part} (h : f (d.part q) = g (d.part q)) : d.modPart q f = d.modPart q g := by
  rw [Dev.modPart, Dev.modPart, vmod_congr _ d.parts h]

theorem modPort_congr (d : Dev) {v : Nat} {f g : Port → Port} (h : f (d.portOf v) = g (d.portOf v)) : d.modPort v f = d.modPort v g := by
  rw [Dev.modPort, Dev.modPort, vmod_congr _ d.ports h]

/-! ### Configuration requests and resets (R432, R440, R452, R494) -/

/-- Before publication every request is answered with retry status (R452). -/
theorem configRequest_early {d : Dev} {f : Func} (hrec : d.box.stage ≠ 4) (hstage : d.box.stage ≠ 3)
    (hreset : (d.portOf f.port).inReset = false) (c : CfgReq) : configRequest f c d = d.answer 7 f.port [] [] := by
  simp only [configRequest, hrec, hstage, hreset, Bool.false_eq_true, or_self, if_false, ne_eq, not_false_eq_true, if_true]

/-- A physical function sets VF Enable, and NumVFs within TotalVFs (R432). -/
theorem configRequest_vfControl {d : Dev} {f : Func} {n : Nat} (hstage : d.box.stage = 3) (hreset : (d.portOf f.port).inReset = false)
    (hpf : f.num = 0) (hn : n ≤ (d.portOf f.port).vfs.toNat) (en : Bool) :
    configRequest f (.vfControl en n) d =
      (d.modPort f.port (fun y => { y with vfEnable := en, numVfs := BitVec.ofNat 5 n })).answer 5 f.port [] [] := by
  have hset : d.modPort f.port (fun y => { y with vfEnable := en, numVfs := if n ≤ y.vfs.toNat then BitVec.ofNat 5 n else y.numVfs }) =
      d.modPort f.port (fun y => { y with vfEnable := en, numVfs := BitVec.ofNat 5 n }) := modPort_congr d (by simp only [hn, if_true])
  simp only [configRequest, hstage, hreset, hpf, ← hset]
  rfl

/-- A function-level reset of an owner asks for its partition's reset (R440). -/
theorem functionReset_owner {t : TimeUnit} {d : Dev} {f : Func} {q : Nat} (hvf : f.num ≠ 0) (hq : d.partOf f = some q)
    (hidle : (d.part q).resetPend = none) :
    functionReset f t d = d.modPart q (fun p => { p with resetPend := some (t.slot + 1) }) := by
  simp only [functionReset, hvf, hq, if_false]
  exact modPart_congr d (by simp only [hidle, Option.getD_none])

/-- Settles O20: each request takes the branch that its stage, its port and its function select; PERST changes its port alone. -/
theorem portResetsAndConfiguration : Obligations.PortResetsAndConfiguration := by
  intro s f c en n v q d
  refine ⟨fun hrec hstage hreset => ?early, fun hstage hreset hpf hn _ => ?vf, fun hvf hq hidle => ?flr,
    runDev_of_eq rfl, runDev_of_eq rfl⟩
  case early => exact runDev_of_eq (configRequest_early hrec hstage hreset c)
  case vf => exact runDev_of_eq (configRequest_vfControl hstage hreset hpf hn en)
  case flr => exact run_of_eq (functionReset_owner hvf hq hidle)

end Sys2Proof.Machine
end

section
/-! Proofs of submissions: which are refused, and what the others do (R76, R77, R94, R440, R443, R444, R446). -/

namespace Sys2Proof.Machine

/-! ### Refusals (R443) -/

section
variable {t : TimeUnit} {d : Dev} {q w : Nat} (h : submitBad w = true)
include h

theorem submitInstall_bad : submitInstall t q w d = d.refuseSub t q w platKind := if_pos h
theorem submitWithdraw_bad : submitWithdraw t q w d = d.refuseSub t q w platKind := if_pos h
theorem submitStart_bad : submitStart t q w d = d.refuseSub t q w platKind := if_pos h
theorem submitModel_bad : submitModel t q w d = d.refuseSub t q w platKind := if_pos h
theorem submitReset_bad : submitReset t q w d = d.refuseSub t q w platKind := if_pos h

end

/-- An entry of the ring whose KIND is reserved (R443). -/
theorem submit_reservedKind {t : TimeUnit} {d : Dev} {q w : Nat} (h : fld w 0 8 = 0 ∨ 5 < fld w 0 8) :
    d.submit t q w false = d.refuseSub t q w platKind := by
  unfold Dev.submit
  split
  · contradiction
  · split
    case h_6 => rfl
    all_goals omega

/-- Settles O36: the first check of every submission is that of its KIND and its reserved bytes. -/
theorem badSubmissionsAreRefused : Obligations.BadSubmissionsAreRefused := by
  intro s q w refused refuse
  refine ⟨fun h => ?install, fun h => ?withdraw, fun h => ?start, fun h => ?model, fun h => ?reset, submit_reservedKind⟩
  case install =>
    rw [exec_submitInstall, execSubmitInstall]
    exact run_of_eq (submitInstall_bad h)
  case withdraw =>
    rw [exec_submitWithdraw, execSubmitWithdraw]
    exact run_of_eq (submitWithdraw_bad h)
  case start =>
    rw [exec_submitStart, execSubmitStart]
    exact run_of_eq (submitStart_bad h)
  case model =>
    rw [exec_submitModel, execSubmitModel]
    exact run_of_eq (submitModel_bad h)
  case reset =>
    rw [exec_submitReset, execSubmitReset]
    exact run_of_eq (submitReset_bad h)

/-! ### Masked streams -/

theorem mem_maskStreams {bays streams : Nat} {x : Nat × Nat} (h : x ∈ maskStreams bays streams) : x.1 < 64 ∧ x.2 < 3 := by
  obtain ⟨b, hb, i, hi, rfl⟩ : ∃ b ∈ maskBits 64 bays, ∃ i ∈ maskBits 3 streams, (b, i) = x := by simpa [maskStreams] using h
  exact ⟨(mem_maskBits.mp hb).1, (mem_maskBits.mp hi).1⟩

/-- One change of each of a list of streams. -/
def Dev.modStreams (xs : List (Nat × Nat)) (f : Stream → Stream) (d : Dev) : Dev := xs.foldl (fun d x => d.modStream x.1 x.2 f) d

/-- A change made once or more in every stream of a list, the second time without effect. -/
theorem stream_modStreams {f : Stream → Stream} (hf : ∀ x, f (f x) = f x) (xs : List (Nat × Nat)) (d : Dev) {b i : Nat} (hb : b < 64)
    (hi : i < 3) : (d.modStreams xs f).stream b i = if (b, i) ∈ xs then f (d.stream b i) else d.stream b i := by
  rw [Dev.modStreams]
  induction xs generalizing d with
  | nil => rfl
  | cons x rest ih =>
    rw [List.foldl_cons, ih]
    by_cases hx : (b, i) = x
    · subst hx
      simp [Dev.stream_modStream d hb hi, hf]
    · have hne : b ≠ x.1 ∨ i ≠ x.2 := by rwa [Prod.ext_iff, not_and_or] at hx
      simp [Dev.stream_modStream_ne d hne, hx]

theorem modStreams_keeps (xs : List (Nat × Nat)) (f : Stream → Stream) (d : Dev) :
    (d.modStreams xs f).parts = d.parts ∧ (d.modStreams xs f).mem = d.mem ∧ (d.modStreams xs f).records = d.records := by
  unfold Dev.modStreams
  exact ⟨foldl_keeps (·.parts) _ (fun d x => Dev.modStream_parts d x.1 x.2 f) xs d,
    foldl_keeps (·.mem) _ (fun d x => Dev.modStream_mem d x.1 x.2 f) xs d,
    foldl_keeps (·.records) _ (fun d x => Dev.modStream_records d x.1 x.2 f) xs d⟩

theorem state_modStream {f : Stream → Stream} (hf : ∀ x, (f x).state = x.state) (d : Dev) {b i : Nat} (hb : b < 64) (hi : i < 3)
    (c j : Nat) : ((d.modStream b i f).stream c j).state = (d.stream c j).state := by
  by_cases h : c = b ∧ j = i
  · obtain ⟨rfl, rfl⟩ := h
    rw [Dev.stream_modStream d hb hi, hf]
  · rw [Dev.stream_modStream_ne d (by omega)]

/-! ### START and MODEL (R76, R77, R94, R443) -/

/-- A RUN that comes with a stream's base and START_IPTR (R76, R77). -/
def Stream.started (base start : Nat) (x : Stream) : Stream :=
  { x with base := BitVec.ofNat 48 (fld base 4 48), startIptr := w32 start, runPend := true }

theorem Stream.started_idem (base start : Nat) (x : Stream) : (x.started base start).started base start = x.started base start := rfl

/-- What START writes of one stream. -/
def Dev.startOne (t : TimeUnit) (q base start : Nat) (d : Dev) (x : Nat × Nat) : Dev :=
  (d.modStream x.1 x.2 (fun y => { y with base := BitVec.ofNat 48 (fld base 4 48) })).sqCtlWrite t (d.platReq q) x.1 x.2
    (1 + start <<< 32)

theorem startOne_atRest {t : TimeUnit} {d : Dev} {x : Nat × Nat} {q base start : Nat} (hx : x.1 < 64 ∧ x.2 < 3)
    (hs : start < 2 ^ 32) (h : (d.stream x.1 x.2).state = .idle ∨ (d.stream x.1 x.2).state = .faulted) :
    Dev.startOne t q base start d x = d.modStream x.1 x.2 (Stream.started base start) := by
  obtain ⟨hb, hi⟩ := hx
  have hword : 1 + start <<< 32 = 2 ^ 32 * (w32 start).toNat + 1 := by
    rw [w32, BitVec.toNat_ofNat, Nat.mod_eq_of_lt hs, Nat.shiftLeft_eq]
    omega
  rw [← state_modStream (f := fun y => { y with base := BitVec.ofNat 48 (fld base 4 48) }) (fun _ => rfl) d hb hi] at h
  rw [Dev.startOne, hword, sqCtlWrite_run hb hi _ h, modStream_modStream]
  rfl

/-- Streams at rest stay at rest while others start, so that START starts each of them. -/
theorem startAll_atRest {t : TimeUnit} {q base start : Nat} (hs : start < 2 ^ 32) {xs : List (Nat × Nat)}
    (hxs : ∀ x ∈ xs, x.1 < 64 ∧ x.2 < 3) {d : Dev}
    (h : ∀ x ∈ xs, (d.stream x.1 x.2).state = .idle ∨ (d.stream x.1 x.2).state = .faulted) :
    xs.foldl (Dev.startOne t q base start) d = d.modStreams xs (Stream.started base start) := by
  induction xs generalizing d with
  | nil => rfl
  | cons x rest ih =>
    rw [List.forall_mem_cons] at hxs h
    obtain ⟨hx, hrest⟩ := hxs
    obtain ⟨hidle, hidles⟩ := h
    have hkeeps := state_modStream (f := Stream.started base start) (fun _ => rfl) d hx.1 hx.2
    rw [List.foldl_cons, startOne_atRest hx hs hidle, ih hrest (fun y hy => by rw [hkeeps]; exact hidles y hy), Dev.modStreams,
      Dev.modStreams, List.foldl_cons]

/-- TT_SQ_MODEL in the host shadow (R94). -/
def Stream.modelled (base : Nat) (x : Stream) : Stream :=
  { x with hostCfg := x.hostCfg.filter (fun e => !(e.1 = 0 ∧ e.2.1 = 0)) ++ [(0, 0, w64 base)] }

theorem Stream.modelled_idem (base : Nat) (x : Stream) : (x.modelled base).modelled base = x.modelled base := by
  simp [Stream.modelled, List.filter_append, List.filter_filter]

/-- A change of streams, then the DONE reply. -/
theorem modStreams_doneSub {t : TimeUnit} {d : Dev} {q w : Nat} (hq : q < 16) {f : Stream → Stream} (hf : ∀ x, f (f x) = f x)
    (xs : List (Nat × Nat)) :
    let d' := (d.modStreams xs f).doneSub t q w
    (∀ b i, b < 64 → i < 3 → d'.stream b i = if (b, i) ∈ xs then f (d.stream b i) else d.stream b i) ∧
      (d'.part q).replies = (d.part q).replies ++ [(t.slot + 1, doneBytes (fld w 32 32) (t.slot + 1))] ∧ d'.mem = d.mem ∧
      d'.records = d.records := by
  obtain ⟨hparts, hmem, hrecords⟩ := modStreams_keeps xs f d
  refine ⟨fun b i hb hi => ?_, ?_, ?_, ?_⟩
  · rw [Dev.doneSub, Dev.reply, Dev.stream_modPart]
    exact stream_modStreams hf xs d hb hi
  · rw [Dev.doneSub, Dev.reply, Dev.part_modPart _ hq, Dev.part, hparts, Dev.part]
  · rw [Dev.doneSub, Dev.reply, Dev.modPart_mem, hmem]
  · rw [Dev.doneSub, Dev.reply, Dev.modPart_records, hrecords]

/-! ### Submissions that pass their checks (R443, R444) -/

section
variable {t : TimeUnit} {d : Dev} {q w : Nat} (h : submitBad w = false)
include h

theorem submitInstall_admits (hstaged : (d.part q).staged = none) (hinstall : (d.part q).install = none)
    (hin : (d.part q).inside false (fld w 64 64) 64 = true)
    (harrays : (d.part q).arraysInside (fld w 128 64) (fld w 192 64) (fld w 256 64) 1 = true) :
    submitInstall t q w d = d.modPart q (fun p =>
      { p with install := some { header := fld w 64 64, promises := fld w 128 64, notify := fld w 192 64, noteBase := fld w 256 64
                                 subid := fld w 32 32 } }) := by
  simp only [submitInstall, h, hstaged, hinstall, hin, harrays]
  rfl

theorem submitWithdraw_good : submitWithdraw t q w d = (d.modPart q (fun p => { p with withdraw := true })).doneSub t q w := by
  simp only [submitWithdraw, h, Bool.false_eq_true, if_false]

theorem submitReset_good (hidle : (d.part q).resetPend = none) :
    submitReset t q w d = (d.modPart q (fun p => { p with resetPend := some (t.slot + 1) })).doneSub t q w := by
  simp only [submitReset, h, Bool.false_eq_true, if_false]
  rw [modPart_congr d (g := fun p => { p with resetPend := some (t.slot + 1) }) (by simp only [hidle, Option.getD_none])]

theorem submitStart_good (hscope : d.masksForeign q (fld w 64 64) = false) (hin : (d.part q).inside false (fld w 192 64) 16 = true)
    (hrest : ∀ x ∈ maskStreams (fld w 64 64) (fld w 128 3), (d.stream x.1 x.2).state = .idle ∨ (d.stream x.1 x.2).state = .faulted) :
    submitStart t q w d =
      (d.modStreams (maskStreams (fld w 64 64) (fld w 128 3)) (Stream.started (fld w 192 64) (fld w 256 32))).doneSub t q w := by
  have hstart : fld w 256 32 < 2 ^ 32 := Nat.mod_lt _ (by decide)
  have hidle : (maskStreams (fld w 64 64) (fld w 128 3)).any (fun x =>
      (d.stream x.1 x.2).state != .idle && (d.stream x.1 x.2).state != .faulted) = false := by
    rw [List.any_eq_false]
    intro x hx
    rcases hrest x hx with hx | hx <;> simp [hx]
  have hall := startAll_atRest (t := t) (q := q) (base := fld w 192 64) hstart (fun x hx => mem_maskStreams hx) hrest
  simp only [submitStart, h, hscope, hin, hidle, Bool.not_true, Bool.false_eq_true, or_self, if_false]
  rw [← hall]
  rfl

theorem submitModel_good (hscope : d.masksForeign q (fld w 64 64) = false) (hin : (d.part q).inside false (fld w 192 64) 1 = true)
    (hgood : cfgBad 0 0 (fld w 192 64) = false) :
    submitModel t q w d =
      (d.modStreams (maskStreams (fld w 64 64) (fld w 128 3)) (Stream.modelled (fld w 192 64))).doneSub t q w := by
  simp only [submitModel, h, hscope, hin, Dev.cfgWrite, hgood]
  rfl

end

/-- The arrays of an INSTALL, looked at for one entry (log entry 128). -/
theorem arraysInside_one {p : Part} {promises note noteBase : Nat} (hpromises : p.inside true promises 8 = true)
    (hnote : note = 0 ∨ (p.inside false note 1 = true ∧ p.inside false noteBase 32 = true)) :
    p.arraysInside promises note noteBase 1 = true := by
  simpa [Part.arraysInside, hpromises] using hnote

/-- Settles O35: the checks of each submission pass; START and MODEL are one change of each masked stream. -/
theorem submissionsHaveTheirEffect : Obligations.SubmissionsHaveTheirEffect := by
  intro s q w d t p v hdr promises note noteBase masked base due done
  refine ⟨fun hgood hstaged hinstall hin hpromises hnote => ?install, fun hgood => ?withdraw, fun hgood hscope hin hrest => ?start,
    fun hgood hscope hin hcfg => ?model, fun hgood hidle => ?reset⟩
  case install =>
    rw [exec_submitInstall, execSubmitInstall]
    exact run_of_eq (submitInstall_admits hgood hstaged hinstall hin (arraysInside_one hpromises hnote))
  case withdraw =>
    rw [exec_submitWithdraw, execSubmitWithdraw]
    exact run_of_eq (submitWithdraw_good hgood)
  case start =>
    refine ⟨_, ?_, modStreams_doneSub q.isLt (Stream.started_idem _ _) _⟩
    rw [exec_submitStart, execSubmitStart]
    exact run_of_eq (submitStart_good hgood hscope hin hrest)
  case model =>
    refine ⟨_, ?_, modStreams_doneSub q.isLt (Stream.modelled_idem _) _⟩
    rw [exec_submitModel, execSubmitModel]
    exact run_of_eq (submitModel_good hgood hscope hin hcfg)
  case reset =>
    rw [exec_submitReset, execSubmitReset]
    exact run_of_eq (submitReset_good hgood hidle)

end Sys2Proof.Machine
end

section
/-! Proofs of partition reset, clean quarters and zeroed windows (R435, R436, R440). -/

namespace Sys2Proof.Machine

/-! ### Partition reset (R440) -/

/-- Devices that differ in what `sansOccs` leaves out agree on a partition but for its occurrences and its traffic. -/
theorem part_of_sansOccs {d e : Dev} (h : d.sansOccs = e.sansOccs) {q : Nat} (hq : q < 16) :
    ({ (d.part q).sansTraffic with occs := [] } : Part) = { (e.part q).sansTraffic with occs := [] } := by
  have hparts : d.sansOccs.parts = e.sansOccs.parts := congrArg (·.parts) h
  rw [parts_sansOccs, parts_sansOccs] at hparts
  simpa only [vget_lt _ _ hq, Vector.getElem_map, Dev.part] using congrArg (vget Part.reset · q) hparts

/-- A partition whose timetables are dropped has none, and keeps its quarters (R440). -/
theorem dropTimetables_part (t : TimeUnit) {q : Nat} (hq : q < 16) (cause : Nat) (d : Dev) :
    ((d.dropTimetables t q cause).part q).installed = none ∧ ((d.dropTimetables t q cause).part q).staged = none ∧
      ((d.dropTimetables t q cause).part q).quarters = (d.part q).quarters := by
  have hfold := foldl_sansOccs (fun (d : Dev) (o : Occ) => withdrawCancel_sansOccs t cause o.key d) ((d.part q).occs.filter Occ.open) d
  have hquarters := congrArg Part.quarters (part_of_sansOccs hfold hq)
  rw [Dev.dropTimetables, part_setPowerNeed, Dev.part_modPart _ hq]
  exact ⟨rfl, rfl, hquarters⟩

/-- What a reset leaves of a bay of the partition. -/
def Bay.idled (y : Bay) : Bay :=
  { y with streams := y.streams.map Stream.resetIdle, openBlocks := Vector.replicate 3 none, tokens := 0, void := 0,
           voidClass := [], tokWait := [], met := [] }

/-- What a reset of partition `q` leaves of a pier: a running restore stops with STATE 3. -/
def Pier.restoreStopped (q : Nat) (k : Pier) : Pier :=
  { k with rstState := vmod k.rstState q (fun st => if st = 1 then 3 else st), restores := k.restores.filter (fun r => r.part != q) }

/-- What a reset leaves of the partition itself, whose timetables are gone. -/
def Part.emptied (p : Part) : Part :=
  { (p.modRing 0 (fun k => { k with cons := k.prod, known := !p.platEn })) with install := none, withdraw := false, resetPend := none }

theorem Part.emptied_timetables (p : Part) : p.emptied.installed = p.installed ∧ p.emptied.staged = p.staged := ⟨rfl, rfl⟩

/-- A partition after its reset, before the serving core takes up its submission ring. -/
def Dev.partReset (t : TimeUnit) (q : Nat) (d : Dev) : Dev :=
  let d1 := d.dropTimetables t q lateReset
  let d2 := (d1.part q).bays.foldl (fun d b => d.modBay b Bay.idled) d1
  ({ d2 with piers := d2.piers.map (Pier.restoreStopped q) } : Dev).modPart q Part.emptied

theorem partitionReset_due {t : TimeUnit} {d : Dev} {q due : Nat} (hpend : (d.part q).resetPend = some due) (hdue : due ≤ t.slot)
    (hedge : t.now % t.slotLen = 0) :
    (partitionReset q t d).parts = (d.partReset t q).parts ∧ (partitionReset q t d).bays = (d.partReset t q).bays ∧
      (partitionReset q t d).piers = (d.partReset t q).piers := by
  have hnow : ¬(t.slot < due ∨ t.now % t.slotLen ≠ 0) := by omega
  simp only [partitionReset, hpend, if_neg hnow]
  split <;> exact ⟨rfl, rfl, rfl⟩

theorem Stream.resetIdle_idem (x : Stream) : x.resetIdle.resetIdle = x.resetIdle := rfl

theorem Bay.idled_idem (y : Bay) : y.idled.idled = y.idled := by
  simp only [Bay.idled, Vector.map_map, Function.comp_def, Stream.resetIdle_idem]

/-- A stream of a bay whose streams are all changed. -/
theorem Bay.stream_map (y : Bay) (f : Stream → Stream) {i : Nat} (hi : i < 3) :
    vget Stream.reset (y.streams.map f) i = f (y.stream i) := by
  rw [Bay.stream, vget_lt _ _ hi, vget_lt _ _ hi, Vector.getElem_map]

theorem partReset_part (t : TimeUnit) {q : Nat} (hq : q < 16) (d : Dev) :
    (d.partReset t q).part q = ((d.dropTimetables t q lateReset).part q).emptied := by
  rw [Dev.partReset, Dev.part_modPart _ hq]
  exact congrArg Part.emptied (foldl_keeps (fun d : Dev => d.part q) _ (fun d b => Dev.part_modBay d b q Bay.idled) _ _)

/-- The bays of the partition's quarters are those whose streams and tokens go. -/
theorem partReset_bay (t : TimeUnit) {q : Nat} (hq : q < 16) (d : Dev) {b : Nat} (hin : b ∈ (d.part q).bays) (hb : b < 64) :
    (d.partReset t q).bay b = ((d.dropTimetables t q lateReset).bay b).idled := by
  obtain ⟨-, -, hquarters⟩ := dropTimetables_part t hq lateReset d
  rw [Part.bays, ← hquarters, ← Part.bays] at hin
  have hbay := bay_foldl_modBay Bay.idled_idem ((d.dropTimetables t q lateReset).part q).bays (d.dropTimetables t q lateReset) hb
  rw [if_pos hin] at hbay
  rw [Dev.partReset, Dev.bay_modPart]
  exact hbay

/-- No pier runs a restore of the partition any more. -/
theorem partReset_pier (t : TimeUnit) {q : Nat} (hq : q < 16) (d : Dev) {p : Nat} (hp : p < 4) :
    vget 0 ((d.partReset t q).pier p).rstState q ≠ 1 ∧ ∀ r ∈ ((d.partReset t q).pier p).restores, r.part ≠ q := by
  obtain ⟨k, hk⟩ : ∃ k : Pier, (d.partReset t q).pier p = k.restoreStopped q := by
    rw [Dev.partReset, Dev.pier_modPart, Dev.pier, vget_lt _ _ hp, Vector.getElem_map]
    exact ⟨_, rfl⟩
  rw [hk, Pier.restoreStopped, vget_vmod_same _ _ hq]
  refine ⟨?_, fun r hr => by simpa using (List.mem_filter.mp hr).2⟩
  split
  · decide
  · assumption

/-! ### Clean quarters (R435) -/

theorem Bay.clean_idem (y : Bay) : y.clean.clean = y.clean := by
  simp only [Bay.clean, Vector.map_map, Function.comp_def, Stream.resetIdle]

/-- What a change of bays and memory leaves of the bays does not depend on what it writes in memory. -/
theorem bays_foldl_modMem (f : Bay → Bay) (g : Nat → Memory → Memory) (l : List Nat) {d e : Dev} (h : d.bays = e.bays) :
    (l.foldl (fun (d : Dev) b => (d.modBay b f).modMem (g b)) d).bays = (l.foldl (fun (d : Dev) b => d.modBay b f) e).bays := by
  induction l generalizing d e with
  | nil => exact h
  | cons b rest ih =>
    have hstep : ((d.modBay b f).modMem (g b)).bays = (e.modBay b f).bays := by simp only [Dev.modMem_bays, Dev.modBay, h]
    rw [List.foldl_cons, List.foldl_cons, ih hstep]

/-- Every bay of the quarter is clean. -/
theorem quarterCleanDone_cleans {d : Dev} {q i : Nat} (hi : i < 16) (h : (d.part q).cleaning.toNat.testBit i = true)
    (hnew : (d.part q).cleanDone.toNat.testBit i = false) {b : Nat} (hb : b / 4 = i) :
    (quarterCleanDone q i d).bay b = (d.bay b).clean := by
  have hin : b ∈ [4 * i, 4 * i + 1, 4 * i + 2, 4 * i + 3] := by
    simp only [List.mem_cons, List.not_mem_nil, or_false]
    omega
  have hbay := bay_foldl_modBay Bay.clean_idem [4 * i, 4 * i + 1, 4 * i + 2, 4 * i + 3] d (by omega : b < 64)
  rw [if_pos hin, Dev.bay, ← bays_foldl_modMem Bay.clean
    (fun b m => (m.fillRange (bayBase b) 0x800000 false).fillRange (capBase b) 0x30000000 false) _ rfl] at hbay
  simp only [quarterCleanDone, h, hnew, Bool.not_true, Bool.false_eq_true, or_self, if_false, Dev.bay_modPart]
  exact hbay

theorem quarterCleanDone_notes {d : Dev} {q i : Nat} (hq : q < 16) (h : (d.part q).cleaning.toNat.testBit i = true)
    (hnew : (d.part q).cleanDone.toNat.testBit i = false) :
    ((quarterCleanDone q i d).part q).cleanDone = (d.part q).cleanDone ||| BitVec.ofNat 16 (2 ^ i) := by
  simp only [quarterCleanDone, h, hnew, Bool.not_true, Bool.false_eq_true, or_self, if_false, Dev.part_modPart _ hq]
  rw [foldl_keeps (fun d : Dev => d.part q) _ (fun d b => by rw [Dev.part_modMem, Dev.part_modBay])]

/-! ### Zeroed windows (R436) -/

theorem segmentZeroDone_zeroes {t : TimeUnit} {d : Dev} {q n : Nat} (h : (d.part q).zeroing.contains n = true) :
    segmentZeroDone q n t d = (d.zeroWindow t q (vget Seg.none (d.part q).segs n)).modPart q (fun p =>
      { (p.modSeg n (fun g => { g with valid := true })) with zeroing := p.zeroing.filter (· != n) }) := by
  simp only [segmentZeroDone, h, Bool.not_true, Bool.false_eq_true, if_false]

/-- A window in this device's memory is zeroed there. -/
theorem zeroWindow_here {g : Seg} (hhost : ∀ v o, regionOf g.start ≠ .host v o) (hpeer : ∀ l o, regionOf g.start ≠ .peer l o) (t : TimeUnit)
    (q : Nat) (d : Dev) : d.zeroWindow t q g = d.modMem (·.fillRange g.start (g.stop - g.start) false) := by
  unfold Dev.zeroWindow
  cases hregion : regionOf g.start
  case host v o => exact absurd hregion (hhost v o)
  case peer l o => exact absurd hregion (hpeer l o)
  all_goals rfl

/-- Settles O38: what a reset leaves of the partition, its bays and the piers is said of `Dev.partReset`, from which the reset differs at
most in a job of the serving core; a clean quarter and a zeroed window are one change each. -/
theorem partitionsResetAndComeClean : Obligations.PartitionsResetAndComeClean := by
  intro s q i n due d t
  refine ⟨?reset, fun hcleaning hnew => ?clean, ?zero⟩
  case reset =>
    intro hpend hdue hedge d'
    obtain ⟨hparts, hbays, hpiers⟩ := partitionReset_due hpend hdue hedge
    obtain ⟨hinstalled, hstaged, -⟩ := dropTimetables_part t q.isLt lateReset d
    obtain ⟨hinstalledKept, hstagedKept⟩ := ((d.dropTimetables t q lateReset).part q).emptied_timetables
    have hpart : d'.part q = ((d.dropTimetables t q lateReset).part q).emptied := by
      rw [← partReset_part t q.isLt, Dev.part, hparts, Dev.part]
    have hpier (p : Nat) : d'.pier p = (d.partReset t q).pier p := by rw [Dev.pier, hpiers, Dev.pier]
    rw [hpart, exec_partitionReset, execPartitionReset]
    refine ⟨run_of_eq rfl, rfl, hinstalledKept.trans hinstalled, hstagedKept.trans hstaged, rfl, rfl, fun p => ?_, fun b hin hb => ?_⟩
    · rw [hpier]
      exact partReset_pier t q.isLt d p.isLt
    · have hbay : d'.bay b = ((d.dropTimetables t q lateReset).bay b).idled := by
        rw [← partReset_bay t q.isLt d hin hb, Dev.bay, hbays, Dev.bay]
      refine ⟨?_, ?_, fun j => ?_⟩
      · rw [hbay, Bay.idled]
      · rw [hbay, Bay.idled]
      · rw [Dev.stream, hbay, Bay.idled, Bay.stream, Bay.stream_map _ _ j.isLt]
        exact ⟨rfl, rfl, rfl⟩
  case clean =>
    refine ⟨quarterCleanDone q i d, runDev_of_eq rfl, quarterCleanDone_notes q.isLt hcleaning hnew, fun b hb => ?_⟩
    have hbay := quarterCleanDone_cleans i.isLt hcleaning hnew hb
    rw [hbay]
    refine ⟨rfl, rfl, rfl, fun j => ?_⟩
    rw [Dev.stream, hbay, Bay.clean, Bay.stream, Bay.stream_map _ _ j.isLt]
    exact ⟨rfl, rfl, rfl⟩
  case zero =>
    intro hzeroing g here
    refine ⟨?_, fun hhere => ?_⟩
    · rw [exec_segmentZeroDone, execSegmentZeroDone]
      exact run_of_eq (congrArg (Dev.goOn t) (segmentZeroDone_zeroes hzeroing))
    · exact zeroWindow_here (fun v o hr => by simp only [here, hr] at hhere) (fun l o hr => by simp only [here, hr] at hhere) t q d

end Sys2Proof.Machine
end

section
/-! Proof that every command completes (R36, R478). -/

namespace Sys2Proof.Machine

/-- Settles O2: every meaning is a lift, which answers a next state in which the device or the line-time unit alone has been put in
place, with the queue as it was. -/
theorem everyCommandCompletes : Obligations.EveryCommandCompletes := by
  intro c s
  cases c
  case slotLengthChange | epochInstant | timeSourcePresent | timeSourceRegained | lrefEdge =>
    exact ⟨_, rfl, State.withTime_pending _ _⟩
  all_goals exact ⟨_, rfl, State.withDev_pending _ _⟩

end Sys2Proof.Machine
end

section
/-! Proofs of the stages of boot: directory, identity, self-test and publication (R451 to R459, R472). -/

namespace Sys2Proof.Machine

/-! ### Stages 0 and 1 (R454 to R458) -/

section
variable {d : Dev} (hpowered : d.powered = true) (hstage : d.box.stage = 0) {sig0 sig1 : Bool}
include hpowered hstage

theorem romDone_first (h : (sig0 && d.dirSound false) = true) :
    romDone sig0 sig1 d = d.modBox (fun x => { x with stage := 1, dirCopy := false }) := by
  rw [romDone, if_neg (by simp [hstage, hpowered]), if_pos h]

theorem romDone_second (hfirst : ¬(sig0 && d.dirSound false) = true) (h : (sig1 && d.dirSound true) = true) :
    romDone sig0 sig1 d = d.modBox (fun x => { x with stage := 1, dirCopy := true }) := by
  rw [romDone, if_neg (by simp [hstage, hpowered]), if_neg hfirst, if_pos h]

/-- Without a sound signed directory the device enters RECOVERY, and ERROR says why (R454). -/
theorem romDone_recovery (hfirst : ¬(sig0 && d.dirSound false) = true) (hsecond : ¬(sig1 && d.dirSound true) = true) :
    romDone sig0 sig1 d = d.modBox (fun x => { x with stage := 4, error := if sig0 && sig1 then 0x02 else 0x01 }) := by
  rw [romDone, if_neg (by simp [hstage, hpowered]), if_neg hfirst, if_neg hsecond]

end

@[simp] theorem loadDefaults_mem (d : Dev) : d.loadDefaults.mem = d.mem := by simp only [Dev.loadDefaults]
@[simp] theorem loadDefaults_box (d : Dev) : d.loadDefaults.box = d.box := by simp only [Dev.loadDefaults]
@[simp] theorem loadDefaults_bond (d : Dev) : d.loadDefaults.bond = d.bond := by simp only [Dev.loadDefaults]

/-- The images leave the identity as it was rebuilt, and memory. -/
theorem imagesDone_figures {d : Dev} (hpowered : d.powered = true) (hstage : d.box.stage = 1) (puf : Bool) :
    let e := d.rebuildIdentity puf
    (imagesDone puf d).box.stage = 2 ∧ (imagesDone puf d).bond.fnRevs = imageRevisions ∧ (imagesDone puf d).mem = e.mem ∧
      (imagesDone puf d).box.idState = e.box.idState ∧ (imagesDone puf d).bond.devid = e.bond.devid ∧
      (imagesDone puf d).box.error = e.box.error := by
  rw [imagesDone, if_neg (by simp [hstage, hpowered])]
  simp [Dev.modBox]

theorem rebuildIdentity_mem (puf : Bool) (d : Dev) : (d.rebuildIdentity puf).mem = d.mem := by
  unfold Dev.rebuildIdentity
  split
  split <;> rfl

/-- A PUF response that could not be corrected leaves the device without an identity (R457, R458). -/
theorem rebuildIdentity_lost (d : Dev) :
    (d.rebuildIdentity false).box.idState = 2 ∧ (d.rebuildIdentity false).bond.devid = 0 ∧ (d.rebuildIdentity false).box.error = 3 :=
  ⟨rfl, rfl, rfl⟩

/-! ### What self-test leaves of the stage (R459, R460) -/

theorem stage_of_sansRings {d e : Dev} (h : d.sansRings = e.sansRings) : d.box.stage = e.box.stage := congrArg (·.box.stage) h

theorem stage_emit (t : TimeUnit) (q : Option Nat) (r : EvRec) (d : Dev) : (d.emit t q r).box.stage = d.box.stage :=
  stage_of_sansRings (emit_sansRings t q r d)

theorem foldl_stage {α : Type} {f : Dev → α → Dev} (h : ∀ d x, (f d x).box.stage = d.box.stage) (l : List α) (d : Dev) :
    (l.foldl f d).box.stage = d.box.stage := foldl_keeps (fun d => d.box.stage) f h l d

theorem raiseHold_box (c : HoldCause) (d : Dev) : (d.raiseHold c).box = d.box := by
  obtain ⟨h, hd⟩ := raiseHold_eq c d
  rw [hd]

theorem enterTherm_stage (t : TimeUnit) (s : Nat) (st : Therm) (d : Dev) : (d.enterTherm t s st).box.stage = d.box.stage := by
  cases st with
  | normal => rfl
  | hot =>
    simp only [Dev.enterTherm]
    split
    · exact stage_emit _ _ _ _
    · rfl
  | critical => rw [enterTherm_critical, raiseHold_box, Dev.modStack_box]

theorem thermSteps_stage (t : TimeUnit) (s fuel : Nat) (d : Dev) : (d.thermSteps t s fuel).box.stage = d.box.stage := by
  induction fuel generalizing d with
  | zero => rfl
  | succ fuel ih =>
    rw [thermSteps_succ]
    split
    · rfl
    · rw [ih, enterTherm_stage]

theorem testBay_stage (body : List Nat) (f : BayFinding) (b : Nat) (d : Dev) : (d.testBay body f b).box.stage = d.box.stage := by
  unfold Dev.testBay
  extract_lets
  split <;> rfl

theorem testPier_stage (body : List Nat) (f : PierFinding) (p : Nat) (d : Dev) : (d.testPier body f p).box.stage = d.box.stage := by
  unfold Dev.testPier
  extract_lets
  split
  · rfl
  · exact foldl_stage (fun d s => congrArg (·.stage) (Dev.modStack_box d s _)) _ _

/-- The records of trained and mapped-out channels, and a stack's thermal state, leave the stage. -/
theorem testStack_stage (t : TimeUnit) (body : List Nat) (f : StackFinding) (s : Nat) (d : Dev) :
    (d.testStack t body f s).box.stage = d.box.stage := by
  unfold Dev.testStack
  extract_lets _ _ _ _ _ _ _ d1 _ d2 d3
  split
  · rfl
  · have htrained : d2.box.stage = d1.box.stage := foldl_stage (fun d _ => stage_emit t none _ { d with free := d.free + 1 }) _ _
    have hmapped : d3.box.stage = d2.box.stage := foldl_stage (fun d _ => stage_emit t none _ d) _ _
    rw [thermSteps_stage, hmapped, htrained, Dev.modInteg_box, Dev.modStack_box]

/-- Self-test applies its findings in the stage in which it began, and ends; a device without a bay says so in ERROR (R451, R473). -/
theorem selftestDone_due {d : Dev} (hpowered : d.powered = true) (hstage : d.box.stage = 2) (htested : d.box.tested = false)
    (found : Findings) (t : TimeUnit) :
    ∃ e : Dev, e.box.stage = 2 ∧
      selftestDone found t d = e.modBox (fun x => { x with tested := true, error := if e.bond.bays = 0 then 0x04 else x.error }) := by
  rw [selftestDone, if_neg (by simp [hstage, htested, hpowered])]
  refine ⟨_, ?_, rfl⟩
  rw [foldl_stage (fun d s => testStack_stage t _ _ s d), foldl_stage (fun d p => testPier_stage _ _ p d),
    foldl_stage (fun d b => testBay_stage _ _ b d)]
  exact hstage

/-! ### Publication (R451, R453, R472) -/

/-- A device as if the administrative ring had not been enabled yet (R453). -/
def Dev.heldShut (d : Dev) : Dev := { d with bond := { d.bond with heldOpen := false } }

theorem heldShut_of_sansRings {d e : Dev} (h : d.sansRings = e.sansRings) : d.heldShut.sansRings = e.heldShut.sansRings :=
  congrArg Dev.heldShut h

/-- Writing the held records changes the rings, and that the administrative ring has been enabled (R453). -/
theorem flushHeld_sansRings (t : TimeUnit) (d : Dev) : (d.flushHeld t).heldShut.sansRings = d.heldShut.sansRings := by
  unfold Dev.flushHeld
  split
  · rfl
  · split
    · rfl
    next q _ =>
      split
      · rfl
      · let opened : Dev := { d with bond := { d.bond with held := [], heldOpen := true } }
        have hputs : (d.bond.held.foldl (fun (d : Dev) r => d.eventPut t q r) opened).sansRings = opened.sansRings :=
          foldl_sansRings _ (fun d r => sansRings_of _ _ (eventPut_sansTraffic t q r d)) _ _
        have hflushed := heldShut_of_sansRings ((flushOwed_sansRings t _).trans hputs)
        extract_lets
        split
        · exact (heldShut_of_sansRings (sansRings_of _ _ (modRing_sansTraffic _ _ _ _))).trans hflushed
        · exact hflushed

/-- A device that enters stage 3: its enabled links begin training (R451). -/
def Dev.entersService (t : TimeUnit) (d : Dev) : Dev :=
  { d.modBox (fun x => { x with stage := 3, pubMs := w32 ((t.now - d.box.bootAt.toNat) / 1000000) }) with
    links := d.links.map (fun k => if k.en then { k with state := .training } else k) }

/-- The device in stage 3 with its first bond table and its measurements (R467, R472). -/
def Dev.withTable (t : TimeUnit) (meas img : List Nat) (d : Dev) : Dev :=
  { d with bond := { d.bond with gen := 2, ltime := t.now, dirty := false, meas := meas, img := img } }

theorem published_due {d : Dev} (hpowered : d.powered = true) (hstage : d.box.stage = 2) (htested : d.box.tested = true) (t : TimeUnit) :
    ∃ meas img, let d3 := ((d.entersService t).withTable t meas img).flushHeld t
      published t d = if d3.repairBody = d3.repairInForce then d3 else d3.repairDue := by
  rw [published, if_neg (by simp [hstage, htested, hpowered])]
  exact ⟨_, _, rfl⟩

theorem entersService_link (t : TimeUnit) (d : Dev) (l : Fin 32) :
    ((d.entersService t).link l).state = if (d.link l).en then .training else (d.link l).state := by
  simp only [Dev.entersService, Dev.link, vget_lt _ _ l.isLt, Vector.getElem_map]
  split <;> rfl

/-- What publication leaves in the signal box, the bond table and the links, whether or not a repair record is due. -/
theorem published_figures {d : Dev} (hpowered : d.powered = true) (hstage : d.box.stage = 2) (htested : d.box.tested = true) (t : TimeUnit) :
    (published t d).box.stage = 3 ∧ (published t d).bond.gen = 2 ∧
      (published t d).box.pubMs = w32 ((t.now - d.box.bootAt.toNat) / 1000000) ∧
      ∀ l : Fin 32, ((published t d).link l).state = if (d.link l).en then .training else (d.link l).state := by
  obtain ⟨meas, img, hpublished⟩ := published_due hpowered hstage htested t
  have hview := flushHeld_sansRings t ((d.entersService t).withTable t meas img)
  rw [hpublished]
  generalize ((d.entersService t).withTable t meas img).flushHeld t = e at hview
  have hstage' : e.box.stage = 3 := congrArg (·.box.stage) hview
  have hgen : e.bond.gen = 2 := congrArg (·.bond.gen) hview
  have hms : e.box.pubMs = w32 ((t.now - d.box.bootAt.toNat) / 1000000) := congrArg (·.box.pubMs) hview
  have hlink (l : Fin 32) := (state_of_sansRings hview l).trans (entersService_link t d l)
  split <;> exact ⟨hstage', hgen, hms, hlink⟩

/-- Settles O54: each stage takes the branch that the hypotheses select; what follows self-test and publication keeps their stage. -/
theorem bootGoesThroughItsStages : Obligations.BootGoesThroughItsStages := by
  intro s sig0 sig1 puf found hpowered d
  refine ⟨fun hstage => ?rom, fun hstage => ?images, fun hstage htested => ?selftest, fun hstage htested => ?published⟩
  case rom =>
    split
    next hfirst => exact runDev_of_eq (romDone_first hpowered hstage hfirst)
    next hfirst =>
      split
      next hsecond => exact runDev_of_eq (romDone_second hpowered hstage hfirst hsecond)
      next hsecond =>
        refine ⟨_, runDev_of_eq (romDone_recovery hpowered hstage hfirst hsecond), rfl, ?_⟩
        simp only [Dev.modBox]
        split <;> decide
  case images =>
    obtain ⟨hnext, hrevs, hmem, hid, hdevid, herror⟩ := imagesDone_figures hpowered hstage puf
    refine ⟨_, rfl, hnext, hrevs, hmem.trans (rebuildIdentity_mem puf d), fun hlost => ?_⟩
    rw [hid, hdevid, herror, hlost]
    exact rebuildIdentity_lost d
  case selftest =>
    obtain ⟨e, hkept, hdone⟩ := selftestDone_due hpowered hstage htested found s.time
    exact ⟨_, run_of_eq hdone, hkept, rfl, fun hnone => if_pos hnone⟩
  case published => exact ⟨_, rfl, published_figures hpowered hstage htested s.time⟩

end Sys2Proof.Machine
end

section
/-! Proofs of the I3C target: its addresses, the values that it answers, and private commands (R468 to R471). -/

namespace Sys2Proof.Machine

/-! ### ENTDAA (R469) -/

/-- A powered device without an address takes the one it is given while CHAIN_IN is asserted. -/
theorem entdaa_taken {d : Dev} (hpowered : d.powered = true) (hfree : d.box.daValid = false) (da : BitVec 7) :
    entdaa true da d = d.modBox (fun x => { x with chainIn := true, da := da, daValid := true, chainOut := true }) := by
  simp only [entdaa, hpowered, hfree, Bool.not_true, Bool.false_eq_true, or_self, if_false]
  rfl

/-- With CHAIN_IN deasserted or an address held, ENTDAA notes CHAIN_IN alone. -/
theorem entdaa_passed {chainIn : Bool} {d : Dev} (h : chainIn = false ∨ d.box.daValid = true) (da : BitVec 7) :
    entdaa chainIn da d = d.modBox (fun x => { x with chainIn := chainIn }) := by
  have hnot : (!d.powered) = true ∨ (!chainIn) = true ∨ d.box.daValid = true := .inr (h.imp_left (fun hin => by simp [hin]))
  simp only [entdaa, if_pos hnot]

/-- Whatever ENTDAA does with the address, it notes CHAIN_IN and touches no memory. -/
theorem entdaa_notes (chainIn : Bool) (da : BitVec 7) (d : Dev) :
    (entdaa chainIn da d).box.chainIn = chainIn ∧ (entdaa chainIn da d).mem = d.mem := by
  unfold entdaa
  extract_lets
  split <;> exact ⟨rfl, rfl⟩

/-! ### Commands at the dynamic address (R468 to R471) -/

section
variable {d : Dev} (h : d.addressed = true)
include h

theorem powered_of_addressed : d.powered = true := (Bool.and_eq_true_iff.mp h).1

theorem setnewda_addressed (da : BitVec 7) : setnewda da d = d.modBox (fun x => { x with da := da }) := if_pos h

theorem rstdaa_addressed : rstdaa d = d.modBox (fun x => { x with da := 0, daValid := false, chainOut := false }) := by
  simp only [rstdaa, powered_of_addressed h, Bool.not_true, Bool.false_eq_true, if_false]

theorem getpid_addressed : getpid d = d.i3cAnswer (toBytes 6 d.pid).reverse := if_pos h

theorem getbcr_addressed : getbcr d = d.i3cAnswer [0x06] := if_pos h

theorem getdcr_addressed : getdcr d = d.i3cAnswer [0x00] := if_pos h

theorem getstatus_addressed : getstatus d = d.freeAnswer 2 := if_pos h

theorem getmwl_addressed : getmwl d = d.freeAnswer 2 := if_pos h

theorem getmrl_addressed : getmrl d = d.freeAnswer 3 := if_pos h

theorem enec_addressed : enec true d = d.modBox (fun x => { x with ibiEn := true }) := if_pos ⟨powered_of_addressed h, rfl⟩

theorem disec_addressed : disec true d = d.modBox (fun x => { x with ibiEn := false }) := if_pos ⟨powered_of_addressed h, rfl⟩

/-- READ of one word of the bond table prepares its bytes. -/
theorem i3cRead_bond {a : Nat} (ha : a < 0x100000) (h8 : a % 8 = 0) (t : TimeUnit) :
    i3cRead a 1 t d = d.modBox (fun x => { x with reply := .data (toBytes 8 (d.bondWord (a / 8))) }) := by
  have hword : d.chainWord t a = (d.bondWord (a / 8), d) := by rw [Dev.chainWord, if_pos ⟨ha, h8⟩]
  have hone : upTo (min 256 1) = [0] := rfl
  simp only [i3cRead, h, Bool.not_true, Bool.false_eq_true, if_false, hone, List.foldl_cons, List.foldl_nil, Nat.mul_zero, Nat.add_zero,
    hword, List.nil_append]

/-- WRITE of one word puts it where the administrative function's write would, with all that follows. -/
theorem i3cWrite_one (a : Nat) (v : W64) (t : TimeUnit) : i3cWrite a [v] t d = afterWrite (chainPut a v (t, d)) := by
  simp only [i3cWrite, h, Bool.not_true, Bool.false_eq_true, if_false]
  rfl

/-- QUOTE with an identity joins the signer's queue; the private read answers NACK until it is done. -/
theorem i3cQuote_identity {nonce : List Byte} (hid : d.box.idState ≠ 2) (hlen : nonce.length = 64) :
    i3cQuote nonce d = { d.modBox (fun x => { x with reply := .nack }) with
      bond := { d.bond with signer := d.bond.signer ++ [.quote none (some (natBytes nonce, [])) none] } } := by
  have htake : natBytes (nonce.take 64) = natBytes nonce := by rw [List.take_of_length_le hlen.le]
  have hfull : (natBytes nonce).length = 64 := by rw [natBytes, List.length_map, hlen]
  simp only [i3cQuote, h, hid, Bool.not_true, Bool.false_eq_true, if_false, htake, hfull, Nat.sub_self, List.replicate_zero,
    List.append_nil]

theorem flashOpen_of_stage (hstage : d.box.stage = 3 ∨ d.box.stage = 4) : d.flashOpen = true := by
  simpa [Dev.flashOpen, h] using hstage

theorem ferase_sector (hstage : d.box.stage = 3 ∨ d.box.stage = 4) {o : Nat} (ho : o % 0x10000 = 0) :
    ferase o d = d.flashPut o (List.replicate 0x10000 0xFF) :=
  if_pos ⟨flashOpen_of_stage h hstage, ho⟩

theorem fprog_page (hstage : d.box.stage = 3 ∨ d.box.stage = 4) {data : List Byte} (hlen : data.length ≤ 256) (o : Nat) :
    fprog o data d = d.flashPut o ((data.zipIdx).map (fun x => d.flashByte (o + x.2) &&& x.1.toNat)) := by
  rw [fprog, if_pos (flashOpen_of_stage h hstage), List.take_of_length_le hlen]

theorem i3cPrivateRead_data {bs : List Nat} (hreply : d.box.reply = .data bs) :
    i3cPrivateRead d = (d.modBox (fun x => { x with reply := .none })).i3cAnswer bs := by
  simp only [i3cPrivateRead, h, hreply, Bool.not_true, Bool.false_eq_true, if_false]

theorem i3cPrivateRead_nack (hreply : d.box.reply = .nack) : i3cPrivateRead d = d.answer 9 0 [] [] := by
  simp only [i3cPrivateRead, h, hreply, Bool.not_true, Bool.false_eq_true, if_false]

end

theorem chainPut_hole {a : Nat} (h : chainReg a = none) (v : W64) (t : TimeUnit) (d : Dev) :
    chainPut a v (t, d) = (t, d.countHole chainReq a) := by
  simp only [chainPut, h]

theorem chainPut_register {a : Nat} {r : Reg} (h : chainReg a = some r) (v : W64) (t : TimeUnit) (d : Dev) :
    chainPut a v (t, d) = d.regWrite chainReq r v.toNat t := by
  simp only [chainPut, h]

/-- Settles O55: each command of a device that holds an address takes the branch of its rule that the hypotheses select; ENTDAA has its
two cases. -/
theorem chainCommandsAnswer : Obligations.ChainCommandsAnswer := by
  intro s chainIn ea da a o nonce data v bs
  refine ⟨?entdaa, fun hpowered hvalid => ?commands⟩
  case entdaa =>
    obtain ⟨hchain, hmem⟩ := entdaa_notes chainIn ea s.dev
    refine ⟨_, rfl, hchain, hmem, fun hin hpowered hfree => ?_, fun hpass => ?_⟩
    · rw [hin, entdaa_taken hpowered hfree]
      exact ⟨rfl, rfl, rfl⟩
    · rw [entdaa_passed hpass]
      exact ⟨rfl, rfl⟩
  case commands =>
    intro d free
    have h : d.addressed = true := Bool.and_eq_true_iff.mpr ⟨hpowered, hvalid⟩
    refine ⟨runDev_of_eq (setnewda_addressed h da), runDev_of_eq (rstdaa_addressed h), runDev_of_eq (getpid_addressed h),
      runDev_of_eq (getbcr_addressed h), runDev_of_eq (getdcr_addressed h), runDev_of_eq (getstatus_addressed h),
      runDev_of_eq (getmwl_addressed h), runDev_of_eq (getmrl_addressed h), runDev_of_eq (enec_addressed h),
      runDev_of_eq (disec_addressed h), fun ha h8 => run_of_eq (i3cRead_bond h ha h8 s.time), fun hhole => ?hole, fun r hr => ?register,
      fun hid hlen => runDev_of_eq (i3cQuote_identity h hid hlen),
      fun hstage => ⟨fun ho => runDev_of_eq (ferase_sector h hstage ho), fun hlen => runDev_of_eq (fprog_page h hstage hlen o.toNat)⟩,
      fun hreply => runDev_of_eq (i3cPrivateRead_data h hreply), fun hreply => runDev_of_eq (i3cPrivateRead_nack h hreply)⟩
    case hole =>
      have hwrite : i3cWrite a.toNat [v] s.time d = afterWrite (s.time, d.countHole chainReq a.toNat) := by
        rw [i3cWrite_one h, chainPut_hole hhole]
      refine ⟨runBoth_answers hwrite, fun hsettled => runBoth_of_eq (hwrite.trans ?_)⟩
      exact afterWrite_settled ((settled_countHole d _ _).trans hsettled)
    case register => exact runBoth_answers ((i3cWrite_one h a.toNat v s.time).trans (congrArg afterWrite (chainPut_register hr v s.time d)))

end Sys2Proof.Machine
end

section
/-! Proofs of power-up, reset, power-down, the 54 V input, draw, core voltage, droop, die temperature, and reads through host windows (R349,
R438, R477 to R485, R493 to R495). -/

namespace Sys2Proof.Machine

/-! ### What records and withdrawals leave of the power unit -/

theorem pwr_of_sansOccs {d e : Dev} (h : d.sansOccs = e.sansOccs) : d.pwr = e.pwr := congrArg (·.pwr) h

theorem pwr_emit (t : TimeUnit) (q : Option Nat) (r : EvRec) (d : Dev) : (d.emit t q r).pwr = d.pwr :=
  pwr_of_sansOccs (emit_sansOccs t q r d)

theorem withdrawCancel_pwr (t : TimeUnit) (cause : Nat) (k : OccKey) (d : Dev) : (d.withdrawCancel t cause k).pwr = d.pwr :=
  pwr_of_sansOccs (withdrawCancel_sansOccs t cause k d)

theorem foldl_withdrawCancel_pwr (t : TimeUnit) (cause : Nat) (os : List Occ) (d : Dev) :
    (os.foldl (fun (d : Dev) o => d.withdrawCancel t cause o.key) d).pwr = d.pwr :=
  foldl_keeps (·.pwr) _ (fun d o => withdrawCancel_pwr t cause o.key d) os d

/-! ### Power-up, reset and power-down (R493 to R495) -/

theorem pwrEnRise_standby {d : Dev} (h : d.pwr.standby = true) :
    pwrEnRise d = d.modPwr (fun p => { p with pwrEn := true, falling := false }) := by
  simp only [pwrEnRise, Dev.modPwr, h, if_true]

/-- Boot begins once the rails are up, in a module that has not stopped itself (R493). -/
theorem powerGood_due {d : Dev} (t : TimeUnit) (hstandby : d.pwr.standby = true) (hen : d.pwr.pwrEn = true)
    (hgood : d.pwr.pwrGood = false) (htrip : d.pwr.thermtripN = true) :
    powerGood t d =
      (TimeUnit.reset, { (d.modPwr (fun p => { p with rails := true, pwrGood := true })).restart with mem := Memory.reset }) := by
  simp [powerGood, hstandby, hen, hgood, htrip]

/-- What PWR_EN leaves of the pins as it falls (R478, R495). -/
theorem pwrEnFall_pwr {d : Dev} (t : TimeUnit) (h : d.pwr.pwrEn = true) :
    (pwrEnFall t d).pwr.pwrEn = false ∧ (pwrEnFall t d).pwr.thermtripN = true ∧ (pwrEnFall t d).pwr.falling = d.pwr.rails := by
  simp [pwrEnFall, h, Dev.modPwr, foldl_withdrawCancel_pwr]

theorem not_running_of_falling {d : Dev} (h : d.pwr.falling = true) : d.running = false := by
  simp [Dev.running, h]

theorem railsOff_due {d : Dev} (hen : d.pwr.pwrEn = false) (hrails : d.pwr.rails = true) : railsOff d = d.unpower false := by
  simp [railsOff, hen, hrails]

theorem resetPin_release {d : Dev} (t : TimeUnit) (h : d.pwr.resetN = false) :
    resetPin false t d = (TimeUnit.reset, (d.modPwr (fun p => { p with resetN := true })).restart) := by
  simp [resetPin, h]

/-- Settles O56: each event, where its condition holds, is one change of the pins, after which boot starts again or the rails are off. -/
theorem powerComesAndGoes : Obligations.PowerComesAndGoes := by
  intro s d
  refine ⟨rfl, fun hstandby => runDev_of_eq (pwrEnRise_standby hstandby), fun hstandby hen hgood htrip => ?good, fun hen => ?fall,
    fun hen hrails => ⟨_, runDev_of_eq (railsOff_due hen hrails), rfl, rfl, rfl, rfl⟩, ⟨_, rfl, rfl, rfl, rfl, rfl, rfl⟩,
    fun hreset => ⟨_, runBoth_answers (resetPin_release _ hreset), rfl, rfl, rfl⟩⟩
  case good => exact ⟨_, runBoth_answers (powerGood_due _ hstandby hen hgood htrip), rfl, rfl, rfl, rfl, rfl, rfl, rfl, rfl⟩
  case fall =>
    obtain ⟨hfallen, htrip, hfalling⟩ := pwrEnFall_pwr s.time hen
    exact ⟨_, rfl, hfallen, htrip, hfalling, fun hrails => not_running_of_falling (hfalling.trans hrails)⟩

/-! ### The 54 V input (R477, R478) -/

theorem vinCaution_due {t : TimeUnit} {d : Dev} (hzone : d.pwr.vinZone = 1) (hsince : d.pwr.zoneSince + 100000 ≤ t.now)
    (hlast : ∀ u, d.pwr.lastVinCaution = some u → u + 1024 ≤ t.slot) :
    vinCaution t d =
      (d.modPwr (fun p => { p with lastVinCaution := some t.slot })).emit t none (powerCaution 0x01 d.pwr.vin.toNat) := by
  have hall : optAll d.pwr.lastVinCaution (fun u => decide (u + 1024 ≤ t.slot)) = true := by
    cases hlast' : d.pwr.lastVinCaution with
    | none => rfl
    | some u => exact decide_eq_true (hlast u hlast')
  simp only [vinCaution, hzone, hall, Nat.not_lt.mpr hsince, ne_eq, not_true_eq_false, Bool.not_true, Bool.false_eq_true, or_self, if_false]

theorem raiseHold_fresh {c : HoldCause} {d : Dev} (hraised : d.hold.raised.contains c = false)
    (hown : d.hold.own.any (fun x => x.1 = c) = false) :
    d.raiseHold c = { d with hold := { d.hold with raised := d.hold.raised ++ [c] } } := by
  simp only [Dev.raiseHold, hraised, hown, Bool.false_eq_true, or_self, if_false]

/-- The supply's hold, once raised, is what SUPPLY tells (R496). -/
theorem supplyNow_raised {d : Dev} (h : .supply ∈ d.hold.raised) : d.supplyNow = 3 := by
  simp [Dev.supplyNow, h]

theorem vinRideExpiry_out {t : TimeUnit} {d : Dev} (hzone : d.pwr.vinZone = 2) (hsince : d.pwr.zoneSince + 10000000 < t.now) :
    vinRideExpiry t d = (d.raiseHold .supply).modPwr (fun p => { p with supply := (d.raiseHold .supply).supplyNow }) := by
  simp only [vinRideExpiry, hzone, hsince, and_self, if_true]

theorem vinRideExpiry_low {t : TimeUnit} {d : Dev} (hzone : d.pwr.vinZone = 3) : vinRideExpiry t d = protectiveStop t d := by
  simp [vinRideExpiry, hzone]

theorem vinStableExpiry_cleared {t : TimeUnit} {d : Dev} (h : d.cleared t .supply = true) :
    vinStableExpiry t d =
      (d.sendResume t .supply).modPwr (fun p => { p with supply := (d.sendResume t .supply).supplyNow }) := by
  simp only [vinStableExpiry, h, if_true]

/-- RESUME of the only hold of this device: no hold is its own any more, and the hold has a resume slot not below R63's bound. -/
theorem sendResume_only {t : TimeUnit} {d : Dev} {c : HoldCause} {seq : Nat} (hown : d.hold.own = [(c, seq)]) :
    (d.sendResume t c).hold.own = [] ∧ ∀ h ∈ (d.sendResume t c).hold.live, h.init = d.fab.addr.toNat → h.seq = seq →
      ∃ u, h.resume = some u ∧ t.slot + t.lead + 1 ≤ u := by
  obtain ⟨slot, hslot, hhold⟩ := sendResume_hold (t := t) (d := d) (c := c) (c' := c) (seq := seq) (by simp [hown])
  rw [hhold]
  refine ⟨by simp [Hold.remember, hown], fun h hlive hinit hseq => ?_⟩
  obtain ⟨x, -, rfl⟩ := List.mem_map.mp hlive
  by_cases hx : x.init = d.fab.addr.toNat ∧ x.seq = seq
  · exact ⟨slot, by rw [if_pos hx], hslot⟩
  · rw [if_neg hx] at hinit hseq
    exact absurd ⟨hinit, hseq⟩ hx

theorem protectiveStop_due {t : TimeUnit} {d : Dev} (hrails : d.pwr.rails = true) (hstop : d.mustStop t = true) :
    protectiveStop t d = d.unpower true := by
  simp only [protectiveStop, hrails, hstop, and_self, if_true]

/-- Settles O57: each event takes the branch of its rule that the hypotheses select. -/
theorem inputVoltageActs : Obligations.InputVoltageActs := by
  intro s mv d t
  refine ⟨⟨_, rfl, rfl, rfl, rfl, fun hlow => if_pos hlow, rfl, rfl⟩, fun hzone hsince hlast => ?caution,
    fun hzone hsince hraised hown => ?ride, fun hzone => ?low, fun seq hclear hown => ?stable, fun hrails hstop => ?stop⟩
  case caution =>
    intro e
    obtain ⟨r, hwrote, hcls, hsource, hcount, hdetail⟩ := emit_wrote_device t (powerCaution 0x01 d.pwr.vin.toNat) e
    exact ⟨_, r, run_of_eq (vinCaution_due hzone hsince hlast), hwrote, hcls, hsource, hcount,
      hdetail ▸ detail_cause 1 (rest := []) (by simp), emit_sansRings _ _ _ _⟩
  case ride =>
    have hraise := raiseHold_fresh hraised hown
    have hraised' : (d.raiseHold .supply).hold.raised = d.hold.raised ++ [.supply] := congrArg (·.hold.raised) hraise
    exact ⟨_, run_of_eq (vinRideExpiry_out hzone hsince), hraised', supplyNow_raised (hraised' ▸ List.mem_concat_self),
      congrArg (·.mem) hraise, raiseHold_records _ _⟩
  case low => exact run_of_eq (vinRideExpiry_low hzone)
  case stable => exact ⟨_, run_of_eq (vinStableExpiry_cleared hclear), sendResume_only hown⟩
  case stop => exact ⟨_, run_of_eq (protectiveStop_due hrails hstop), rfl, rfl, Bool.and_false _, rfl⟩

/-! ### Draw, core voltage, droop and temperature (R479 to R485) -/

/-- The power unit once the shaper has set the draw and the ballast from the work draw, in units of 0.1 W (R479, R481). -/
def Power.shaped (lookAhead work gated : Nat) (p : Power) : Power :=
  let draw := min (max (10 * work) (max lookAhead (p.draw - p.slew.toNat))) (min (10 * p.cap.toNat) 34000)
  { p with
    draw := draw, work := 10 * work, cnt0 := p.cnt0.addHi gated
    ballast := min (draw - 10 * work) (if p.balen ∧ 36000 ≤ p.vin.toNat then 20000 else 0) }

/-- The shaper sets the draw; what else it may do is the CAUTION and when it was last written (R480). -/
theorem shaperTick_pwr (work gated : Nat) (t : TimeUnit) (d : Dev) :
    ∃ u, (shaperTick work gated t d).pwr = { d.pwr.shaped (d.lookAhead t) work gated with lastDrawCaution := u } := by
  unfold shaperTick
  extract_lets
  split
  · exact ⟨_, rfl⟩
  · rw [pwr_emit]
    exact ⟨_, rfl⟩

/-- The voltage of a rail 5 mV nearer to its aim (R482). -/
theorem voltageStep_unlimited {r pass safe : Nat} (hr : r < 9) {t : TimeUnit} {d : Dev} (hfirst : vget 0 d.pwr.voltAt r = 0)
    (hsafe : d.pwr.vfloor.toNat ≤ safe) :
    (voltageStep r pass safe t d).records = d.records ∧
      (let aim := max 700 (min 900 (max pass d.pwr.vfloor.toNat))
       let x := vget 900 d.pwr.volts r
       vget 900 (voltageStep r pass safe t d).pwr.volts r = if x < aim then min aim (x + 5) else max aim (x - 5)) := by
  have hheld : decide (safe < d.pwr.vfloor.toNat) = false := decide_eq_false (by omega)
  simp [voltageStep, hfirst, hheld, Dev.modPwr, vget_vmod_same _ _ hr]

theorem maskBits_none (n : Nat) : maskBits n 0 = [] := by simp [maskBits]

theorem maskBits_one (j : Fin 16) : maskBits 16 (BitVec.ofNat 16 (2 ^ j.val)).toNat = [j.val] := by
  revert j
  decide

theorem droopEvent_none (p : Nat) (t : TimeUnit) (d : Dev) : droopEvent p 0 t d = d := by
  rw [droopEvent, maskBits_none]
  rfl

theorem droopEvent_one {p : Nat} {j : Fin 16} {d : Dev} (h : d.bayPresent (16 * p + j) = true) (t : TimeUnit) :
    droopEvent p (BitVec.ofNat 16 (2 ^ j.val)).toNat t d = d.droopBay t (16 * p + j) := by
  rw [droopEvent, maskBits_one]
  simp [h]

/-- What a reading of the die notes (R485). -/
theorem dieTemp_pwr (temp : Nat) (t : TimeUnit) (d : Dev) :
    (dieTemp temp t d).pwr.tdie = BitVec.ofNat 8 (min temp 255) ∧
      (dieTemp temp t d).pwr.alertN = if 95 ≤ temp then false else if temp ≤ 93 then true else d.pwr.alertN := by
  simp only [dieTemp]
  split
  · obtain ⟨h, hraise⟩ := raiseHold_eq .thermal (d.modPwr (fun p => { p with
      tdie := BitVec.ofNat 8 (min temp 255)
      alertN := if 95 ≤ temp then false else if temp ≤ 93 then true else p.alertN
      dieCoolSince := if temp ≤ 95 then some (p.dieCoolSince.getD t.now) else none }))
    rw [hraise]
    exact ⟨rfl, rfl⟩
  · exact ⟨rfl, rfl⟩

theorem dieTemp_raises {temp : Nat} (hhot : 100 ≤ temp) {d : Dev} (hraised : d.hold.raised = []) (hown : d.hold.own = []) (t : TimeUnit) :
    (dieTemp temp t d).hold.raised = [.thermal] := by
  simp only [dieTemp, if_pos hhot]
  exact raiseHold_raised hraised hown

theorem dieTemp_cool {temp : Nat} (hcool : temp < 100) (t : TimeUnit) (d : Dev) : (dieTemp temp t d).hold = d.hold := by
  simp only [dieTemp, if_neg (Nat.not_le.mpr hcool), Dev.modPwr_hold]

theorem dieCool_cleared {t : TimeUnit} {d : Dev} (h : d.cleared t .thermal = true) : dieCool t d = d.sendResume t .thermal := by
  simp only [dieCool, h, if_true]

/-! ### Reads through host windows (R349, R438) -/

theorem hostData_awaited {v tag : Nat} {ep : Bool} {data : List Byte} {d : Dev} {w : Outstanding}
    (h : (d.portOf v).waiting.find? (fun w => w.tag = tag) = some w) :
    hostData v tag ep data d = (d.modMem (·.putAll w.addr (data.take w.len) (List.replicate (data.take w.len).length ep) [])).modPort v
      (fun k => { k with waiting := k.waiting.filter (fun x => x.tag != tag) }) := by
  simp only [hostData, h]

theorem hostData_unasked {v tag : Nat} {ep : Bool} {data : List Byte} {d : Dev}
    (h : (d.portOf v).waiting.all (fun w => w.tag != tag) = true) : hostData v tag ep data d = d := by
  have hnone : (d.portOf v).waiting.find? (fun w => w.tag = tag) = none := by
    simpa using h
  simp only [hostData, hnone]

/-- Settles O58: each event is the change that its rule states; a CAUTION of the shaper's leaves the figures that it has set. -/
theorem shaperVoltageDroopAndTemperature : Obligations.ShaperVoltageDroopAndTemperature := by
  intro s work gated pass safe temp width rate tag rail p bays v ep data d t W
  refine ⟨?shaper, fun hfirst hsafe => ⟨_, rfl, voltageStep_unlimited rail.isLt hfirst hsafe⟩, fun hnone => ?noBay,
    fun j hone hpresent => ?oneBay, ?temperature, fun seq hclear hown => ?cooled, rfl, fun w hw => ?awaited, fun hw => ?unasked⟩
  case shaper =>
    obtain ⟨u, hpwr⟩ := shaperTick_pwr work gated t d
    refine ⟨_, rfl, ?_⟩
    rw [hpwr]
    refine ⟨rfl, rfl, (min_le_right _ _).trans ?_, fun hoff => ?_, rfl⟩
    · split <;> omega
    · simp [Power.shaped, hoff]
  case noBay =>
    subst hnone
    exact run_of_eq (droopEvent_none p t d)
  case oneBay =>
    subst hone
    exact run_of_eq (droopEvent_one hpresent t)
  case temperature =>
    obtain ⟨htdie, halert⟩ := dieTemp_pwr temp t d
    refine ⟨_, rfl, htdie, fun h => halert.trans (if_pos h), fun h => halert.trans ?_, fun h => (dieTemp_raises h · · t),
      fun h => dieTemp_cool h t d⟩
    rw [if_neg (by omega), if_pos h]
  case cooled => exact ⟨_, run_of_eq (dieCool_cleared hclear), (sendResume_only hown).1⟩
  case awaited => exact run_of_eq (congrArg (Dev.goOn t) (hostData_awaited hw))
  case unasked => exact run_of_eq (congrArg (Dev.goOn t) (hostData_unasked hw))

end Sys2Proof.Machine
end
